-- ==== Sys2Proof/Word.lean ====
section
/-! DEFINITION. The words of the module: bytes, 32-bit registers, 64-bit fields (00 R13, R14, R16). -/

namespace Sys2Proof

/-- One byte of a command, completion, record or register. -/
abbrev Byte := BitVec 8

/-- A byte string: a key, a value, a datagram, a payload. -/
abbrev Bytes := List Byte

/-- A management register (R16). -/
abbrev Word := BitVec 32

/-- A 64-bit field, little-endian where it is stored (R14). -/
abbrev DWord := BitVec 64

end Sys2Proof
end

