-- ==== Sys2Proof/Syntax.lean ====
section
/-! DEFINITION. The commands of the block: one constructor of `Instr` for each row of spec/opcode_table.json.
A row that executes a command taken from a mailbox names the CP whose front entry it executes (R23, R490); a row that
continues a command in progress names it by its admission number; a row that reports something physical carries what
was found as its operand. The entry, the payload and the datagram themselves are operands of the rows that bring them
into the module (CMD, ENTRY_FETCH_RESPONSE, PAYLOAD_FETCH_RESPONSE, the side-band writes). -/

namespace Sys2Proof

/-- Where a datagram or a connection request came from: port, addresses, UDP ports, priority (R134, R338). -/
structure Rx where
  port : Fin 2
  hostAddr : Bytes
  hostUdp : Nat
  localAddr : Bytes
  localUdp : Nat
  pcp : Fin 8
  dscp : Nat
  deriving DecidableEq, Repr

/-- One IP fragment of a datagram (R127). -/
structure Fragment where
  port : Fin 2
  srcAddr : Bytes
  dstAddr : Bytes
  dstUdp : Nat
  ident : Nat
  offset : Nat
  more : Bool
  data : Bytes
  deriving DecidableEq, Repr

/-- The requests a port answers before and during service (R127, R436). -/
inductive EchoKind where
  | arp | neighbourSolicitation | icmp4Echo | icmp6Echo
  deriving DecidableEq, Repr

/-- The two drain streams of R188. -/
inductive Stream where
  | small | large
  deriving DecidableEq, Repr

/-- How a page read ended on the recovery ladder of R264. -/
inductive ReadOutcome where
  | hard                 -- step 1
  | retry (ref : Nat)    -- step 2, the retry reference (1 to 7) that decoded
  | soft                 -- step 3
  | parity               -- step 4
  | failed               -- steps 1 to 4 failed
  deriving DecidableEq, Repr

/-- What the DRAM controller found (R442, R443). -/
inductive DramErr where
  | corrected (bank row : Nat)        -- a single-bit error, corrected
  | uncorrectable (bank row : Nat) (landing : Bool)    -- `landing`: a Landing read, served from the other copy
  | retrain (ok : Bool)               -- one link retraining
  deriving DecidableEq, Repr

/-- The wake events of R233 and R455. -/
inductive WakeSource where
  | frame | arpOrSolicitation | linkChange | wakePin | scrubOrMeasurementDue | thermalWarning | tokenRequest
  | psNowZero | psCapLowered | sideBand
  deriving DecidableEq, Repr

/-- What a RoCE v2 packet to a queue pair is, as far as no row of its own takes it (R147): a request the module does not serve,
a congestion notification, or a packet that a switch marked. -/
inductive RoceIn where
  | readOrAtomic (qp : Fin 1024)
  | cnp (qp : Fin 1024)
  | ecnMarked (qp : Fin 1024)
  deriving DecidableEq, Repr

/-- The input as ILIMIT_EVALUATION finds it: VIN and input current averaged over 100 ms, the peak input power of the last 1 s (06 R202, R235). -/
structure InputSample where
  vin10mV : Nat
  inMa : Nat
  peakMw : Nat
  deriving DecidableEq, Repr

/-- The protocol a received frame carries, as the MAC tells it apart (R336). -/
inductive RxProto where
  | udp (dport : Nat)
  | roce (m : RoceIn)                -- UDP port 4791
  | routerAdv (router : Bytes)       -- ICMPv6 Router Advertisement (R126)
  | arp | ndisc | echo | ptp | macControl
  | unknown
  deriving DecidableEq, Repr

/-- One 802.1Q tag: TPID, PCP, VID (R337). -/
structure VlanTag where
  tpid : BitVec 16
  pcp : Fin 8
  vid : BitVec 12
  deriving DecidableEq, Repr

/-- A received frame as the MAC sees it (R336, R337, R339, R357). `len` includes the FCS. -/
structure RxFrame where
  len : Nat
  dst : BitVec 48
  tags : List VlanTag
  fcsOk : Bool
  symbolErr : Bool
  ipErr : Bool
  proto : RxProto
  deriving DecidableEq, Repr

/-- A received pause frame: link pause or priority flow control with one quanta field for each priority (R343). -/
inductive PauseFrame where
  | link (quanta : BitVec 16)
  | pfc (enable : BitVec 8) (quanta : List (BitVec 16))
  deriving DecidableEq, Repr

/-- The start of a link training that ended well. -/
structure LinkInfo where
  rate : Fin 4        -- rate code of R327
  eee : Bool
  partnerAdv : BitVec 4
  deriving DecidableEq, Repr

/-- The data set of an Announce message, as the best time-transmitter algorithm compares it (R351, R14). -/
structure Announce where
  prio1 : BitVec 8
  clockClass : BitVec 8
  accuracy : BitVec 8
  variance : BitVec 16
  prio2 : BitVec 8
  gm : BitVec 64
  steps : BitVec 16
  deriving DecidableEq, Repr

/-- A PTP message sent or received (R351, R353), with its sourcePortIdentity and its logMessageInterval. `offset` is the offset from the time transmitter, in ns, that the
message completes a sample of, if it completes one (R352). -/
structure PtpMsg where
  port : Fin 2
  sent : Bool
  msgType : BitVec 4
  domain : BitVec 8
  seqId : BitVec 16
  transport : Fin 3
  oneStep : Bool
  offset : Option Int
  sender : BitVec 80 := 0
  logInterval : Int := 0
  announce : Option Announce := none
  deriving DecidableEq, Repr

/-- One second of traffic on a port (R332, R334). Rates are line rates in bit/s. -/
structure TrafficSample where
  rxBps : Nat
  txBps : Nat
  starved : Bool     -- REJECT reason 2 was sent while frames waited more than 25 % of the second
  deriving DecidableEq, Repr

/-- The engines with a watchdog of their own (R435), by their source unit code (R411). -/
inductive Engine where
  | skiff | ferry | mailbox | prism | landing | dataMover | flash
  deriving DecidableEq, Repr

/-- The five ledgers of R34 and an instance of each (R38). -/
structure LedgerId where
  ledger : Fin 6
  kind : Nat
  number : Nat
  deriving DecidableEq, Repr

/-- What the downstream neighbour answered the forward (R372). -/
inductive FwdAnswer where
  | helloAck (sid : Nat) (cookie : BitVec 32)    -- the session it opened
  | offerOk (held : List Nat)      -- block indices the downstream holds
  | blockOk (index : Nat)          -- block complete at the downstream
  | status (st : BitVec 16)
  | failed                         -- nothing came, or the transport failed
  deriving DecidableEq, Repr

/-- The end of an activation step (R376, R378): its hold in µs, and whether step 2 found every required record convertible. -/
structure StepEnd where
  holdUs : Nat
  converts : Bool
  deriving DecidableEq, Repr

/-- A Mirror message's header fields (R298) and body (R299). -/
structure MirrorMsg where
  lseq : Nat
  lack : Nat
  lapplied : Nat
  stamp : DWord
  ks : BitVec 8
  flags : BitVec 16
  key : Bytes
  body : Bytes
  deriving DecidableEq, Repr

/-- The commands: one constructor for each row of spec/opcode_table.json, in its order. -/
inductive Instr where
  -- key commands, executed from a CP mailbox
  | put (cp : Fin 8)
  | get (cp : Fin 8)
  | delete (cp : Fin 8)
  | existsKey (cp : Fin 8)
  | discardRange (cp : Fin 8)
  | list (cp : Fin 8)
  | mget (cp : Fin 8)
  | putPart (cp : Fin 8)
  | flush (cp : Fin 8)
  | flushDone (adm : Nat)
  | abort (adm : Nat)
  -- commands of the active SUP
  | summary
  | ksCreate
  | ksDelete
  | ksDeleteTakesEffect (adm : Nat)
  | ksSetLimit
  | format
  | sanitize
  | sanitizeDone
  | ident
  | setFeature
  | getFeature
  | logRead
  | logClear
  | updOffer
  | updBlock
  | updActivate
  | updConfirm
  | attest
  | attestSigningDone
  | certRead
  | pair
  | unpair
  | setPolicy
  | setLag
  | resync
  | mirrorState
  -- writes in progress
  | putValueLanded (adm : Nat)
  | writeWaitTimeout (adm : Nat)
  | writeWaitResume (adm : Nat)
  | assemblyExpiry (asm : Nat)
  -- Skiff
  | hello (rx : Rx) (dg : Bytes)
  | cmd (rx : Rx) (dg : Bytes)
  | ack (rx : Rx) (dg : Bytes)
  | keepalive (rx : Rx) (dg : Bytes)
  | close (rx : Rx) (dg : Bytes)
  | closeAck (sid : Fin 512)
  | sessionFree (sid : Fin 512)
  | sessionExpiry (sid : Fin 512)
  | heldCmdExpiry (sid : Fin 512) (seq : BitVec 32)
  | ipFragment (f : Fragment)
  | reassemblyTimeout (port : Fin 2) (srcAddr : Bytes) (ident : Nat)
  | arpNdEchoRequest (rx : Rx) (kind : EchoKind) (len : Nat)
  -- Ferry
  | connectionReq (rx : Rx) (priv : Bytes)
  | doorbell (qp : Fin 1024) (offset : Nat) (data : Bytes)
  | entryFetchResponse (qp : Fin 1024) (entries : List Bytes)
  | payloadFetchResponse (adm : Nat) (data : Bytes)
  | completionWrite (qp : Fin 1024)
  | notifyTimer (qp : Fin 1024)
  | hostDisconnect (qp : Fin 1024)
  | connectionFailure (qp : Fin 1024)
  | payloadTransferNak (adm : Nat)
  | queuePairFree (qp : Fin 1024)
  -- drain, journal and index
  | drainPartialRowTimer (st : Stream)
  | drainRowProgrammed (job : Nat)
  | mapRecordDurable (jseq : Nat)
  | writeThroughDone (adm : Nat)
  | journalPageTimer
  | journalPageProgrammed
  | checkpointSlice
  | stashReinsert
  | reclaimSweep (range : Nat)
  -- flash media
  | programUnitDone (ch : Fin 18) (pos : Fin 4) (ok : Bool)
  | pageReadDone (read : Nat) (o : ReadOutcome)
  | dieResetRetry (ch : Fin 18) (pos : Fin 4) (ok : Bool)
  | channelRetrain (ch : Fin 18) (ok : Bool)
  | segmentSeal (seg : Nat)
  | gcSourceStart
  | gcRowProgrammed (job : Nat)
  | copyDone (seg : Nat)
  | eraseDone (seg : Nat) (failed : List (Fin 18))
  | scrubCreditTick
  | scrubBlock (ch : Fin 18) (pos : Fin 4) (slot : Nat) (o : ReadOutcome) (highErrors : Bool)
  | repackStart
  | dramError (ch : Fin 4) (e : DramErr)
  -- power, hold-up, thermal
  | pwrclsChange (pads : Fin 8)
  | ilimitEvaluation (sample : InputSample)
  | ilimitClamp (vin10mV : Nat)
  | vinHigh (vin10mV : Nat)
  | tokenRequest (cls : Fin 4) (tokens : Nat)
  | tokenReturn (grant : Nat)
  | holdVoltageStep (v10mV : Nat)
  | holdVoltageFall (v10mV : Nat) (fell10mVIn1s : Nat)
  | holdAbsentTimeout (rise10mV : Nat)
  | capacitanceMeasurementDue
  | capacitanceMeasurementDone (uF : Nat) (ms : Nat)
  | measurementRetry
  | bankRetry
  | underVoltageTrip
  | holdupDrainEnd
  | holdAt12v
  | restartQualification (straps : BitVec 4)
  | thermalSample (ctrl16 : Int) (dies16 : List Int)
  | thermalTrip
  | psIdleExpiry (ps : Fin 5)
  | wakeEvent (w : WakeSource)
  | powerStateTransitionDone
  | pwrCtrlSnapshot
  | pwrCtrlMeasure
  | pwrClassWrite (v : Word)
  | pwrIlimitWrite (v : Word)
  -- registers and data mover
  | registerWrite (addr : Nat) (v : Word)
  | dmaPause (ch : Fin 16) (on : Bool)
  | dmaStop (ch : Fin 16)
  | dmaShCommit (ch : Fin 16)
  | dmaRetry (ch : Fin 16)
  | dmaPauseDrainEnd (ch : Fin 16) (written : Nat)
  | dmaHandOver (ch : Fin 16)
  | dmaError (ch : Fin 16) (err : Fin 8) (written : Nat)
  -- Mirror
  | mirrorHello (rx : Rx) (body : Bytes)
  | mirrorHelloAck (rx : Rx) (body : Bytes)
  | mirrorPut (m : MirrorMsg)
  | mirrorDelete (m : MirrorMsg)
  | mirrorRange (m : MirrorMsg)
  | mirrorAck (m : MirrorMsg)
  | heartbeat (m : MirrorMsg)
  | heartbeatSend
  | mirrorResendTimer
  | repairReq (m : MirrorMsg)
  | repairRsp (m : MirrorMsg)
  | repairTimeout (read : Nat)
  | ksCfg (m : MirrorMsg)
  | syncMark (m : MirrorMsg)
  | refuse (m : MirrorMsg)
  | refusedProbe (ks : Fin 64)
  | mirrorClose (m : MirrorMsg)
  | peerLost
  | mirrorMarkStore
  | deltaResyncStart
  -- ports
  | linkUp (port : Fin 2) (l : LinkInfo)
  | linkDown (port : Fin 2)
  | trainingFailure (port : Fin 2) (rate : Fin 4)
  | fastRetrain (port : Fin 2)
  | portReset (port : Fin 2) (selfTestOk : Bool)
  | statSnap (port : Fin 2)
  | renegotiate (port : Fin 2)
  | macnFcCfgWrite (port : Fin 2) (v : Word)
  | trafficSample (s0 s1 : TrafficSample)
  | frameReceived (port : Fin 2) (f : RxFrame)
  | xon (port : Fin 2)
  | pauseRefresh (port : Fin 2)
  | pauseFrameReceived (port : Fin 2) (f : PauseFrame)
  | pauseExpiry (port : Fin 2) (tc : Fin 8)
  | pauseWdog (port : Fin 2) (tc : Fin 8)
  | pauseWdogBreakEnd (port : Fin 2) (tc : Fin 8)
  | frameTransmitStart (port : Fin 2)
  | tasConfigChange (port : Fin 2)
  | tasSwap (port : Fin 2)
  | gateEntryAdvance (port : Fin 2)
  | tasEnableWrite (port : Fin 2) (v : Word)
  -- PTP
  | ptpEventMessage (m : PtpMsg)
  | ptpHoldover
  | ppsInEdge
  | ppsOutEdge
  | ptpCtrlStep
  | ptpTimeNsRead
  | ptpPpsInNsRead
  | ptpTsqData0Read (q : Fin 4)
  -- update
  | updVerificationDone (badBlocks : List Nat)
  | partialBlockTimeout
  | updSessionAbandon
  | cfForwardRetry
  | selfActivation
  | activationStepDone (e : StepEnd)
  | selfTestPass
  | confirmTimeout
  -- security timer and event recorder
  | authRefusalEnd (addr : Bytes)
  | evrFlashCopy
  | evrCursorHiWrite (v : Word)
  | evrAdvance
  | evrRefresh
  | evrToOldest
  | evrToNewest
  | evrClear
  | lensFillDone
  | evrSkippedRead
  | evrNewestLoRead
  | evrOldestLoRead
  | evrMemFault (flashRing : Bool) (bank : Nat)
  -- resets and start-up
  | resetPin
  | sideBandSoftReset (v : Word)
  | resetCloseDone (ended : Bool)
  | referenceLoss
  | cpWatchdog (cp : Fin 8)
  | engineWatchdog (e : Engine)
  | supLockstepFailure (sup : Fin 2)
  | ledgerFault (l : LedgerId)
  | serviceResetEnd
  | serviceResetTimeout
  | startUpPhaseDone (verified : List Bool)
  | serviceInstant
  -- side-band
  | mbx31Doorbell
  | mbx31Cancel
  | spiWrite (addr : Nat) (data : Bytes)
  | spiRead (addr : Nat) (words : Nat) (waitBytes : Nat)
  | spiStatus
  | i2cWrite (dev : BitVec 7) (addr : Nat) (data : Bytes)
  | i2cRead (dev : BitVec 7) (addr : Nat) (words : Nat)
  | i2cSclTimeout
  | postedWriteApply
  | clkMeasSelWrite (v : Word)
  | clkMeasDone (kHz : Nat)
  -- the rows that close the table
  | cfForwardResponse (a : FwdAnswer)
  | lowPowerIdle (port : Fin 2)
  | holdupChargeTimeout
  | attestBusyTimeout (adm : Nat)
  | delayReqTimer (port : Fin 2)
  | ppsOutFall
  | resetRelease (straps : BitVec 4)
  | localAckTimeout (qp : Fin 1024)
  | ptpCfgWrite (v : Word)
  deriving DecidableEq, Repr

end Sys2Proof
end

