-- ==== Sys2Proof/Config.lean ====
section
/-! DEFINITION. What an implementation fixes and the free values: opaque constants without a body, so that no proof can see
what they are (log 9). Each is applied to the operands it depends on or to the counter `State.freeCtr`. -/

namespace Sys2Proof

/-- A free value: a fresh unknown number for each value of the counter. It stands for the true random source (12 R394) and
for every choice the spec leaves open (02 R63, 05 R176, 04 R132). -/
opaque Config.free : Nat → Nat

/-- The vendor's public key with this SHA-256 among those the trust anchor holds, as modulus and exponent; none where it holds no such key
(11 R361, 12 R385). -/
opaque Config.bootKey : Bytes → Option (Nat × Nat)

/-- The private identity key that signs quotes, as modulus and exponent (12 R392). -/
opaque Config.identityKey : Nat × Nat

/-- The keys drawn from the true random source, by the number of the draw: 64 bytes, two AES-256 keys (12 R394). -/
opaque Config.drawnKey : Nat → Bytes

/-- The fused root secret (12 R385) and the media salts by their generation (12 R394), 32 bytes each. -/
opaque Config.rootSecret : Bytes
opaque Config.mediaSalt : Nat → Bytes

/-- The XTS data-unit number of the first 4,096 bytes of a metadata page, by the page's place: 12 R395 gives none. -/
opaque Config.metaUnit : Nat → Nat

/-- The SHA-256 of the header of the image that a slot was shipped with (11 R362, R363). -/
opaque Config.shippedHash : Nat → Bytes

/-- The DER bytes of certificate 0, 1 or 2 (12 R390). -/
opaque Config.cert : Nat → Bytes

/-- The P0 MAC address of the module at a network address (09 R295: it decides the rank). -/
opaque Config.peerMac : Bytes → BitVec 48

/-- Address of the doorbell region in the module's RDMA space (04 R149, R151). -/
opaque Config.doorbellBase : Nat

/-- Where the units' data lie in data DRAM, as descriptors address it (08 R284, R287): the base of the Landing region, the value-cache
copy of a flash record by segment and offset, and a channel's index tables in CP SRAM. -/
opaque Config.landingBase : Nat
opaque Config.cacheAddr : Nat → Nat → Nat
opaque Config.headerAddr : Nat → Nat
opaque Config.indexTableAt : Nat → Nat
opaque Config.houseAt : Nat → Nat

/-- The 7 read offsets of a replaced read-reference entry by the counter, those a part is shipped with by channel, position, slot and band,
and the correction of an offset between two bands (07 R267). -/
opaque Config.readOffsets : Nat → List Int
opaque Config.shippedOffsets : Nat → Nat → Nat → Nat → List Int
opaque Config.bandShift : Nat → Nat → Int

/-- The fixed scrambled pattern of filler and padding (07 R242): byte by its offset. -/
opaque Config.filler : Nat → Byte

/-- The measurements fused or built in: entry 0 (boot ROM) and entry 1 (trust anchor, capability words, debug lock) of
12 R391. -/
opaque Config.fusedDigest : Nat → Bytes

end Sys2Proof
end

