-- ==== Sys2Proof/Machine/Bits.lean ====
section
/-! DEFINITION. Byte strings, bit fields and check values: little-endian fields (00 R14), byte-string order (02 R46),
align8 (03 R82), serial-number arithmetic (00 R18), CRC-32C. -/

namespace Sys2Proof.Machine

/-- A number as `n` little-endian bytes (R14). -/
def le : Nat → Nat → Bytes
  | 0, _ => []
  | n + 1, v => BitVec.ofNat 8 v :: le n (v / 256)

/-- The number that little-endian bytes hold (R14). -/
def unLe : Bytes → Nat
  | [] => 0
  | b :: r => b.toNat + 256 * unLe r

/-- A number as `n` big-endian bytes. -/
def be (n v : Nat) : Bytes := (le n v).reverse

/-- The number that big-endian bytes hold. -/
def unBe (b : Bytes) : Nat := unLe b.reverse

/-- `len` bytes from offset `off`. -/
def slice (b : Bytes) (off len : Nat) : Bytes := (b.drop off).take len

/-- The little-endian field of `len` bytes at offset `off`. -/
def fieldAt (b : Bytes) (off len : Nat) : Nat := unLe (slice b off len)

/-- Bits [hi:lo] of a number. -/
def bitsOf (v hi lo : Nat) : Nat := v / 2 ^ lo % 2 ^ (hi - lo + 1)

/-- Bit `k` of a number. -/
def bitOf (v k : Nat) : Bool := v.testBit k

/-- 1 for true. -/
def b2n (b : Bool) : Nat := if b then 1 else 0

/-- Bytes brought to length `n`: cut, or filled with zeros. -/
def fit (n : Nat) (b : Bytes) : Bytes := (b ++ List.replicate (n - b.length) 0).take n

/-- Whether every byte is zero. -/
def allZero (b : Bytes) : Bool := b.all (· == 0)

/-- n rounded up to a multiple of `m`. -/
def alignTo (m n : Nat) : Nat := (n + m - 1) / m * m

/-- align8 of R82. -/
def align8 (n : Nat) : Nat := alignTo 8 n

/-- n / m rounded up. -/
def ceilDiv (n m : Nat) : Nat := (n + m - 1) / m

/-- Byte-string order: unsigned bytes, a proper beginning sorts first (R46). -/
def keyLt : Bytes → Bytes → Bool
  | [], [] => false
  | [], _ :: _ => true
  | _ :: _, [] => false
  | a :: r, b :: t => if a.toNat < b.toNat then true else if a == b then keyLt r t else false

/-- Whether a key lies in the range from `lo` inclusive to `hi` exclusive, an empty `hi` being no bound (R62). -/
def inRange (lo hi k : Bytes) : Bool := !keyLt k lo && (hi.isEmpty || keyLt k hi)

/-- Serial-number arithmetic of R18 over `n`-bit numbers: a is earlier than b. -/
def earlier (n a b : Nat) : Bool :=
  let d := (b + 2 ^ n - a % 2 ^ n) % 2 ^ n
  1 ≤ d && d < 2 ^ (n - 1)

/-- Distance from a forward to b over `n`-bit numbers. -/
@[irreducible] def fwd (n a b : Nat) : Nat := (b % 2 ^ n + 2 ^ n - a % 2 ^ n) % 2 ^ n

/-- A number without wrap whose low `n` bits are `w` and which lies nearest `near` (not below 0). -/
@[irreducible] def unwrap (n near w : Nat) : Nat :=
  let d := fwd n near w
  if d < 2 ^ (n - 1) then near + d else if 2 ^ n - d ≤ near then near + d - 2 ^ n else near + d

/-- A counter that saturates at `n` bits. -/
def satAdd (n a d : Nat) : Nat := min (a + d) (2 ^ n - 1)

/-- A signed number as an unsigned `n`-bit field. -/
def toField (n : Nat) (v : Int) : Nat := (v % (2 ^ n : Int)).toNat

/-- The signed number an `n`-bit field holds. -/
def signedOf (n v : Nat) : Int := if v < 2 ^ (n - 1) then (v : Int) else (v : Int) - (2 ^ n : Int)

/-- One step of the reflected CRC-32C register. -/
def crcBit (c : BitVec 32) : BitVec 32 :=
  if c.getLsbD 0 then (c >>> 1) ^^^ 0x82F63B78#32 else c >>> 1

/-- One byte of CRC-32C. -/
def crcByte (c : BitVec 32) (b : Byte) : BitVec 32 :=
  let x := c ^^^ b.setWidth 32
  crcBit (crcBit (crcBit (crcBit (crcBit (crcBit (crcBit (crcBit x)))))))

/-- CRC-32C (Castagnoli) of a byte string. -/
def crc32c (b : Bytes) : BitVec 32 := (b.foldl crcByte 0xFFFFFFFF#32) ^^^ 0xFFFFFFFF#32

/-- Apply `f` to element `i` of a list, unchanged where there is none. -/
def modAt {α : Type} (l : List α) (i : Nat) (f : α → α) : List α :=
  match l, i with
  | [], _ => []
  | a :: r, 0 => f a :: r
  | a :: r, i + 1 => a :: modAt r i f

/-- The sum of a list of numbers. -/
def sumBy {α : Type} (l : List α) (f : α → Nat) : Nat := l.foldl (fun n a => n + f a) 0

/-- The value a history gives at an admission position: the newest one set before it, or the oldest one there is
(R44, R76, R116); `d` for an empty history. -/
def histAt {α : Type} (d : α) : List (Nat × α) → Nat → α
  | [], _ => d
  | (p, v) :: r, pos => if p < pos || r.isEmpty then v else histAt d r pos

/-- The list without repeats, first occurrences kept. -/
def dedup {α : Type} [BEq α] : List α → List α
  | [] => []
  | a :: r => a :: (dedup r).filter (· != a)

/-- Insert a number into a rising list. -/
def insertNat (n : Nat) : List Nat → List Nat
  | [] => [n]
  | a :: r => if n ≤ a then n :: a :: r else a :: insertNat n r

/-- The numbers in rising order. -/
def sortNat (l : List Nat) : List Nat := l.foldr insertNat []

/-- Insert an item before the first that `lt` puts after it. -/
def insertBy {α : Type} (lt : α → α → Bool) (x : α) : List α → List α
  | [] => [x]
  | a :: r => if lt x a then x :: a :: r else a :: insertBy lt x r

/-- Items in the order `lt`, equal ones in their original order. -/
def sortBy {α : Type} (lt : α → α → Bool) (l : List α) : List α := l.reverse.foldl (fun acc x => insertBy (fun a b => !lt b a) x acc) []

/-- ASCII text as bytes. -/
def ascii (s : String) : Bytes := s.toList.map fun c => BitVec.ofNat 8 c.toNat

end Sys2Proof.Machine
end

