-- ==== Sys2Proof/Machine/Crypto.lean ====
section
/-! DEFINITION. The digests the spec names: SipHash-2-4 with a 128-bit key (05 R167), SHA-256, HMAC-SHA-256 (11 R361,
12 R399, 09 R297). -/

namespace Sys2Proof.Machine

/-- The four words of SipHash. -/
structure SipSt where
  v0 : BitVec 64
  v1 : BitVec 64
  v2 : BitVec 64
  v3 : BitVec 64
  deriving DecidableEq, Repr

/-- One SipRound. -/
def sipRound (s : SipSt) : SipSt :=
  let a := s.v0 + s.v1
  let b := (s.v1.rotateLeft 13) ^^^ a
  let a := a.rotateLeft 32
  let c := s.v2 + s.v3
  let d := (s.v3.rotateLeft 16) ^^^ c
  let a := a + d
  let d := (d.rotateLeft 21) ^^^ a
  let c := c + b
  let b := (b.rotateLeft 17) ^^^ c
  ⟨a, b, c.rotateLeft 32, d⟩

/-- Absorbing one 64-bit word. -/
def sipWord (s : SipSt) (m : BitVec 64) : SipSt :=
  let s := sipRound (sipRound { s with v3 := s.v3 ^^^ m })
  { s with v0 := s.v0 ^^^ m }

/-- The message words of SipHash: whole words, then the rest with the length in its top byte. -/
def sipWords (fuel len : Nat) (b : Bytes) : List (BitVec 64) :=
  match fuel with
  | 0 => []
  | f + 1 =>
    if b.length < 8 then [BitVec.ofNat 64 (unLe b + (len % 256) * 2 ^ 56)]
    else BitVec.ofNat 64 (unLe (b.take 8)) :: sipWords f len (b.drop 8)

/-- SipHash-2-4 of a byte string under a 128-bit key. -/
def sipHash (key : BitVec 128) (b : Bytes) : BitVec 64 :=
  let k0 := key.setWidth 64
  let k1 := (key >>> 64).setWidth 64
  let s : SipSt := ⟨k0 ^^^ 0x736f6d6570736575#64, k1 ^^^ 0x646f72616e646f6d#64,
    k0 ^^^ 0x6c7967656e657261#64, k1 ^^^ 0x7465646279746573#64⟩
  let s := (sipWords (b.length + 1) b.length b).foldl sipWord s
  let s := sipRound (sipRound (sipRound (sipRound { s with v2 := s.v2 ^^^ 0xFF#64 })))
  s.v0 ^^^ s.v1 ^^^ s.v2 ^^^ s.v3

/-- The round constants of SHA-256, eight of them in each 256-bit number, the first on top. -/
def shaRows : List Nat :=
  [0x428a2f9871374491b5c0fbcfe9b5dba53956c25b59f111f1923f82a4ab1c5ed5,
   0xd807aa9812835b01243185be550c7dc372be5d7480deb1fe9bdc06a7c19bf174,
   0xe49b69c1efbe47860fc19dc6240ca1cc2de92c6f4a7484aa5cb0a9dc76f988da,
   0x983e5152a831c66db00327c8bf597fc7c6e00bf3d5a7914706ca635114292967,
   0x27b70a852e1b21384d2c6dfc53380d13650a7354766a0abb81c2c92e92722c85,
   0xa2bfe8a1a81a664bc24b8b70c76c51a3d192e819d6990624f40e3585106aa070,
   0x19a4c1161e376c082748774c34b0bcb5391c0cb34ed8aa4a5b9cca4f682e6ff3,
   0x748f82ee78a5636f84c878148cc7020890befffaa4506cebbef9a3f7c67178f2]

/-- Round constant `i`. -/
def shaConst (i : Nat) : BitVec 32 := BitVec.ofNat 32 (shaRows.getD (i / 8) 0 >>> (32 * (7 - i % 8)))

/-- SHA-256 at work: two shift registers of four words, `a` on top of the first and `e` on top of the second, and the sixteen
message words that come next, the first on top. -/
structure ShaSt where
  front : BitVec 128
  back : BitVec 128
  msg : BitVec 512

/-- Word `i` of a register of `n` words, counted from the top. -/
def regWord {w : Nat} (n : Nat) (r : BitVec w) (i : Nat) : BitVec 32 := (r >>> (32 * (n - 1 - i))).setWidth 32

/-- A register one word on: `x` comes in on top. -/
def pushTop (r : BitVec 128) (x : BitVec 32) : BitVec 128 := (r >>> 32) ||| (x.setWidth 128 <<< 96)

/-- The exclusive or of a word turned right by each of some amounts. -/
def turned (x : BitVec 32) (by_ : List Nat) : BitVec 32 := by_.foldl (fun acc n => acc ^^^ x.rotateRight n) 0

/-- Round `i`: the registers move on by a word, and the message by the word its window gives sixteen places later. -/
def shaStep (s : ShaSt) (i : Nat) : ShaSt :=
  let p := regWord 4 s.front
  let q := regWord 4 s.back
  let m := regWord 16 s.msg
  let pick := q 2 ^^^ (q 0 &&& (q 1 ^^^ q 2))
  let most := (p 2 &&& (p 0 ||| p 1)) ||| (p 0 &&& p 1)
  let mix := turned (q 0) [6, 11, 25] + pick + q 3 + m 0 + shaConst i
  let later := m 0 + m 9 + (turned (m 1) [7, 18] ^^^ (m 1 >>> 3)) + (turned (m 14) [17, 19] ^^^ (m 14 >>> 10))
  { front := pushTop s.front (turned (p 0) [2, 13, 22] + most + mix)
    back := pushTop s.back (mix + p 3)
    msg := (s.msg <<< 32) ||| later.setWidth 512 }

/-- Word by word sum of two registers of four. -/
def addWords (x y : BitVec 128) : BitVec 128 :=
  [3, 2, 1, 0].foldl (fun r i => pushTop r (regWord 4 x i + regWord 4 y i)) 0

/-- The hash after one more 64-byte block. -/
def shaBlock (h : BitVec 128 × BitVec 128) (blk : Bytes) : BitVec 128 × BitVec 128 :=
  let r := (List.range 64).foldl shaStep ⟨h.1, h.2, BitVec.ofNat 512 (unBe blk)⟩
  (addWords h.1 r.front, addWords h.2 r.back)

/-- A byte string cut into blocks of `n`. -/
def chunks (n : Nat) : Nat → Bytes → List Bytes
  | 0, _ => []
  | fuel + 1, b => if b.isEmpty then [] else b.take n :: chunks n fuel (b.drop n)

/-- SHA-256 of a byte string. -/
def sha256 (b : Bytes) : Bytes :=
  let whole := b ++ fit (1 + (119 - b.length % 64) % 64) [0x80#8] ++ be 8 (8 * b.length)
  let h := (chunks 64 (whole.length + 1) whole).foldl shaBlock
    (0x6a09e667bb67ae853c6ef372a54ff53a#128, 0x510e527f9b05688c1f83d9ab5be0cd19#128)
  be 16 h.1.toNat ++ be 16 h.2.toNat

/-- HMAC-SHA-256. -/
def hmac (key msg : Bytes) : Bytes :=
  let k := fit 64 (if 64 < key.length then sha256 key else key)
  sha256 (k.map (· ^^^ 0x5c#8) ++ sha256 (k.map (· ^^^ 0x36#8) ++ msg))

end Sys2Proof.Machine
end

