-- ==== Sys2Proof/Machine/Cipher.lean ====
section
/-! DEFINITION. The ciphers the spec names: AES-256-XTS for what is stored (07 R244, 12 R394), AES key wrap for the key table (12 R394), and RSASSA-PSS with SHA-256, MGF1 with SHA-256
and a 32-byte salt over a 3,072-bit key (11 R361, 12 R392). The spec names these schemes and leaves their steps to their public standards: how a
scheme computes stands here as the standards have it (PRESUMED, log 80). -/

namespace Sys2Proof.Machine

/-- Bytewise exclusive or. -/
def xorBytes (a b : Bytes) : Bytes := a.zipWith (fun x y => x ^^^ y) b

-- AES-256.

/-- The 256 entries of the byte substitution, the entry of byte 0 on top. -/
def aesBox : Nat :=
  0x637c777bf26b6fc53001672bfed7ab76ca82c97dfa5947f0add4a2af9ca472c0b7fd9326363ff7cc34a5e5f171d8311504c723c31896059a071280e2eb27b27509832c1a1b6e5aa0523bd6b329e32f8453d100ed20fcb15b6acbbe394a4c58cfd0efaafb434d338545f9027f503c9fa851a3408f929d38f5bcb6da2110fff3d2cd0c13ec5f974417c4a77e3d645d197360814fdc222a908846eeb814de5e0bdbe0323a0a4906245cc2d3ac629195e479e7c8376d8dd54ea96c56f4ea657aae08ba78252e1ca6b4c6e8dd741f4bbd8b8a703eb5664803f60e613557b986c11d9ee1f8981169d98e949b1e87e9ce5528df8ca1890dbfe6426841992d0fb054bb16

/-- The substitution of one byte. -/
def aesSub (b : Byte) : Byte := BitVec.ofNat 8 (aesBox >>> (8 * (255 - b.toNat)))

/-- A byte times x in the field of AES. -/
def aesTwice (b : Byte) : Byte := (b <<< 1) ^^^ (if b.getLsbD 7 then 0x1B else 0)

/-- The 60 words of the round keys of a 256-bit key, each behind the eight before it. -/
def aesWords (key : Bytes) : List Bytes :=
  (List.range 52).foldl (fun w i =>
    let last := w.getD (i + 7) []
    let add := match i % 8 with
      | 0 => xorBytes ((last.drop 1 ++ last.take 1).map aesSub) [BitVec.ofNat 8 (2 ^ (i / 8)), 0, 0, 0]
      | 4 => last.map aesSub
      | _ => last
    w ++ [xorBytes (w.getD i []) add]) ((List.range 8).map fun i => slice key (4 * i) 4)

/-- The sixteen bytes after every row has turned by its number. -/
def aesTurn (b : Bytes) : Bytes := (List.range 16).map fun i => b.getD ((i + 4 * (i % 4)) % 16) 0

/-- One column mixed. -/
def aesColumn (b : Bytes) : Bytes :=
  let all := b.foldl (fun x y => x ^^^ y) 0
  (List.range 4).map fun i => b.getD i 0 ^^^ all ^^^ aesTwice (b.getD i 0 ^^^ b.getD ((i + 1) % 4) 0)

/-- One block under the round keys `w`. -/
def aesBlock (w : List Bytes) (block : Bytes) : Bytes :=
  let key := fun r => (List.range 4).flatMap fun i => w.getD (4 * r + i) []
  let st := (List.range 13).foldl (fun b r =>
    let t := aesTurn (b.map aesSub)
    xorBytes ((List.range 4).flatMap fun c => aesColumn (slice t (4 * c) 4)) (key (r + 1))) (xorBytes block (key 0))
  xorBytes (aesTurn (st.map aesSub)) (key 14)

/-- The tweak of the next block of a data unit. -/
def xtsNext (t : Bytes) : Bytes :=
  let n := 2 * unLe t
  le 16 (if n < 2 ^ 128 then n else (n - 2 ^ 128) ^^^ 0x87)

/-- The blocks of one data unit. -/
def xtsBlocks (w : List Bytes) : List Bytes → Bytes → Bytes
  | [], _ => []
  | b :: r, t => xorBytes (aesBlock w (xorBytes b t)) t ++ xtsBlocks w r (xtsNext t)

/-- One data unit, of whole blocks, under a 512-bit key. -/
def xtsUnit (key : Bytes) (unit : Nat) (body : Bytes) : Bytes :=
  xtsBlocks (aesWords (key.take 32)) (chunks 16 (body.length + 1) body) (aesBlock (aesWords (key.drop 32)) (le 16 unit))

/-- A body cut into data units of 4,096 bytes: the first takes `unit`, each later one the next number (R244). -/
def xtsBody (key : Bytes) (unit : Nat) (body : Bytes) : Bytes :=
  ((chunks 4096 (body.length + 1) body).zipIdx unit).flatMap fun x => xtsUnit key x.2 x.1

-- AES key wrap.

/-- Step `t` of the wrap: the integrity value with the key's next 8 bytes is encrypted; the half that holds the key's bytes goes to the end. -/
def wrapStep (w : List Bytes) (x : Bytes × List Bytes) (t : Nat) : Bytes × List Bytes :=
  match x.2 with
  | [] => x
  | r :: rest =>
    let b := aesBlock w (x.1 ++ r)
    (xorBytes (b.take 8) (be 8 t), rest ++ [b.drop 8])

/-- AES key wrap (NIST SP 800-38F KW; R394) of a key under a 256-bit key: 8 bytes longer than the key. -/
def keyWrap (kek key : Bytes) : Bytes :=
  let x := (List.range' 1 (6 * (key.length / 8))).foldl (wrapStep (aesWords kek)) (List.replicate 8 0xA6, chunks 8 (key.length + 1) key)
  x.1 ++ x.2.flatten

-- RSASSA-PSS.

/-- x to the power e modulo m, for an exponent of at most `bits` bits. -/
def powMod (m x e bits : Nat) : Nat :=
  (List.range bits).foldr (fun i acc =>
    let y := acc * acc % m
    if e.testBit i then y * x % m else y) (1 % m)

/-- The mask of MGF1 with SHA-256: `n` bytes from a seed. -/
def mgf1 (seed : Bytes) (n : Nat) : Bytes := ((List.range (ceilDiv n 32)).flatMap fun i => sha256 (seed ++ be 4 i)).take n

/-- The top bit of a byte string set to 0. -/
def clearTop (b : Bytes) : Bytes := match b with
  | x :: r => (x &&& 0x7F) :: r
  | [] => []

/-- The 384 bytes that a signature of a digest with a salt hides. -/
def pssEncode (digest salt : Bytes) : Bytes :=
  let h := sha256 (le 8 0 ++ digest ++ salt)
  clearTop (xorBytes (fit 318 [] ++ 1 :: salt) (mgf1 h 351)) ++ h ++ [0xBC]

/-- Whether `sig` is a signature of a digest under the public key (modulus, exponent). -/
def pssOk (key : Nat × Nat) (digest sig : Bytes) : Bool :=
  let em := be 384 (powMod key.1 (unBe sig) key.2 3072)
  let salt := (xorBytes (em.take 351) (mgf1 (slice em 351 32) 351)).drop 319
  sig.length == 384 && decide (unBe sig < key.1) && em == pssEncode digest salt

/-- The signature of a digest with a salt under the private key (modulus, exponent). -/
def pssSign (key : Nat × Nat) (digest salt : Bytes) : Bytes := be 384 (powMod key.1 (unBe (pssEncode digest salt)) key.2 3072)

end Sys2Proof.Machine
end

