-- ==== Sys2Proof/Machine/Types/Cmd.lean ====
section
/-! DEFINITION. Types of the command path: sources, entries, completions, commands in progress (01, 02, 03, 04).
The comment behind a field gives its width, the rule that names it and its value at reset. -/

namespace Sys2Proof.Machine

/-- A history of a setting that takes effect at an admission position: newest first (R44, R76, R116). -/
abbrev Hist (α : Type) := List (Nat × α)

/-- The sources of commands (R123). A session or queue pair is named by its unique number, so a reused session_id
never stands for its predecessor. -/
inductive Source where
  | skiff (uid : Nat)
  | ferry (uid : Nat)
  | mbx
  | mirror
  deriving DecidableEq, Repr

/-- The 64-byte submission entry, field by field (R81). -/
structure Entry where
  opcode : Nat := 0
  durability : Nat := 0
  rsv1 : Nat := 0
  tag : BitVec 16 := 0
  ks : Nat := 0
  keyLen : Nat := 0
  rsv6 : Nat := 0
  reqAddr : Nat := 0
  reqRkey : Nat := 0
  reqLen : Nat := 0
  respAddr : Nat := 0
  respRkey : Nat := 0
  respLen : Nat := 0
  args : Bytes := []
  deriving DecidableEq, Repr

/-- The 32-byte completion entry, less the phase bit and sq_head that the transport fills in (R85), with the response
payload that goes with it. -/
structure Completion where
  adm : Nat
  tag : BitVec 16
  status : BitVec 16
  def_ : Bool := false
  result0 : Nat := 0
  result1 : Nat := 0
  payload : Bytes := []
  sqHead : Nat := 0
  respAddr : Nat := 0
  respRkey : Nat := 0
  seq : Nat := 0              -- Skiff seq of the command (R128)
  early : Bool := false       -- its writing is the command's commit point, which is still to come (R90, R157)
  abort : Bool := false       -- the completion of an ABORT (R102)
  part : Option (Nat × Nat) := none    -- a non-final part: its assembly's record, and the value bytes before it (R55)
  deriving DecidableEq, Repr

/-- Where a command stands between its admission and its completion. -/
inductive CmdSt where
  | posted                       -- in its mailbox
  | waiting (since : Nat)        -- at check 9 of R75
  | filling                      -- cells or staging held; the value is being pulled (PUT step 4)
  | staged                       -- write-through: waiting for its map record (R191)
  | reading                      -- flash page reads in progress (R491)
  | checking                     -- header or spill pages are read for its full-key check (R172, R201)
  | durableWait                  -- effect made; waiting for its durability level (R66, R302)
  | flushing                     -- FLUSH waiting (R69)
  | deleting                     -- KS_DELETE waiting for earlier commands (R44)
  | sanitizing                   -- FORMAT or SANITIZE (R111)
  | activating                   -- UPD_ACTIVATE until step 5 ends (R376)
  | signWait (since : Nat)       -- ATTEST waiting for its signing tokens (R120)
  | signing                      -- ATTEST past its commit point (R392)
  | mirrorWait                   -- waiting for the peer
  | tableWait                    -- durable KS_SET_LIMIT: waiting for the configuration write (R67)
  deriving DecidableEq, Repr

/-- What an access of one key found (R92, R93, R98): status, value length, result1, the bytes to return. -/
structure Got where
  status : BitVec 16
  len : Nat := 0
  r1 : Nat := 0
  data : Bytes := []
  rec_ : Option Nat := none      -- the Landing record the bytes lie in
  staged : Option Nat := none    -- their offset in flash read staging, where they come from there and not from the DRAM value cache
  deriving DecidableEq, Repr

/-- A command from its admission to its completion (R22, R88). `adm` is the admission number without wrap; the field of
the completion is its value modulo 2^48 (R18). -/
structure Cmd where
  adm : Nat
  src : Source
  role : Nat := 0                -- 0 operator, 1 administrator
  chainFerry : Bool := false     -- opened with cred_kind 3 (R400)
  entry : Entry
  key : Bytes := []              -- key or first bound
  payload : Option Bytes := none -- none until a Ferry payload fetch has brought it (R155)
  maxResp : Nat := 0             -- largest response of the transport (R83)
  st : CmdSt := .posted
  home : Nat := 8                -- home CP 0-7, or 8 for the active SUP, 9 for ABORT (R23, R490)
  rec_ : Option Nat := none      -- Landing record or staging record
  committed : Bool := false      -- past its commit point (R90)
  res0 : Nat := 0                -- result0 of a write, from its visibility on (R91, R93, R100)
  res1 : Nat := 0                -- result1 of a write, from its visibility on
  gets : List Got := []          -- what GET, EXISTS or each MGET element found at its execution (R60)
  stamp : Nat := 0               -- Mirror stamp of an internal command (R307)
  lseq : Nat := 0                -- link sequence of an internal command (R305)
  refs : List Nat := []          -- Landing records it holds a read reference on (R186)
  inSan : Bool := false          -- admitted while FORMAT or SANITIZE was in progress (R88, R111)
  noFetch : Bool := false        -- refused before any transfer: its payload is never asked for (R155, R163)
  rowFlags : Nat := 0            -- UPD_ACTIVATE: 1 when the update session activated itself
  sqHead : Nat := 0              -- Ferry sq_head (R154)
  seq : Nat := 0                 -- Skiff seq (R135)
  deriving DecidableEq, Repr

/-- The command-count ledger of a source: admitted = completed + outstanding (R34, ledger 1). -/
structure CmdLedger where
  admitted : Nat := 0       -- 64 bits; 01 R34; reset 0
  completed : Nat := 0      -- 64 bits; 01 R34; reset 0
  outstanding : Nat := 0    -- 64 bits; 01 R34; reset 0
  deriving DecidableEq, Repr

/-- The transport-credit ledger of a source: granted = in_use + returned (R34, ledger 2; R139). -/
structure CreditLedger where
  granted : Nat := 0        -- 64 bits; 01 R34; reset 0
  inUse : Nat := 0          -- 64 bits; 01 R34; reset 0
  returned : Nat := 0       -- 64 bits; 01 R34; reset 0
  deriving DecidableEq, Repr

/-- An entry of a session's duplicate window (R138, R142). -/
structure DupEntry where
  seq : BitVec 32
  adm : Nat
  cpl : Option Completion := none
  evicted : Bool := false
  doneAt : Nat := 0                  -- when its completion was written: the age of its payload (R142)
  lastPend : Option Nat := none      -- when the last pending ACK for it was sent (R143)
  deriving DecidableEq, Repr

/-- The life of a Skiff session (R133, R144, R145). -/
inductive SessSt where
  | opened
  | closing                    -- CLOSE received
  | closeAcked (at_ : Nat)     -- CLOSE_ACK sent
  | expired                    -- expiry, or closed by a new HELLO
  deriving DecidableEq, Repr

/-- A Skiff session (R132-R145). -/
structure Session where
  uid : Nat
  sid : Nat                    -- 9 bits; 04 R128
  st : SessSt := .opened
  rx : Rx                      -- the binding of R134
  cookie : BitVec 32           -- 04 R128, R132
  nonce : BitVec 32
  role : Nat
  credKind : Nat
  reqWindow : Nat
  window0 : Nat                -- window granted by the first HELLO_ACK (R133)
  maxDgram : Nat
  initialSeq : BitVec 32
  nextExpected : BitVec 32     -- 04 R135
  hostAck : BitVec 32          -- 04 R135
  lastRx : Nat                 -- clock of the last valid datagram (R144)
  idleS : Nat := 120           -- SKIFF_IDLE of the idle period that runs (R146)
  cmds : CmdLedger := {}
  credits : CreditLedger := {}
  dup : List DupEntry := []    -- 04 R138
  defFlag : Bool := false      -- 02 R71
  since : Nat := 0             -- clock of the last change of state (R427)
  lastAdm : Option Nat := none -- 13 R427
  deriving DecidableEq, Repr

/-- A datagram in the hold pool (R137). -/
structure Held where
  uid : Nat
  seq : BitVec 32
  rx : Rx
  dg : Bytes
  since : Nat
  deriving DecidableEq, Repr

/-- An IP reassembly in progress (R127). -/
structure Reasm where
  port : Fin 2
  srcAddr : Bytes
  ident : Nat
  frags : List Fragment
  since : Nat
  deriving DecidableEq, Repr

/-- The life of a Ferry queue pair (R162). -/
inductive QpSt where
  | opened
  | ended (deliver : Bool)      -- ending: `deliver` while the connection still accepts writes
  | freed (at_ : Nat)           -- number free, not reused for 2 s
  deriving DecidableEq, Repr

/-- A Ferry queue pair (R147-R163). -/
structure Qp where
  uid : Nat
  qp : Nat                     -- 10 bits; 04 R149
  st : QpSt := .opened
  rx : Rx
  role : Nat
  credKind : Nat
  notifyMode : Nat             -- 2 bits; 04 R148
  sqEntries : Nat
  cqEntries : Nat
  sqAddr : Nat
  sqRkey : Nat
  cqRkey : Nat
  cqAddr : Nat
  reqCredits : Nat
  notifyCount : Nat
  notifyUs : Nat
  dbRkey : BitVec 32           -- 04 R149
  sqTail : Nat := 0            -- 16 bits; 04 R151
  cqHead : Nat := 0            -- 16 bits; 04 R151
  fetchPos : Nat := 0          -- 16 bits; 04 R154
  reads : List Nat := []       -- entries asked for by each RDMA Read that has not come back, oldest first (R154)
  cqTail : Nat := 0            -- 16 bits; 04 R157
  phase : Bool := true         -- 04 R157
  cplWait : List Completion := []   -- completions not yet written (R157)
  unNotified : Nat := 0        -- 04 R159
  oldestUn : Nat := 0          -- clock of the oldest un-notified entry (R159)
  retries : Nat := 0           -- 04 R147
  sentAt : Nat := 0            -- clock of the last operation sent or answered: the local ACK timer (R147)
  payReads : List Nat := []    -- commands whose payload reads are in flight, oldest first (R147, R155)
  rnr : Bool := false          -- a notification waits for a receive (R159)
  rateCuts : Nat := 0          -- CNPs received: how often the send rate was reduced (R147)
  posted : List Nat := []      -- commands whose completion is written and not yet behind cq_head, oldest first (R151, R163)
  fetched : List (List Bytes) := [] -- entries that came during a service reset, one list for each read, oldest first (R164)
  held : List (Nat × Bytes) := []   -- doorbells received during a service reset, oldest first (R164)
  haltSlot : Option Nat := none     -- 04 R162
  cmds : CmdLedger := {}
  credits : CreditLedger := {}
  defFlag : Bool := false
  since : Nat := 0
  lastAdm : Option Nat := none
  deriving DecidableEq, Repr

/-- An ended source, listable for 60 s (R427). -/
structure EndedSrc where
  kind : Nat
  number : Nat
  rx : Rx
  role : Nat
  cmds : CmdLedger
  credits : CreditLedger       -- with its window returned (R139, R144)
  posA : Nat
  posB : Nat
  lastAdm : Option Nat
  at_ : Nat
  deriving DecidableEq, Repr

/-- The six transport counters of the summary block (R426, byte 672). -/
structure TransportCounters where
  dgramDiscard : Nat := 0      -- 32 bits; 13 R426, 04 R130; reset 0
  reasmDiscard : Nat := 0      -- 32 bits; 13 R426, 04 R127; reset 0
  rejects : Nat := 0           -- 32 bits; 13 R426; reset 0
  holdDiscard : Nat := 0       -- 32 bits; 13 R426, 04 R137; reset 0
  doorbellIgnored : Nat := 0   -- 32 bits; 13 R426, 04 R152; reset 0
  resent : Nat := 0            -- 32 bits; 13 R426; reset 0
  deriving DecidableEq, Repr

/-- The transport engines (R20: Skiff engine, Ferry engine). -/
structure Transport where
  sessions : List Session := []        -- up to 512; 04 R125; reset none (04 R165)
  hold : List Held := []               -- up to 2,048; 04 R137; reset none
  reasm : List Reasm := []             -- up to 1,024; 04 R127; reset none
  qps : List Qp := []                  -- up to 1,024; 04 R125; reset none
  ended : List EndedSrc := []          -- up to 64; 13 R427; reset none
  counters : TransportCounters := {}
  mirrorCmds : CmdLedger := {}         -- the Mirror receiver's ledger (R305)
  mirrorCredits : CreditLedger := { granted := 256, inUse := 256 }   -- 09 R305; reset 256 taken permanently
  nextUid : Nat := 0                   -- the model's own counter; DESIGN CHOICE 0 [6]
  deriving DecidableEq, Repr

/-- The mailbox block (R459-R462, R467; R26). Mailboxes hold admission numbers of posted commands, oldest first. -/
structure Mailbox where
  cp : List (List Nat) := List.replicate 8 []    -- MBX0-MBX7; 15 R459; reset empty
  sup : List Nat := []                           -- MBX16 or MBX17, of the active SUP; 15 R459; reset empty
  moving : List (Nat × Nat) := []                -- commands held while their home CP drains, oldest first: the CP, the command; 01 R26; reset none
  admNext : Nat := 0                             -- 48 bits; 00 R18; reset 0
  mbxState : Nat := 0                            -- MBX31_STATUS.state, 2 bits; 15 R467; reset 0
  cancelled : Bool := false                      -- 1 bit; 15 R467; reset 0
  cancelLate : Bool := false                     -- 1 bit; 15 R467; reset 0
  tag : BitVec 16 := 0                           -- 16 bits; 15 R467; reset 0
  reqLen : BitVec 16 := 0                        -- MBX31_REQ_LEN; 15 R467; reset 0
  rspLen : BitVec 16 := 0                        -- MBX31_RSP_LEN; 15 R467; reset 0
  intStatus : BitVec 2 := 0                      -- MBX31_INT_STATUS; 15 R467; reset 0
  intEnable : BitVec 2 := 0                      -- MBX31_INT_ENABLE; 15 R467; reset 0
  reqBuf : List (Nat × BitVec 8) := []           -- 16 KiB request buffer; 15 R467; reset 0
  rspBuf : List (Nat × BitVec 8) := []           -- 16 KiB response buffer; 15 R467; reset 0
  cmds : CmdLedger := {}                         -- 15 R460; reset 0
  credits : CreditLedger := { granted := 1, inUse := 1 }    -- 15 R460; reset one credit taken permanently
  cancelPending : Bool := false                  -- a cancel found the command past its commit point; 15 R462; reset 0
  deriving DecidableEq, Repr

end Sys2Proof.Machine
end

