-- ==== Sys2Proof/Machine/Types/Store.lean ====
section
/-! DEFINITION. Types of the key-value model, the index, the Landing and the journal (02, 05). -/

namespace Sys2Proof.Machine

/-- A locator (R170). `landing` names a record by the model's record number with its first cell and cell count; `flash` by
segment and byte offset in the segment's data order (row, channel and offset follow from R241, R244). -/
inductive Loc where
  | landing (rec : Nat) (firstCell : Nat) (cells : Nat)
  | flash (seg : Nat) (off : Nat) (lenClass : Nat)
  | lost (index : Nat)
  deriving DecidableEq, Repr

/-- Where an index entry is held (R169, R176, R177, R201). -/
inductive Place where
  | bucket (b : Nat) (slot : Nat)
  | stash
  | spill
  deriving DecidableEq, Repr

/-- One index entry: its digest tag, where it is held, its first-choice bucket, and its locator (R169, R170). The alt bit of
the locator is 1 when the bucket is not the first choice. -/
structure IdxEntry where
  tag : BitVec 32
  b1 : Nat
  place : Place
  loc : Loc
  deriving DecidableEq, Repr

/-- The limits of a key space or of the module as one KS_SET_LIMIT left them (R42, R109). -/
structure Limits where
  capacity : Nat       -- 64 bits; 0 none
  keys : Nat           -- 32 bits; 0 none
  deriving DecidableEq, Repr

/-- One leaf of an ordered key space's tree (R180). -/
structure Leaf where
  key : Bytes
  len : Nat
  lost : Bool
  deriving DecidableEq, Repr

/-- The Mirror policy of a key space (R302). -/
inductive Policy where
  | off | async | sync
  deriving DecidableEq, Repr

/-- A key space (R42) with its accounting (R48, R178), its encryption key (R394, R396) and its Mirror side (R304, R324). -/
structure KeySpace where
  ks : Nat                          -- 0-63
  createdAt : Option Nat := none    -- admission position of the KS_CREATE in this boot epoch (R44)
  deletedAt : Option Nat := none    -- admission position of an accepted KS_DELETE (R44)
  ordered : Bool
  limits : Hist Limits              -- R42, R76
  limitsSaved : Limits := ⟨0, 0⟩    -- the limits in configuration data (R67)
  policy : Hist Policy              -- R42, R311
  durable : Hist Bool               -- default_durability (R42)
  bytes : Nat := 0                  -- value bytes charged (R48)
  keys : Nat := 0                   -- keys counted (R178)
  keysReserved : Nat := 0           -- counts reserved at PUT step 3 (R178)
  bytesReserved : Nat := 0          -- added bytes held by writes in progress (R75 check 8)
  tree : List Leaf := []            -- R180
  keyId : Nat                       -- which generated AES-256-XTS key (R394)
  tweak : Nat := 0                  -- 64 bits; R396
  tweakStored : Nat := 0            -- the value in configuration data (R396)
  hidden : Bool := false            -- created for a seed, not yet visible (R312)
  lagBytes : Nat := 67108864        -- R304 default 64 MiB
  lagMs : Nat := 2000               -- R304 default
  ksState : Nat := 0                -- R324
  refuseStatus : BitVec 16 := 0     -- R324
  syncDone : Nat := 0               -- R324
  syncTotal : Nat := 0              -- R324
  syncKeys : Nat := 0               -- keys sent or received in the current synchronisation (R325)
  syncSeen : List Bytes := []       -- keys a full resynchronisation delivered (R318)
  endApplied : Bool := false        -- the peer's SYNC_MARK end applied (R317)
  cfgLseq : Option Nat := none      -- KS_CFG sent and not yet applied at the peer; its seed follows (R312, R313)
  seedDue : Bool := false           -- its seed starts when the peer returns (R313, R320)
  seeding : Bool := false           -- target of a seed whose end has not been applied (R312)
  probeLseq : Option Nat := none    -- probe sent in the refused state (R306)
  deriving DecidableEq, Repr

/-- A discarded range that reclaim has not finished (R62-R64, R94, R179). -/
structure Range where
  id : Nat
  ks : Nat
  lo : Bytes
  hi : Bytes              -- empty: to the last key
  adm : Nat               -- admission position of the DISCARD_RANGE
  epoch : BitVec 16       -- its boot epoch
  deriving DecidableEq, Repr

/-- An entry of the lost table (R171). -/
structure LostEntry where
  index : Nat
  ks : Nat
  key : Bytes
  len : Nat
  adm : Nat
  epoch : BitVec 16
  deriving DecidableEq, Repr

/-- An entry of the deferred-error list (R73). -/
structure Deferred where
  ks : Nat
  key : Bytes
  reason : Nat
  resolved : Bool := false
  writerGone : Bool := false
  len : Nat
  adm : Nat
  entrySeq : Nat
  deriving DecidableEq, Repr

/-- An open multi-part assembly (R51-R56). -/
structure Assembly where
  id : Nat
  src : Source
  ks : Nat
  key : Bytes
  total : Nat
  got : Nat
  rec_ : Nat               -- the record that holds its cells or staging
  lastPart : Nat           -- clock of the last part (R55)
  openAdm : Nat
  deriving DecidableEq, Repr

/-- What a record in the Landing, in staging or on flash stores (R243 type). -/
inductive RecKind where
  | value | tombstone | range | internal
  deriving DecidableEq, Repr

/-- The states of a Landing record (R182). `free` records are not listed; a record whose charge is released and whose cells
read references still hold stands in `drained` (R186). -/
inductive LState where
  | reserved | filling | valid | visible | superseded | draining | drained
  deriving DecidableEq, Repr

/-- A record of the Landing, or, with `wt`, of the write-through staging area (R181, R182, R191). -/
structure LRec where
  id : Nat
  kind : RecKind
  ks : Nat
  key : Bytes
  upper : Bytes := []            -- upper bound of a range record
  adm : Nat                      -- admission number of the write
  epoch : BitVec 16
  len : Nat                      -- value length the cells were reserved for
  val : Bytes := []
  cells : List Nat := []         -- cell numbers held (R181)
  charged : Bool := false        -- holds hold-up charge (R182)
  staging : Nat := 0             -- bytes of write-through staging held (R191)
  wt : Bool := false
  st : LState := .reserved
  refs : Nat := 0                -- read references held on it (R186)
  superseded : Bool := false     -- R187
  waiters : List Nat := []       -- durable completions waiting (R187), by admission number
  visAt : Nat := 0               -- clock of its visibility (R188)
  visNo : Nat := 0               -- order of visibility (R188)
  place : Option (Nat × Nat) := none   -- segment and offset it is placed at (R244)
  job : Option Nat := none       -- program job in which it ends
  src : Source
  resBytes : Nat := 0            -- value bytes reserved against the limits until it is visible (R75 check 8)
  resKey : Bool := false         -- a key count reserved until it is visible (R178)
  stamp : Nat := 0               -- Mirror stamp (R307)
  fromPeer : Bool := false       -- received from the Mirror peer (R305)
  deriving DecidableEq, Repr

/-- A FLUSH that waits, with the writes it covers (R69). -/
structure FlushWait where
  adm : Nat
  covered : List Nat             -- admission numbers of covered writes not yet done
  acks : List Nat := []          -- covered writes of synchronous key spaces that lapplied has not passed (R302)
  deriving DecidableEq, Repr

/-- What the Landing controller owns (R20, R183-R192). -/
structure Landing where
  recs : List LRec := []             -- 05 R182; reset empty (05 R196)
  freeCells : Nat := 262144          -- 32 bits; 01 R35; reset every cell free
  inUse : Nat := 0                   -- 32 bits; 01 R35; reset 0
  cellTotal : Nat := 262144          -- 32 bits; 01 R35, 05 R200; reset 262,144
  admissible : Nat := 0              -- 32 bits; 05 R183; reset 0 (usable energy 0, R218)
  writeThrough : Bool := true        -- 05 R191; reset 1, the admissible count being 0
  stagingUsed : Nat := 0             -- bytes of the 64 MiB staging area; 05 R191; reset 0
  usable : Int := 0                  -- 64 bits, nJ; 01 R34; reset 0 (06 R218)
  resLanding : Int := 0              -- 64 bits, nJ; 01 R34; reset 0
  resShutdown : Int := 400000000     -- 64 bits, nJ; 01 R35; reset 400,000,000
  freeCharge : Int := -400000000     -- 64 bits, nJ; 01 R35; reset usable less the reserve
  nextRec : Nat := 0                 -- the model's own counter; DESIGN CHOICE 0 [6]
  nextVis : Nat := 0                 -- the model's own counter; DESIGN CHOICE 0 [6]
  deriving DecidableEq, Repr

/-- The key-value model's module-wide state (02). -/
structure Kv where
  spaces : List KeySpace                       -- 02 R42; reset key space 0, unordered (16 R489)
  committed : Hist Nat                         -- 64 bits; 02 R77; reset the user capacity
  maxCommitted : Nat                           -- 64 bits; 07 R277; reset the user capacity
  committedSaved : Nat := 0                    -- the committed capacity in configuration data; 02 R67; reset the user capacity
  tableAt : Option Nat := none                 -- clock of the oldest change of the key-space table not yet in configuration data; 02 R67; reset none
  tableWaits : List Nat := []                  -- durable KS_SET_LIMITs that wait for that write; 02 R67; reset none
  roReason : BitVec 4 := 0                     -- 02 R78; reset 0
  hold : Hist Bool := []                       -- administrative hold by admission position, newest first, since the last start-up; 02 R78, 03 R116; reset none
  ranges : List Range := []                    -- up to 1,024; 03 R94; reset none
  lost : List LostEntry := []                  -- up to 1,048,576; 05 R171; reset none
  lostOver : List LostEntry := []              -- keys marked lost beyond a full table, indexes from 1,048,576 on; 05 R171 [41]; reset none
  deferred : List Deferred := []               -- up to 256; 02 R73; reset none
  defOverflow : Nat := 0                       -- 32 bits; 02 R73; reset 0
  defSeq : Nat := 0                            -- 16 bits, entry_seq of the newest entry; 02 R73; reset 0
  assemblies : List Assembly := []             -- up to 4,096; 02 R56; reset none
  flushes : List FlushWait := []               -- 02 R69; reset none
  nextAsm : Nat := 0                           -- the model's own counter; DESIGN CHOICE 0 [6]
  hostWritten : Nat := 0                       -- 64 bits; 07 R279; DESIGN CHOICE 0 [5]
  deriving DecidableEq, Repr

/-- A node of an ordered key space's tree as it was last written: its level, its entries, and the place of its internal record once that is
programmed (R180, R250). -/
structure NodeAt where
  id : Nat
  ks : Nat
  level : Nat
  leaves : List Leaf
  place : Option (Nat × Nat) := none   -- segment and offset
  deriving DecidableEq, Repr

/-- Prism (R20, R166-R180, R199-R201). -/
structure Prism where
  entries : List IdxEntry := []        -- bucket table, stash and spill table; 05 R169; reset empty (shipped formatted, 16 R489)
  digestKey : BitVec 128 := 0          -- 05 R167; DESIGN CHOICE 0 [5]
  compact : Bool := false              -- compact index mode; 05 R199; reset 0
  keyLimit : Nat := 1073741824         -- module key limit; 00 R9, 05 R200; reset 2^30 on the PL7816-TA
  cacheBuckets : List Nat := []        -- on-die bucket cache, most recent first; 05 R174; reset empty
  valueCache : List (Nat × Nat) := []  -- value-cache entries by flash locator (segment, offset), most recent first; 05 R175; reset empty
  headerCache : List (Nat × Nat) := [] -- record headers cached, the same way; 05 R175; reset empty
  nodes : List NodeAt := []            -- ordered-index nodes written; 05 R180; reset none
  nodeCache : List (Nat × Nat) := []   -- written nodes in the ordered-index node cache, most recent first; 05 R166, R180; reset empty
  nextNode : Nat := 0                  -- the model's own counter; DESIGN CHOICE 0 [6]
  deriving DecidableEq, Repr

/-- Journal records (R193, R256). The header of R255 holds the jseq kept beside each. A record that names a key carries its digest, and
the key itself in an ordered key space; the digest stands for the key here, and the model keeps the key. -/
inductive JRec where
  | mapSet (ks : Nat) (key : Bytes) (loc : Loc) (len : Nat) (adm : Nat) (epoch : BitVec 16)
  | mapDead (ks : Nat) (loc : Loc)
  | mapDelete (ks : Nat) (key : Bytes) (adm : Nat)
  | mapMove (ks : Nat) (key : Bytes) (old new : Loc)
  | mapLost (ks : Nat) (key : Bytes) (index len adm : Nat) (epoch : BitVec 16)
  | mapReclaim (ks : Nat) (key : Bytes)
  | rangeDiscard (id ks : Nat) (lo hi : Bytes) (adm : Nat) (epoch : BitVec 16)
  | rangeDone (id ks : Nat)
  | ckptBegin (slice position : Nat)
  | ckptDone (slice dir : Nat) (stash : List (BitVec 32 × Loc)) (keys : List (Nat × Nat))
  | segOpen (seg : Nat) (stream : Nat) (pslc : Bool) (chans : BitVec 18)
  | segSeal (seg : Nat) (lastRow firstSummary : Nat) (short : Bool)
  | segCopyBegin (seg reason : Nat)
  | copyDone (seg moved dead : Nat)
  | eraseIntent (seg : Nat)
  | eraseDone (seg : Nat) (counts : List Nat)
  | blockRetire (ch pos slot block cause : Nat) (replacement : Option Nat)
  | dieRetire (ch pos : Nat)
  | channelRetire (ch : Nat)
  | jrnlClose (last : Nat)
  deriving DecidableEq, Repr

/-- What is done once a journal record is durable (R194, R195): Prism and the tables change after it and never before. -/
inductive JAct where
  | reclaim (ks adm : Nat) (key : Bytes) (loc : Loc) (del : Option Nat)    -- MAP_RECLAIM; a DELETE that answers ST_NOT_FOUND after it
  | lose (loc : Loc) (e : LostEntry) (reason : Nat) (src : Source)         -- MAP_LOST, with the deferred error's reason and writer
  | rangeDone (id : Nat)                                   -- RANGE_DONE
  | slice (k : Nat)                                        -- CKPT_DONE
  deriving DecidableEq, Repr

/-- A row of the index as a checkpoint slice or the replay holds it. -/
structure IdxRow where
  ks : Nat
  key : Bytes
  loc : Loc
  len : Nat
  adm : Nat
  epoch : BitVec 16
  deriving DecidableEq, Repr

/-- One complete checkpoint slice: its CKPT_BEGIN jseq and the rows of its sixteenth of the table (R195). -/
structure Slice where
  slice : Nat
  beginJseq : Nat
  rows : List IdxRow
  ranges : List Range
  stash : List (BitVec 32 × Loc) := []    -- stash image: tag and locator (R177, R193)
  keys : List (Nat × Nat) := []           -- key counts by key space (R193)
  deriving DecidableEq, Repr

/-- The journal and the checkpoints (R195, R254-R257). -/
structure Journal where
  jseqNext : Nat := 1                       -- 64 bits; 07 R255; DESIGN CHOICE 1 [5]
  page : List (Nat × JRec) := []            -- records not yet in a program unit: the page being filled and what follows it; 07 R254; reset none
  marks : List (Nat × Bool) := []           -- of each record in `page`, the clock at which it was written and whether it has a waiter; 07 R254; reset none
  flying : List (Nat × JRec) := []          -- records of the page being programmed; 07 R254; reset none
  torn : List (Nat × Fin 2) := []           -- durable records that one copy alone holds with a good CRC, and which; 07 R255; reset none
  log : List (Nat × JRec) := []             -- durable records since the oldest slice, oldest first; 07 R255, R257; reset none
  slices : List Slice := []                 -- latest complete copies; 05 R195; reset none
  writing : Option Slice := none            -- the slice being written; 05 R195; reset none
  acts : List (Nat × JAct) := []            -- what follows when records are durable, by jseq, in order; 05 R194; reset none
  sliceNext : Nat := 0                      -- next slice in turn; 05 R195; DESIGN CHOICE 0 [5]
  sealsSince : Nat := 0                     -- segments sealed since the last slice; 05 R195; reset 0
  bytesSince : Nat := 0                     -- journal bytes since the last slice began; 07 R257; reset 0
  closed : Bool := false                    -- JRNL_CLOSE written; 05 R193; reset 0
  pagesDurable : Nat := 0                   -- pages made durable since step 5 of an activation; 11 R379; reset 0
  deriving DecidableEq, Repr

end Sys2Proof.Machine
end

