-- ==== Sys2Proof/Machine/Types/Media.lean ====
section
/-! DEFINITION. Types of flash media management (07), of the DRAM (05 R166, 14 R443) and of the data mover (08). -/

namespace Sys2Proof.Machine

/-- A record on flash (R243, R244). `off` is the byte offset of its header in the segment's data order. -/
structure FRec where
  off : Nat
  span : Nat
  kind : RecKind
  ks : Nat
  key : Bytes
  upper : Bytes := []
  epoch : BitVec 16
  adm : Nat
  len : Nat
  val : Bytes
  digest : DWord
  tweak : Nat
  keyId : Nat
  src : Source
  deriving DecidableEq, Repr

/-- A record on its way into a program unit, and what becomes of it. -/
structure JobItem where
  rec_ : FRec                      -- the record as placed
  land : Option Nat := none        -- the Landing or staging record it came from
  old : Option Loc := none         -- relocation: the locator it is moved from (R261)
  jseq : Option Nat := none        -- its map record
  dropped : Bool := false          -- its key space is gone: no map record (R45)
  deriving DecidableEq, Repr

/-- The life of a segment that is not free (R251, R252, R261, R262). -/
inductive SegSt where
  | opened
  | full                           -- no further record fits; the summary rows remain to be programmed
  | sealed
  | copying (reason : Nat)         -- SEG_COPY_BEGIN journalled
  | copied                         -- COPY_DONE journalled
  | erasing                        -- ERASE_INTENT journalled
  deriving DecidableEq, Repr

/-- A segment that is not free (R240, R250). A segment number that is not listed is free. -/
structure Segment where
  seg : Nat                        -- 0-28,159 (0-14,079 on the 8 TB parts)
  st : SegSt := .opened
  stream : Nat                     -- 0 small, 1 large, 2 relocation (R250)
  pslc : Bool := false             -- R270
  chans : BitVec 18                -- channel set of its next rows (R256 SEG_OPEN)
  runs : List (Nat × Nat × BitVec 18) := []   -- where the set changed: first byte, first row and set of each stretch of rows, newest first (R241, R266)
  eraseAsked : Bool := false       -- ERASE_INTENT is durable, no read holds it, and its erases were requested (R262)
  next : Nat := 0                  -- bytes of record data placed, padding included
  prog : Nat := 0                  -- bytes in the program units started
  recs : List FRec := []           -- in record order
  tail : List JobItem := []        -- records placed that end beyond the units started
  sealedAt : Nat := 0              -- clock (R245)
  short : Bool := false            -- R252
  rebuild : Bool := false          -- R276
  refresh : Bool := false          -- R265
  pageReads : List (Nat × Nat) := []   -- page reads since the erase, by channel (R265)
  moved : Nat := 0                 -- records moved by the running copy (R256 COPY_DONE)
  deadFound : Nat := 0             -- records found dead by the running copy (R256 COPY_DONE)
  retireCh : List Nat := []        -- channels whose block is retired at the next erase (R266)
  bands : List (Nat × Nat) := []   -- temperature band of each program, in order: channel, band (R267)
  deriving DecidableEq, Repr

/-- What a program job writes. -/
inductive JobKind where
  | drain | writeThrough | relocation | summary
  deriving DecidableEq, Repr

/-- A program unit in flight: one wordline's rows on every live channel of one position (R247), with the records that end in it. -/
structure Job where
  id : Nat
  kind : JobKind
  stream : Nat
  seg : Nat
  pos : Nat
  pslc : Bool := false
  chans : List Nat                 -- channels whose program is still running
  all : List Nat                   -- channels of the unit
  failed : List Nat := []          -- channels whose program failed (R266)
  queued : Bool := false           -- its dies are still at an earlier unit; no tokens asked yet (R246, R250)
  more : Nat := 0                  -- further units of the same job (filler and summary rows)
  items : List JobItem := []
  journalled : Bool := false
  deriving DecidableEq, Repr

/-- Why a page read runs. -/
inductive ReadWhy where
  | cmd (adm : Nat)                -- GET, EXISTS or an MGET element
  | gc                             -- the relocation copy (R261)
  | summary                        -- the source's summary, read before the copy (R245, R261)
  | check (adm : Nat)              -- a full-key check of PUT, PUT_PART, DELETE or EXISTS: a record header, or a spill page (R172, R201)
  | mirror                         -- a value to send to the Mirror peer (R31, R211)
  | scrub                          -- a scrub sample page that did not decode (R268)
  | none_                          -- its command ended before it
  deriving DecidableEq, Repr

/-- A read of a flash record in progress (R264, R491). -/
structure ReadOp where
  id : Nat
  why : ReadWhy
  seg : Nat
  off : Nat
  ks : Nat
  key : Bytes
  elem : Nat := 0                  -- element of the command it serves
  pages : Nat                      -- page reads still to end
  plan : List Nat := []            -- a byte of each page to read, in record order (R491)
  issued : Nat := 0                -- of them, asked for and not ended
  done : Nat := 0                  -- page reads ended
  worst : Nat := 1                 -- highest ladder step taken so far
  lostRead : Bool := false         -- steps 1 to 4 failed on a page
  peerSince : Option Nat := none   -- REPAIR_REQ sent at this clock (R321)
  deriving DecidableEq, Repr

/-- A flash die (R239, R240). -/
structure Die where
  ch : Nat
  pos : Nat
  retired : Bool := false          -- 07 R276; reset 0
  rebuilt : Bool := false          -- 07 R276; reset 0
  resetTries : Nat := 0            -- 07 R266; reset 0
  spare : Nat := 104               -- spare blocks left; 07 R240 (104 or more at shipment); DESIGN CHOICE 104 [5]
  temp16 : Int := 0                -- 1/16 degC; 06 R238; DESIGN CHOICE 0 [5]
  credit : Nat := 0                -- scrub credit accrued, in 1/120,960,000; 07 R268; reset 1.5 (07 R269)
  suspends : Nat := 0              -- suspensions of the running operation; 07 R248; reset 0
  deriving DecidableEq, Repr

/-- A flash channel (R266, R276). -/
structure Channel where
  retired : Bool := false          -- 07 R276; reset 0
  rebuilt : Bool := false          -- 07 R276; reset 0
  retrains : Nat := 0              -- 07 R266; reset 0
  deriving DecidableEq, Repr

/-- The garbage-collection copy in progress (R261). -/
structure Copy where
  seg : Nat
  started : Bool := false          -- SEG_COPY_BEGIN is durable and the reads of the summary have been asked for
  listed : Bool := false           -- the source's summary has been read, and the reads of its live records asked for (R245)
  ready : List FRec := []          -- live records read, not yet placed
  deriving DecidableEq, Repr

/-- The flash sequencer (R20, 07). -/
structure Flash where
  segs : List Segment := []            -- segments that are not free; 07 R240; reset none (shipped formatted, 16 R489)
  erases : List (Nat × Nat) := []      -- erase counts of segments beyond eraseAll, unlisted 0; 07 R251, R253; reset none
  remap : List ((Nat × Nat × Nat) × Nat × Nat) := []    -- segment table: replaced slots (channel, position, slot), their block, and the segment's count then; 07 R240, R275; reset none
  metaBad : List (Nat × Nat × Nat) := []      -- metadata blocks out of use: channel, position, block; 07 R240, R253; reset none
  eraseAll : Nat := 0                  -- erases that FORMAT and SANITIZE gave every segment block; 07 R279, 12 R403; reset 0
  metaErases : Nat := 0                -- erases that FORMAT and SANITIZE gave metadata blocks, all together; 07 R279, 12 R403; DESIGN CHOICE 0 [5]
  dies : List Die                      -- 72 or 36; 07 R239; reset every die in service
  channels : List Channel := List.replicate 18 {}   -- FCH0-FCH17; 01 R19; reset every channel in service
  jobs : List Job := []                -- program units in flight; 07 R247; reset none
  reads : List ReadOp := []            -- reads in progress; 07 R264; reset none
  copy : Option Copy := none           -- 07 R261; reset none
  scrubMarks : List ((Nat × Nat × Nat) × Nat) := []   -- die credit at a block's last scrub (channel, position, slot); 07 R268; reset none
  badSlots : List (Nat × Nat × Nat) := []     -- slots without a good block (channel, position, slot); 07 R275; reset none
  refs : List ((Nat × Nat × Nat × Nat) × List Int) := []   -- replaced read-reference entries (channel, position, slot, band), 7 offsets; 07 R267; reset none
  pslc : Bool := false                 -- pSLC write mode; 07 R270; reset 0
  coolSince : Option Nat := none       -- clock since which T has stayed at or below 105 degC; 07 R271; reset none
  repacking : Bool := false            -- 07 R271; reset 0
  programmed : Nat := 0                -- flash bytes programmed; 64 bits; 07 R279; DESIGN CHOICE 0 [5]
  metaProg : Nat := 0                  -- of them, bytes programmed in the metadata region; 07 R279; DESIGN CHOICE 0 [5]
  nodeq : List FRec := []              -- ordered-index nodes to be written, as internal records; 05 R180, 07 R250; reset none
  wearSaid : Nat := 0                  -- last percent_used step reported; 07 R280; DESIGN CHOICE 0 [5]
  rebuildRun : Bool := false           -- 07 R276; reset 0
  gcSpace : Bool := false              -- garbage collection for space runs; 07 R259; reset 0
  nextJob : Nat := 0                   -- the model's own counter; DESIGN CHOICE 0 [6]
  nextRead : Nat := 0                  -- the model's own counter; DESIGN CHOICE 0 [6]
  deriving DecidableEq, Repr

/-- One DRAM channel (R166, R443). -/
structure DramCh where
  retired : Bool := false              -- 14 R442; reset 0
  banksRetired : Nat := 0              -- 14 R443; reset 0
  sparesUsed : List (Nat × Nat) := []  -- spare rows used, by bank; 14 R443; reset none
  rowErrors : List ((Nat × Nat) × Nat) := []   -- corrected errors: (bank, row), clock; 14 R442; reset none
  rowFails : List (Nat × Nat) := []    -- rows that failed: bank, clock; 14 R442; reset none
  retrains : Nat := 0                  -- 14 R442; reset 0
  deriving DecidableEq, Repr

/-- The stacked DRAM (R19, R166). -/
structure Dram where
  chans : List DramCh := List.replicate 4 {}   -- 4 or 2; 01 R19; reset every channel in service
  rowsSpared : Nat := 0                -- 13 R426 dram_state; reset 0
  mem : List (Nat × BitVec 8) := []    -- data DRAM bytes a descriptor can reach (R293); DESIGN CHOICE 0 [4]
  sram : List (Nat × BitVec 8) := []   -- CP SRAM, address [20:18] CP, [17:0] offset; 08 R284; DESIGN CHOICE 0 [4]
  deriving DecidableEq, Repr

/-- The state of a data-mover channel (R294 DMAn_STATUS). -/
inductive DmaSt where
  | idle | running | paused | halted
  deriving DecidableEq, Repr

/-- A descriptor, or a shadow set, field by field (R285, R294). -/
structure Desc where
  ctl : BitVec 32 := 0                 -- bytes 0-3: DMAn_SH_CTL; 08 R294; reset 0
  len : BitVec 32 := 0                 -- 08 R294; reset 0
  src : BitVec 64 := 0                 -- 08 R294; reset 0
  dst : BitVec 64 := 0                 -- 08 R294; reset 0
  idx : BitVec 64 := 0                 -- 08 R294; reset 0
  idxCount : BitVec 32 := 0            -- 08 R294; reset 0
  spaces : BitVec 32 := 0              -- [3:0] idx_space, [7:4] next_space, [31:16] desc_tag; 08 R294; reset 0
  next : BitVec 64 := 0                -- 08 R294; reset 0
  rkey : BitVec 32 := 0                -- 08 R294; reset 0
  qp : BitVec 32 := 0                  -- 08 R294; reset 0
  rsv : Bool := false                  -- a reserved byte of a fetched descriptor was non-zero (R285)
  deriving DecidableEq, Repr

/-- One data-mover channel (R281-R294). -/
structure DmaCh where
  st : DmaSt := .idle                  -- 2 bits; 08 R294; reset 0
  pause : Bool := false                -- DMAn_CTRL.pause; 08 R294; reset 0
  draining : Bool := false             -- 08 R294; reset 0
  stopping : Bool := false             -- a stop drains; 08 R291; reset 0
  active : Option Desc := none         -- the active set; 08 R291; reset none
  latch : Option Desc := none          -- the commit latch; 08 R291; reset none
  shadow : Desc := {}                  -- the shadow set; 08 R294; reset 0
  src : BitVec 64 := 0                 -- 08 R294; reset 0
  dst : BitVec 64 := 0                 -- 08 R294; reset 0
  remain : BitVec 32 := 0              -- 08 R294; reset 0
  idxPos : BitVec 32 := 0              -- 08 R294; reset 0
  elemOff : BitVec 32 := 0             -- 08 R294; reset 0
  done : BitVec 32 := 0                -- DMAn_DONE_COUNT; 08 R294; reset 0
  err : BitVec 4 := 0                  -- err_code; 08 R294; reset 0
  counted : Bool := false                 -- the active descriptor is complete and counted, its hand-over still due: paused, or its fetch failed (R289, R292); reset 0
  intStatus : BitVec 5 := 0            -- 08 R294; reset 0
  intEnable : BitVec 5 := 0            -- 08 R294; reset 0
  since : Nat := 0                     -- clock since which it waits for the read port; 08 R282; reset 0
  deriving DecidableEq, Repr

/-- A descriptor as a unit built it, with its index table (R285, R287). -/
structure MDesc where
  desc : Desc
  index : List Nat := []
  deriving DecidableEq, Repr

/-- A chain of descriptors promoted in service and not complete (R287). -/
structure MChain where
  ch : Nat                             -- channel
  adm : Nat                            -- the command it copies for
  descs : List MDesc
  deriving DecidableEq, Repr

/-- The data mover's channels in service, where their units build the descriptors (R281, R287). -/
structure Mover where
  busy : List MChain := []             -- chains not complete, oldest first; 08 R287; reset none
  last : List (Nat × List MDesc) := [] -- the last chain complete on each channel; 08 R287; reset none
  done : List Nat := List.replicate 16 0    -- descriptors complete, by channel; 08 R287, R294; reset 0
  deriving DecidableEq, Repr

/-- The data mover (R20, 08). -/
structure Dma where
  ch : List DmaCh := List.replicate 16 {}   -- DMA0-DMA15; 08 R281; reset idle
  winBase : BitVec 64 := 0                  -- DMA_WIN_BASE; 08 R294; reset 0
  turn : List Nat := [15, 15, 15, 15]       -- the channel served last in each group; 08 R282; reset 15
  deriving DecidableEq, Repr

end Sys2Proof.Machine
end

