-- ==== Sys2Proof/Machine/Types/Power.lean ====
section
/-! DEFINITION. Types of the power arbiter, the hold-up bank and the thermal monitor (06). -/

namespace Sys2Proof.Machine

/-- What a token grant is for (R211). -/
inductive Purpose where
  | program (job ch : Nat)
  | read (read : Nat)
  | erase (seg ch : Nat)
  | rebuild (read : Nat)       -- a page read of another die of the row, at step 4 of the ladder
  | image                      -- an update block's write into its slot
  | journal
  | checkpoint
  | measurement
  | signing (adm : Nat)
  | verifying                  -- an update image's RSA verification
  | scrub (ch pos slot : Nat)
  | sweep (range : Nat)        -- a reclaim sweep's summary reads
  | evrCopy                    -- an event-ring page
  | forward                    -- a chain-ferry forward's reads from the slot (11 R372)
  | table                      -- the key-space table's write to configuration data (02 R67)
  | keyTable                   -- the key table's write into the alternate blocks and the erase of the old ones (12 R397)
  | medium                     -- the erases and overwrite programs of FORMAT and SANITIZE (12 R403)
  | replay                     -- the page reads of start-up replay (06 R211)
  | unit_                      -- a TOKEN_REQUEST of a unit the table has no step for
  deriving DecidableEq, Repr

/-- A grant held (R209). `pool` marks tokens taken from the host-read pool (R212). -/
structure Grant where
  id : Nat
  cls : Nat
  n : Nat
  pool : Bool := false
  why : Purpose
  deriving DecidableEq, Repr

/-- A request that waits (R212). -/
structure TokReq where
  id : Nat
  cls : Nat
  n : Nat
  why : Purpose
  deriving DecidableEq, Repr

/-- The ledger registers of the PWR block as the last snapshot latched them (R235, R236). -/
structure PwrSnap where
  budget : Int := 0            -- 32 bits; 06 R235; reset 0
  granted : Int := 0           -- 32 bits; 06 R235; reset 0
  free : Int := 0              -- 32 bits; 06 R235; reset 0
  standing : Int := 0          -- 32 bits; 06 R235; reset 0
  cls : List (Nat × Nat) := [] -- PWR_CLS0-3: held, waiting; 06 R235; reset 0
  usable : Int := 0            -- 64 bits; 06 R235; reset 0
  landing : Int := 0           -- 64 bits; 06 R235; reset 0
  shut : Int := 0              -- 64 bits; 06 R235; reset 0
  huFree : Int := 0            -- 64 bits; 06 R235; reset 0
  deriving DecidableEq, Repr

/-- The power arbiter and the power states (R20, R202-R214, R230-R237). -/
structure Power where
  budget : Int := 1200                 -- 16 bits, tokens; 01 R36; reset the budget of class 3 in PS0 [7]
  granted : Int := 264                 -- 16 bits; 01 R34; reset the standing grants of start-up (06 R210)
  free : Int := 936                    -- 16 bits, signed; 01 R34; reset budget less granted
  standing : Int := 264                -- 16 bits; 06 R210; reset baseline 200, host-read pool 48, two ports at 8
  poolFree : Nat := 48                 -- host-read pool tokens free; 06 R210; reset 48
  grants : List Grant := []            -- 06 R209; reset none
  queue : List TokReq := []            -- requests that wait, oldest first; 06 R212; reset none
  nextGrant : Nat := 0                 -- the model's own counter; DESIGN CHOICE 0 [6]
  pads : BitVec 3 := 3                 -- filtered PWRCLS[2:0]; 06 R206; reset the pads: DESIGN CHOICE 3 [7]
  cls : Nat := 3                       -- class in force; 06 R206; reset from the pads
  vin10mV : Nat := 0                   -- PWR_VIN [15:0], averaged over 100 ms, 0 before the first evaluation; 06 R235; reset 0
  inMa : Nat := 0                      -- PWR_VIN [31:16]; 06 R235; reset 0
  pinMw : Nat := 0                     -- PWR_PIN [15:0]; 06 R235; reset 0
  pinPeakMw : Nat := 0                 -- PWR_PIN [31:16]; 06 R235; reset 0
  ilimitTokens : Nat := 0              -- PWR_ILIMIT.ilimit_tokens; 06 R207, R236; reset 0
  ilimitUsed : Nat := 0                -- the term at the last budget-change instant (R208); reset 0
  ilimitBinds : Bool := false          -- 06 R207; reset 0
  clamp : Bool := false                -- 06 R205; reset 0
  bci : BitVec 32 := 0                 -- PWR_BCI_COUNT; 06 R235; reset 0
  ps : Fin 5 := 0                      -- 06 R235; reset 0
  psTarget : Fin 5 := 0                -- 06 R235; reset 0
  psBusy : Bool := false               -- 06 R235; reset 0
  psRequest : Option (Fin 5) := none   -- PS_NOW request pending (R232); reset none
  psStays : Bool := false              -- the state was entered by PS_NOW and stays until a wake event (R232); reset 0
  idleSince : Option Nat := none       -- clock of the last instant the module became idle (R231); reset none
  snap : PwrSnap := {}
  intStatus : BitVec 7 := 0            -- 06 R237; reset 0
  intEnable : BitVec 7 := 0            -- 06 R237; reset 0
  deriving DecidableEq, Repr

/-- The states of the hold-up bank (R220). -/
inductive BankSt where
  | absent | charging | healthy | belowRating | faulty
  deriving DecidableEq, Repr

/-- The hold-up charger and the bank (R216-R225). -/
structure Holdup where
  st : BankSt := .charging             -- 3 bits; 06 R220, R235; reset 1
  charging : Bool := false             -- 06 R235; reset 0
  chargeGrant : Option Nat := none     -- the charger's standing grant (R210); reset none
  chargeAsked : Bool := false          -- the charger has asked for its grant in PS1-PS4 and waits for PS0; 06 R210; reset 0
  chargeSince : Nat := 0               -- clock at which charging started (R220); reset 0
  chargeFrom10mV : Nat := 0            -- HOLD when charging started (R218, R220); reset 0
  v10mV : Nat := 0                     -- HOLD_SNS; 06 R235; reset 0
  capUf : Nat := 0                     -- published capacitance; 06 R235; reset 0
  capAt : Nat := 0                     -- clock of that measurement; 06 R235; reset 0
  commissionUf : Nat := 0              -- 06 R221; reset 0
  commissionDue : Bool := true         -- the next measurement is the first after FORMAT (R221); reset 1 (shipped formatted)
  vPub10mV : Nat := 0                  -- HOLD at which the usable energy was published (R217); reset 0
  measuring : Bool := false            -- 06 R235; reset 0
  measureGrant : Option Nat := none    -- 06 R211; reset none
  measureAsked : Bool := false         -- a measurement is due or asked for and waits (R219); reset 0
  retryAt : Nat := 0                   -- clock of the next retry (R219, R220); reset 0
  retrying : Bool := false             -- a retry of a bank in state 0, 3 or 4 runs (R220); reset 0
  shortPending : Bool := false         -- EV_HOLDUP_SHORT to write at the next start-up (R224); reset 0
  shortJseq : Nat := 0                 -- jseq of the last durable journal record then; 13 R425; reset 0
  deriving DecidableEq, Repr

/-- The thermal monitor (R226-R229, R238). -/
structure Thermal where
  ctrl16 : Int := 0                    -- THM_CTRL_TEMP; 06 R238; reset 0
  flash16 : Int := 0                   -- THM_FLASH_TEMP.temp; 06 R238; reset 0
  hotDie : Nat := 0                    -- THM_FLASH_TEMP.die; 06 R238; reset 0
  t : Int := 0                         -- T in whole degC rounded up (R207, R226); DESIGN CHOICE 0 [5]
  dT : Int := 125                      -- the degree that set the current d (R208); reset 125 (d = 1.00)
  warnAt : BitVec 8 := 125             -- THM_WARN; 06 R238; reset 125
  warn : Bool := false                 -- 06 R238; reset 0
  writePause : Bool := false           -- 06 R228, R238; reset 0
  hotMs : Nat := 0                     -- ms above 125 degC; THM_HOT_MIN is its whole minutes; 06 R238; DESIGN CHOICE 0 [5]
  lastSample : Nat := 0                -- clock of the last sample; 06 R226; reset 0
  deriving DecidableEq, Repr

end Sys2Proof.Machine
end

