-- ==== Sys2Proof/Machine/Types/Port.lean ====
section
/-! DEFINITION. Types of the Ethernet ports, the time-aware gates, statistics and PTP (10). -/

namespace Sys2Proof.Machine

/-- An RDMA operation or connection message the Ferry engine sends (R147, R149, R154, R157, R159). -/
inductive RoceOp where
  | rep (priv : Bytes)                             -- REP private data (R149)
  | rej (status : BitVec 16)
  | disconnect (status : BitVec 16) (slot : Nat)
  | readEntries (slot count : Nat)                 -- RDMA Read of submission entries
  | readPayload (addr rkey len : Nat)              -- RDMA Read of a request payload
  | writePayload (addr rkey : Nat) (data : Bytes)  -- RDMA Write of a response payload
  | writeCompletion (addr : Nat) (data : Bytes) (imm : Option (BitVec 32))
  | immediate (imm : BitVec 32)                    -- zero-length RDMA Write with immediate
  | retransmit
  | nakInvalid                                     -- a request the module does not serve (R147)
  | cnp                                            -- congestion notification (R147)
  | nakAccess                                      -- remote access error (R152)
  deriving DecidableEq, Repr

/-- What a frame the module sends carries. Headers below it follow their own standards (R14). -/
inductive Msg where
  | skiff (toAddr : Bytes) (toUdp fromUdp : Nat) (dg : Bytes)
  | roce (qp : Nat) (op : RoceOp)
  | mirror (dg : Bytes)
  | skiffClient (toUdp : Nat) (dg : Bytes)         -- the chain-ferry forward (R371, R372)
  | echo (kind : EchoKind) (toAddr : Bytes) (len : Nat)
  | delayReq (pdelay : Bool) (seqId : BitVec 16)
  | pdelayResp (oneStep : Bool)
  | pdelayFollowUp                                 -- Pdelay_Resp_Follow_Up (R351)
  deriving DecidableEq, Repr

/-- A frame waiting in a transmit class, or one IP fragment of a datagram (R340, R141). -/
structure TxFrame where
  msg : Msg
  part : Nat := 0          -- 0 first
  parts : Nat := 1
  len : Nat                -- FCS included; of a waiting frame without its tag
  cells : Nat              -- ceil(len / 256)
  shared : Nat := 0        -- cells of them taken from the shared part
  pcp : Fin 8
  dscp : Nat := 0          -- R338
  tc : Nat := 0            -- its traffic class (R338)
  tag : Option (BitVec 12) := none    -- VID of the tag inserted when it is sent, with `pcp` (R337)
  stamp : Option Nat := none          -- the timestamp a one-step message carries, 2.5 ns units (R354)
  deriving DecidableEq, Repr

/-- A received frame that its engine has not consumed (R339, R342). -/
structure RxHeld where
  proto : RxProto
  tc : Nat                  -- its receive class (R338)
  cls : Option Nat          -- its lossless class, none if lossy
  shared : Nat
  headroom : Nat
  deriving DecidableEq, Repr

/-- One transmit traffic class (R340, R344, R345). -/
structure TxClass where
  queue : List TxFrame := []             -- 10 R340; reset empty
  free : Nat := 36                       -- guaranteed cells free; 10 R340; reset 36
  pausedUntil : Option Nat := none       -- clock at which the pause ends; 10 R344; reset none
  pausedSince : Nat := 0                 -- clock since which it is paused; 10 R345; reset 0
  breakUntil : Option Nat := none        -- a watchdog break; 10 R345; reset none
  deriving DecidableEq, Repr

/-- A gate control list with its timing (R346-R348). Entries are (gate_states word, interval word). -/
structure GateList where
  entries : List (Word × Word) := List.replicate 256 (0, 0)   -- 256 entries of 64 bits; 10 R346; reset 0
  cycle : BitVec 32 := 0                 -- 2.5 ns units; 10 R358; reset 0
  len : BitVec 9 := 0                    -- 10 R358; reset 0
  baseNs : BitVec 30 := 0                -- 10 R358; reset 0
  baseSec : BitVec 48 := 0               -- 10 R358; reset 0
  deriving DecidableEq, Repr

/-- What an LED shows (R330). -/
inductive Led where
  | dark | lit
  | blinking                             -- at 2 Hz, during training
  deriving DecidableEq, Repr

/-- One port: PHY, MAC, gates, statistics (R326-R358). -/
structure Port where
  present : Bool := true                 -- 00 R8; reset fused
  retired : Bool := false                -- 14 R444; reset 0
  resetFails : Nat := 0                  -- consecutive port resets whose PHY self-test failed; 14 R442; reset 0
  link : Bool := false                   -- 10 R358; reset 0
  rate : Fin 4 := 0                      -- 10 R358; reset 0
  training : Bool := false               -- 10 R358; reset 0
  eee : Bool := false                    -- 10 R358; reset 0
  txLpi : Bool := false                  -- 10 R358; reset 0
  stepped : Bool := false                -- 10 R358; reset 0
  txIdleSince : Nat := 0                 -- clock of the last transmission; 10 R328; reset 0
  trainFails : List (Nat × Nat) := []    -- consecutive training failures by rate; 10 R327; reset none
  dropped : BitVec 4 := 0                -- rates no longer advertised until the next link loss; 10 R327; reset 0
  partnerAdv : BitVec 4 := 0             -- 10 R333; reset 0
  ps4Nego : Bool := false                -- the renegotiation to 1000BASE-T of PS4's entry is under way; 06 R234; reset 0
  ledDarkAt : Option Nat := none         -- clock at which frame activity last darkened the lit LED; 10 R330; reset none
  phyGrant : Nat := 8                    -- PHY standing grant, tokens; 06 R210; reset 8 (no link)
  rx : List RxHeld := []                 -- received frames held; 10 R339; reset none
  rxFree : Nat := 768                    -- ledger 3; 01 R35; reset 768
  rxInUse : Nat := 0                     -- ledger 3; 01 R35; reset 0
  rxShared : Nat := 768                  -- free shared cells; 10 R342; reset 768
  rxHead : List Nat := []                -- free headroom by lossless class; 10 R342; reset none
  xoff : Bool := false                   -- XOFF in force; 10 R342, R358; reset 0
  xoffAt : Nat := 0                      -- clock of the last pause sent; 10 R343; reset 0
  cfgReject : Bool := false              -- 10 R358; reset 0
  tx : List TxClass := List.replicate 8 {}    -- TC0-TC7; 10 R340
  txFree : Nat := 384                    -- ledger 3; 01 R35; reset 384
  txInUse : Nat := 0                     -- ledger 3; 01 R35; reset 0
  txShared : Nat := 96                   -- free shared cells; 10 R340; reset 96
  txWait : List TxFrame := []            -- frames that wait for cells; 10 R340; reset none
  line : Option TxFrame := none          -- the frame in transmission; 10 R340; reset none
  lineUntil : Nat := 0                   -- clock, in 0.1 ns units, at which it ends; reset 0
  macCtl : Option PauseFrame := none     -- the MAC Control register; 10 R340; reset none
  -- time-aware gates
  tasEnable : Bool := false              -- 10 R358; reset 0
  tasRunning : Bool := false             -- 10 R358; reset 0
  tasPending : Bool := false             -- 10 R358; reset 0
  tasCfgError : Bool := false            -- 10 R358; reset 0
  tasEntry : Nat := 0                    -- 8 bits; 10 R358; reset 0
  gates : BitVec 8 := 0xFF               -- 10 R358; reset 0xFF
  gadmin : GateList := {}
  goper : GateList := {}
  swapAt : Nat := 0                      -- last or pending swap instant, 2.5 ns units of TAI; 10 R358; reset 0
  operAt : Nat := 0                      -- swap instant of the operational list, the same units; 10 R350; reset 0
  oversizeSaid : Bool := false           -- EV_TAS_OVERSIZE written since the last swap; 10 R349; reset 0
  -- step-down
  lastRate : Option (Fin 4) := none      -- rate of the last link; 10 R333; reset none
  lastChange : Option Nat := none        -- clock of the last rate change; 10 R333; reset none
  samples : List Nat := []               -- larger line rate of each of the last seconds, bit/s, newest first; 10 R332; reset none
  sampledAt : Option Nat := none         -- clock of the last sample; 10 R332; reset none
  starved : Nat := 0                     -- consecutive starved seconds; 10 R334; reset 0
  spends : List (Nat × Nat) := []        -- charged link-down times: (clock, ms); 10 R335; reset none
  nego : Option (Nat × Nat × Nat) := none      -- a renegotiation under way: old rate, cause, clock of the drop; 10 R335; reset none
  upSince : Option Nat := none           -- clock since which the port is linked; 10 R333; reset none
  capRate : Option Nat := none           -- highest rate advertised in a renegotiation that steps down; 10 R333; reset none
  -- statistics
  stats : List Nat := List.replicate 44 0      -- 44 counters of 32 bits; 10 R357; reset 0
  rxOctetRem : Nat := 0                  -- remainder of rx_octets64; 10 R357; reset 0
  txOctetRem : Nat := 0                  -- remainder of tx_octets64; 10 R357; reset 0
  snap : List Nat := List.replicate 44 0       -- snapshot bank; 10 R357; reset 0
  router6 : Option Bytes := none         -- default router of the last Router Advertisement; 04 R126; reset none
  half : BitVec 44 := 0                  -- MACn_STAT_HALF0, 1; 10 R358; reset 0
  halfEn : BitVec 44 := 0                -- MACn_STAT_HALF_EN0, 1; 10 R358; reset 0
  intStatus : BitVec 6 := 0              -- 10 R358; reset 0
  intEnable : BitVec 7 := 0              -- 10 R358; reset 0
  deriving DecidableEq, Repr

/-- The stored values of a port's registers (R358: "From configuration"). -/
structure PortCfg where
  phy : Word := 0x0014001F               -- MACn_PHY_CFG: adv 0xF, eee_en 1, lpi_us 20; 10 R358; reset from configuration
  maxFrame : BitVec 14 := 9216           -- 10 R358; reset 9,216
  vlan : BitVec 19 := 1                  -- MACn_VLAN: vid 1; 10 R358; reset from configuration
  pcpMap : BitVec 24 := 0xFAC681         -- 10 R358; reset 0x00FA_C681 (24 bits)
  fc : BitVec 19 := 0x6400C              -- MACn_FC_CFG: rx_honour, tx_gen, cable_m 100; 10 R358; reset from configuration
  step0 : BitVec 32 := 0x03842803        -- RATE_STEPDOWN value0: enable, need_other_up, low_pct 40, dwell_s 900; 10 R332
  step1 : BitVec 32 := 0x0050001E        -- RATE_STEPDOWN value1: budget_s 30, high_pct 80; 10 R332
  pauseWdog : BitVec 16 := 100           -- PAUSE_WDOG; 03 R117; reset 100
  ipv4 : DWord × DWord := (0, 0)         -- PORT_IPV4; 03 R117, 04 R126; reset none
  ipv6 : DWord × DWord := (0, 0)         -- PORT_IPV6; 03 R117, 04 R126; reset link-local only
  deriving DecidableEq, Repr

/-- An entry of a timestamp queue (R354). -/
inductive TsEntry where
  | stamp (msgType : BitVec 4) (domain : BitVec 8) (seqId : BitVec 16) (ns sec : Nat)
  | gap (msgType : BitVec 4) (domain : BitVec 8) (first last : BitVec 16) (count : Nat)
  deriving DecidableEq, Repr

/-- A timestamp queue (R354, R355). -/
structure TsQueue where
  entries : List TsEntry := []           -- up to 64; 10 R354; reset empty
  gap : Option TsEntry := none           -- the gap state; 10 R355; reset none
  lost : Nat := 0                        -- timestamps lost since power-on, 16 bits saturating; 10 R359; reset 0
  head : TsEntry × Bool := (.stamp 0 0 0 0 0, false)    -- the entry DATA0 popped last, for DATA1-3, and whether there is one; 10 R359; reset none
  deriving DecidableEq, Repr

/-- A time transmitter that a port hears: its last Announce, and when the last two came (R351). -/
structure Master where
  port : Fin 2
  sender : BitVec 80
  data : Announce
  logInterval : Int
  last : Nat
  prev : Option Nat
  deriving DecidableEq, Repr

/-- The PTP unit (R351-R356, R359). Times are TAI in units of 2.5 ns. -/
structure Ptp where
  cfg : BitVec 19 := 0x78003             -- PTP_CFG: source 3, one_step 1, ptp_tc 7; 10 R359; reset from configuration
  time : Nat := 0                        -- TAI, 2.5 ns units; 10 R352, R359; reset 0
  frac : Int := 0                        -- fraction of a unit, in 2^-8 ppb of 1 us steps; reset 0
  timeValid : Bool := false              -- 10 R359; reset 0
  locked : Bool := false                 -- 10 R359; reset 0
  holdover : Bool := false               -- 10 R359; reset 0
  port : Bool := false                   -- port in use; 10 R359; reset 0
  goodSamples : Nat := 0                 -- consecutive samples within 1 us; 10 R352; reset 0
  lastSample : Nat := 0                  -- clock of the last sample; 10 R352; reset 0
  freq : Int := 0                        -- the servo's frequency, 2^-8 ppb; 10 R352; reset 0
  setNs : BitVec 30 := 0                 -- PTP_SET_NS; 10 R359; reset 0
  setSec : BitVec 48 := 0                -- PTP_SET_SEC; 10 R359; reset 0
  adj : BitVec 32 := 0                   -- PTP_ADJ; 10 R359; reset 0
  offset : Int := 0                      -- PTP_OFFSET, ns; 10 R359; reset 0
  latchSec : BitVec 48 := 0              -- PTP_TIME_SEC as PTP_TIME_NS latched them; 10 R359; reset 0
  ppsCfg : BitVec 22 := 1000             -- PTP_PPS_CFG: width_us 1,000; 10 R359; reset from configuration
  ppsOffset : BitVec 30 := 0             -- PTP_PPS_OFFSET; 10 R359; reset from configuration
  ppsInNs : BitVec 30 := 0               -- last PPS_IN edge; 10 R359; reset 0
  ppsInSec : BitVec 48 := 0              -- last PPS_IN edge; 10 R359; reset 0
  ppsInLatch : BitVec 48 := 0            -- PTP_PPS_IN_SEC as PTP_PPS_IN_NS latched them; 10 R359; reset 0
  ppsOut : Bool := false                 -- PPS_OUT pad; 10 R356; reset low
  ppsRose : Nat := 0                     -- clock at which PPS_OUT rose; 10 R356; reset 0
  lat : List (BitVec 16) := [0, 0, 0, 0] -- PTP_LAT_P0_TX, P0_RX, P1_TX, P1_RX; 10 R359; reset from configuration
  intStatus : BitVec 4 := 0              -- 10 R359; reset 0
  intEnable : BitVec 4 := 0              -- 10 R359; reset 0
  q : List TsQueue := List.replicate 4 {}    -- four timestamp queues; 10 R354
  reqSeq : BitVec 16 := 0                -- sequenceId of the next Delay_Req or Pdelay_Req; DESIGN CHOICE 0 [5]
  lastReq : Nat := 0                     -- clock of the last Delay_Req or Pdelay_Req; 10 R351; reset 0
  masters : List Master := []            -- time transmitters heard; 10 R351; reset none
  logInterval : Int := 0                 -- message interval, log2 s, as the time transmitter sets it; DESIGN CHOICE 0 [5]
  deriving DecidableEq, Repr

end Sys2Proof.Machine
end

