-- ==== Sys2Proof/Machine/Types/Mirror.lean ====
section
/-! DEFINITION. Types of Mirror peer replication (09). -/

namespace Sys2Proof.Machine

/-- A stored pairing (R295, R296, R309). -/
structure Pairing where
  port : Fin 2
  alt : Option (Fin 2)
  addr : Bytes
  udp : Nat
  secret : Bytes
  rank : Nat
  deriving DecidableEq, Repr

/-- A Mirror message sent or to be sent, less the fields filled in at each sending (R298). -/
structure MSent where
  lseq : Nat                      -- without wrap; the field is its value modulo 2^32
  typ : Nat
  flags : Nat
  ks : Nat
  key : Bytes
  stamp : Nat
  body : Bytes
  adm : Nat := 0                  -- admission position of the write it carries
  bytes : Nat := 0                -- value bytes it carries (R304)
  at_ : Nat := 0                  -- clock of the write's visibility (R304)
  final : Bool := true            -- last message of its write
  live : Bool := true             -- a write of this module, not resync or seed
  deriving DecidableEq, Repr

/-- An entry of the change log (R314, R316). The entry's local digest stands for its key, which the module reads from the
record; the model keeps the key. -/
structure LogEntry where
  ks : Nat
  key : Bytes
  stamp : Nat
  unknown : Bool := false
  lseq : Option Nat := none       -- message that carries it in a resynchronisation (R317)
  deriving DecidableEq, Repr

/-- An assembly of the Mirror receiver (R305). -/
structure MAsm where
  ks : Nat
  key : Bytes
  total : Nat
  val : Bytes
  stamp : Nat
  deriving DecidableEq, Repr

/-- A received message that has not been applied (R300, R305). -/
structure MRecv where
  lseq : Nat
  typ : Nat
  msg : MirrorMsg
  adm : Option Nat := none        -- the internal command it became
  done : Option (BitVec 16) := none   -- status with which it was applied
  gathered : Bool := false        -- a part that stands in an assembly
  deriving DecidableEq, Repr

/-- What a seed or resynchronisation has still to send, in order: values are read when their turn comes (R312, R317, R318). -/
inductive MSync where
  | mark (ks : Nat) (begin_ : Bool) (kind : Nat)     -- SYNC_MARK; kind 0 seed or delta, 1 full
  | key (ks : Nat) (key : Bytes) (flags : Nat)       -- PUT of the value or DELETE
  | range (ks : Nat) (lo hi : Bytes)
  deriving DecidableEq, Repr

/-- Mirror (R295-R325). -/
structure Mirror where
  pairing : Option Pairing := none       -- 09 R295; reset none
  state : Nat := 0                       -- peer_state, 2 bits; 09 R323; reset 0
  stateAt : Nat := 0                     -- clock of its last change; 09 R323; reset 0
  portInUse : Option (Fin 2) := none     -- 09 R323; reset none
  linkLost : Option Nat := none          -- clock at which the port in use lost link; 09 R301; reset none
  peerPcp : Option (Fin 8) := none       -- PCP of the peer's HELLO; 10 R338; reset none
  helloSent : Option Nat := none         -- clock of the last HELLO sent; 09 R297; reset none
  nonce : Bytes := []                    -- 16 bytes; 09 R297; reset none
  authFailed : Bool := false             -- the peer's proof failed: nothing further is answered; 09 R297; reset 0
  peerSerial : Bytes := []               -- 24 bytes; 09 R297; reset none
  peerFw : Nat := 0                      -- 64 bits; 09 R323; reset 0
  lseqNext : Nat := 1                    -- 32 bits; 09 R298; DESIGN CHOICE 1 [6]
  sendq : List MSent := []               -- messages sent and not yet below the peer's lapplied, then messages to send; 09 R300; reset none
  covered : List MSent := []             -- the last messages below lapplied, for a REFUSE that comes late; the model's own; reset none
  resyncq : List MSync := []             -- what a seed or resynchronisation has still to send; 09 R312, R317, R318; reset none
  repairAsm : List MAsm := []            -- values a REPAIR_RSP is bringing; 09 R321; reset none
  staged : List (Nat × Nat) := []        -- segment and offset of flash values read for Mirror; 09 R303; reset none
  interrupted : Bool := false            -- a reset or power loss ended the link; 09 R316, R318; reset 0
  sentTo : Nat := 1                      -- first lseq not yet sent; 09 R300; DESIGN CHOICE 1 [6]
  lack : Nat := 1                        -- the peer's lack; 09 R298; DESIGN CHOICE 1 [6]
  lapplied : Nat := 1                    -- the peer's lapplied; 09 R298; DESIGN CHOICE 1 [6]
  lackAt : Nat := 0                      -- clock at which lack last advanced or a resend was made; 09 R300; reset 0
  resendMs : Nat := 1                    -- 09 R300; reset 1
  rxNext : Nat := 1                      -- lack to send; 09 R298; DESIGN CHOICE 1 [6]
  applied : Nat := 1                     -- lapplied to send; 09 R298; DESIGN CHOICE 1 [6]
  applyq : List MRecv := []              -- apply stage; 09 R300; reset none
  lastRx : Nat := 0                      -- clock of the last valid message; 09 R301; reset 0
  lastTx : Nat := 0                      -- clock of the last message sent; 09 R300; reset 0
  rttUs : Nat := 0                       -- 16 bits; 09 R323; reset 0
  stamp : Nat := 0                       -- stamp counter, 63 bits; 09 R307; reset 0
  stampStored : Nat := 0                 -- its value in configuration data; 09 R307; reset 0
  conflicts : Nat := 0                   -- 32 bits; 09 R323; reset 0
  log : List LogEntry := []              -- change log; 09 R314; reset none
  logRanges : List (Nat × Bytes × Bytes) := []   -- discarded ranges of the change log (at most 1,024); 09 R314; reset none
  logDeletes : List Nat := []            -- key-space deletions of the change log; 09 R314; reset none
  overflow : Bool := false               -- cl_overflow; 09 R323; reset 0
  fullKs : List Nat := []                -- key spaces marked for full resynchronisation; 09 R315; reset none
  mark : Option Nat := none              -- the Mirror mark (a jseq) in configuration data; 09 R316; reset none
  markAt : Nat := 0                      -- clock of its last store; 09 R316; reset 0
  asms : List MAsm := []                 -- up to 64; 09 R305; reset none
  probeAt : List (Nat × Nat) := []       -- key space, clock of the last probe; 09 R306; reset none
  removed : List (Nat × Nat) := []       -- key space, keys removed or replaced; 09 R318; reset none
  unpairAt : Option Nat := none          -- admission position of an UNPAIR whose CLOSE is not yet sent; 09 R311; reset none
  deriving DecidableEq, Repr

end Sys2Proof.Machine
end

