-- ==== Sys2Proof/Machine/Types/Update.lean ====
section
/-! DEFINITION. Types of firmware update (11), of security (12) and of the event recorder (13). -/

namespace Sys2Proof.Machine

/-- A source identity (R365). -/
structure UpdSrc where
  kind : Nat
  port : Nat
  number : Nat
  addr : Nat
  deriving DecidableEq, Repr

/-- A slot with its record and contents (R363). `state`: 0 empty, 1 receiving, 2 ready, 3 confirmed, 4 previous,
5 rejected, 6 bad. -/
structure Slot where
  state : Nat := 0
  version : Nat := 0
  hash : Bytes := []
  header : Bytes := []
  blocks : List (Nat × Bytes) := []
  deriving DecidableEq, Repr

/-- A partial block (R367). -/
structure PartialBlk where
  index : Nat
  owner : UpdSrc
  data : Bytes
  at_ : Nat
  deriving DecidableEq, Repr

/-- The forward of a session (R371, R372). -/
structure Fwd where
  state : Nat := 0               -- fwd_state; 11 R383; reset 0
  value0 : DWord := 0            -- CF_DOWNSTREAM as the session found it; 11 R371; reset 0
  value1 : DWord := 0            -- the same; 11 R371; reset 0
  header : Bytes := []           -- header of the image forwarded; 11 R372; reset none
  slot : Nat := 0                -- slot it is read from; 11 R372; reset 0
  sid : Nat := 0                 -- session_id of the client session; 04 R128, R132; reset 0
  cookie : BitVec 32 := 0        -- its cookie; 04 R128, R132; reset 0
  seq : BitVec 32 := 0           -- seq of its next CMD; 04 R135; reset 0
  flight : List (BitVec 32 × Option Nat) := []   -- its commands not yet answered, oldest first: the first seq of the offer (none) or of a block's chunks; 04 R135; reset none
  held : List Nat := []          -- blocks the downstream holds; 11 R383 fwd_held; reset none
  sent : List Nat := []          -- blocks sent; 11 R372; reset none
  status : BitVec 16 := 0        -- 11 R383; reset 0
  since : Nat := 0               -- powered time of the last success; 11 R372; reset 0
  lastTry : Nat := 0             -- clock of the last session opened; 11 R372; reset 0
  deriving DecidableEq, Repr

/-- The session as an UPD_OFFER of a queue pair found it: an offer whose response payload is not taken has no effect (R84). -/
structure OfferUndo where
  adm : Nat                      -- the offer
  src : UpdSrc                   -- its source
  opened : Bool                  -- it opened a session; else it joined one
  state : Nat
  result : Nat
  sources : List UpdSrc
  header : Bytes
  held : List Nat
  partials : List PartialBlk
  slot : Slot                    -- the target slot
  badSigLast : Bool
  autoUsed : Bool
  fwd : Fwd
  deriving DecidableEq, Repr

/-- The update session and the slots (R363-R384). -/
structure Update where
  state : Nat := 0                       -- 11 R364; reset 0
  step : Nat := 0                        -- 11 R383; reset 0
  result : Nat := 0                      -- last_result; 11 R383; reset 0
  sources : List UpdSrc := []            -- first source first; 11 R365; reset none
  header : Bytes := []                   -- 4,608 bytes; 11 R360; reset none
  held : List Nat := []                  -- bitmap of blocks held; 11 R364; reset none
  partials : List PartialBlk := []       -- 11 R367; reset none
  slotA : Slot                           -- 11 R363; reset the shipped image, confirmed
  slotB : Slot := {}                     -- 11 R363; reset empty
  slotR : Slot                           -- recovery slot; 11 R363; reset the recovery image
  active : Nat := 0                      -- 0 A, 1 B, 2 recovery; 11 R363; reset 0
  confirmed : Nat := 0                   -- 0 A, 1 B; 11 R363; reset 0
  badSigLast : Bool := false             -- the last session ended in bad signature and no offer has been accepted since; 11 R370; reset 0
  autoUsed : Bool := false               -- only UPD_ACTIVATE activates the session's image; 11 R373; reset 0
  autoDone : List Bytes := []            -- header hashes of the images that have activated themselves; 11 R373; reset none
  undo : Option OfferUndo := none        -- the session as the last UPD_OFFER of a queue pair found it; 03 R84; reset none
  waitAct : List Nat := []               -- UPD_ACTIVATEs waiting for verification; 11 R370; reset none
  actAdm : Option Nat := none            -- the UPD_ACTIVATE in progress; 11 R376; reset none
  rollback : Bool := false               -- the steps run a hitless fallback; 11 R381; reset 0
  reload : Bool := false                 -- the standby SUP reloads after step 5; 11 R376; reset 0
  confirmAt : Nat := 0                   -- clock of the end of step 5; 11 R379; reset 0
  cfgVer : Nat := 1                      -- configuration-data version in force; 11 R377; DESIGN CHOICE 1 [1]
  preCfg : Option Nat := none            -- version of the pre-migration copy; 11 R377; reset none
  idleS : Nat := 0                       -- clock of the last command of the session (powered time); 11 R368; reset 0
  fwd : Fwd := {}
  linkedBefore : List Nat := []          -- ports linked before step 1; 11 R379; reset none
  mirrorBefore : Bool := false           -- 11 R379; reset 0
  cpDone : BitVec 8 := 0                 -- CPs that have completed a command since step 5; 11 R379; reset 0
  verifyAt : Nat := 0                    -- clock at which verifying was entered; 11 R369; reset 0
  faultSeen : Bool := false              -- a ledger fault, mismatch or watchdog since step 5; 11 R379; reset 0
  testOk : Bool := false                 -- selftest_ok; 11 R383; reset 0
  fromRecovery : Bool := false           -- the activation began in the recovery image; 12 R388; reset 0
  deriving DecidableEq, Repr

/-- Failed credential checks of one address (R402). -/
structure AuthTrack where
  addr : Bytes
  fails : List Nat := []
  refuseFrom : Option Nat := none
  deriving DecidableEq, Repr

/-- FORMAT or SANITIZE (R403-R408). -/
structure Sanitize where
  mode : Nat := 0                  -- 4 bits; 12 R408; reset 0
  state : Nat := 0                 -- 4 bits; 12 R408; reset 0
  ordered : Bool := false          -- attribute of the new key space 0; 12 R403; reset 0
  adm : Option Nat := none         -- admission number of the command, none once a reset has lost it; 12 R407; reset none
  stage : Nat := 0                 -- 0 waits of R405, 1 running; 12 R405; reset 0
  elapsedNs : Nat := 0             -- accumulated before `runFrom`; 12 R408; reset 0
  runFrom : Option Nat := none     -- clock since which elapsed counts; 12 R408; reset none
  deriving DecidableEq, Repr

/-- A measurement entry (R391). -/
structure Meas where
  valid : Bool := false
  version : Nat := 0
  digest : Bytes := List.replicate 32 0
  deriving DecidableEq, Repr

/-- The crypto engine and the security section (R385-R402). -/
structure Security where
  secret : Option Bytes := none          -- commissioning secret S, 256 bits; 12 R394; reset none (shipped uncommissioned)
  salt : Nat := 0                        -- media salt, named by its generation count; 12 R391, R394; DESIGN CHOICE 0 [5]
  keyNext : Nat := 1                     -- next key drawn, the model's own counter; DESIGN CHOICE 1 [6]
  metaKey : Nat := 0                     -- metadata key; 12 R394; DESIGN CHOICE 0 [5]
  keyTable : List (Nat × Nat) := []      -- wrapped keys of the key table on flash, by key slot: 0-63 key spaces, 64 metadata, 65 digest; 12 R394, R397; reset key space 0's, the metadata and the digest key
  keyBlock : Bool := false               -- which of its two blocks holds the key table; 12 R397; DESIGN CHOICE 0 [5]
  track : List AuthTrack := []           -- up to 256; 12 R402; reset none
  meas : List Meas := List.replicate 8 {}     -- 12 R391; reset not valid
  attestCount : Nat := 0                 -- 64 bits; 12 R392; DESIGN CHOICE 0 [5]
  attestQ : List Nat := []               -- ATTESTs waiting to sign, by admission number; 12 R393; reset none
  signGrant : Option Nat := none         -- grant of the quote being signed; 12 R393; reset none
  quote : Bytes := []                    -- bytes 0-479 latched at the signing step; 12 R392; reset none
  san : Sanitize := {}
  deriving DecidableEq, Repr

/-- An event record (R410). -/
structure EvRec where
  seq : Nat
  code : Nat
  sev : Nat
  folded : Bool := false
  holdover : Bool := false
  src : Nat
  rep : Nat := 1
  up : Nat
  wall : Nat
  p0 : Word
  p1 : Word
  deriving DecidableEq, Repr

/-- The event recorder and the Lens window (R410-R424, R429). -/
structure Recorder where
  ring : List EvRec := []          -- on-die ring, oldest first, up to 2,048; 13 R415; reset empty
  flash : List EvRec := []         -- flash ring, oldest first, up to 262,144; 13 R416; reset empty
  next : Nat := 1                  -- number of the next record, 64 bits; 13 R412; DESIGN CHOICE 1 [5]
  copied : Nat := 1                -- every record below it is copied to flash; 13 R416; DESIGN CHOICE 1 [5]
  openRec : Bool := false          -- the last record started is open; 13 R413; reset 0
  uncopiedAt : Option Nat := none  -- clock at which the oldest uncopied record started; 13 R416; reset none
  finalPage : Bool := true         -- the last flash page is the final page of its epoch; 13 R417; DESIGN CHOICE 1 (shipped after a clean shutdown) [5]
  on : Bool := false               -- the recorder runs: EV_BOOT of this epoch is written; 13 R417; reset 0
  early : List (Nat × Nat × Nat × Nat × Nat) := []   -- code, severity, source, p0, p1 of what happened before EV_BOOT; 13 R417; reset none
  banks : Nat := 32                -- 6 bits; 13 R429; reset 32
  ondieOk : Bool := true           -- 13 R429; reset 1
  flashOk : Bool := true           -- 13 R429; reset 1
  oneCopy : Bool := false          -- 13 R429; reset 0
  dropped : BitVec 32 := 0         -- AON dropped-event counter; 13 R429; reset 0
  cursorLo : Word := 0             -- EVR_CURSOR_LO as last written; 13 R421; reset the oldest held
  cursor : Nat := 1                -- EVR_CURSOR, 64 bits; 13 R422; reset the oldest held number
  window : List (Option EvRec) := List.replicate 128 none   -- Lens window slots; 13 R420; reset 0
  ready : Bool := false            -- window_ready; 13 R429; reset 0
  filling : Bool := false          -- a fill runs; 13 R420; reset 0
  cursorLost : Bool := false       -- 13 R429; reset 0
  skipped : BitVec 32 := 0         -- EVR_SKIPPED; 13 R429; reset 0
  alertSev : BitVec 2 := 3         -- EVR_ALERT_SEV; 13 R429; reset 3
  newestHi : Word := 0             -- latched high word; 13 R429; reset 0
  oldestHi : Word := 0             -- latched high word; 13 R429; reset 0
  intStatus : BitVec 4 := 0        -- 13 R429; reset 0
  intEnable : BitVec 4 := 0        -- 13 R429; reset 0
  deriving DecidableEq, Repr

end Sys2Proof.Machine
end

