-- ==== Sys2Proof/Machine/Types/Life.lean ====
section
/-! DEFINITION. Types of the AON island, resets and start-up (14), of the side-band (15), and the stored configuration. -/

namespace Sys2Proof.Machine

/-- The three parts (R1). -/
inductive Part where
  | ta16 | ta08 | sb08
  deriving DecidableEq, Repr

/-- A full reset that waits for its close, or is latched during a close or hold-up sequence (R431, R441). -/
structure FullReset where
  cause : Nat                      -- R432
  maint : Bool := false            -- GLB_RESET.maint
  slot : Option Nat := none        -- the slot an update restart names
  deriving DecidableEq, Repr

/-- A service reset in progress (R434). -/
structure SvcReset where
  cause : Nat
  since : Nat
  compact : Bool := false          -- a compact index change (R199)
  ledger : Option LedgerId := none
  deriving DecidableEq, Repr

/-- A supervisor (R32, R435). -/
structure Sup where
  retired : Bool := false          -- 14 R435; reset 0
  image : Nat := 0                 -- slot whose image it runs; 11 R376; reset 0
  fails : List Nat := []           -- clocks of its failures within 24 h; 14 R435; reset none
  deriving DecidableEq, Repr

/-- The AON island and the start-up sequencer (R19, R202, R430-R443, R450, R466, R468). -/
structure Life where
  phase : Nat := 1                     -- GLB_STATUS.phase, 4 bits; 15 R466; reset 1 (the start instant)
  mainOn : Bool := true                -- 15 R466; reset 1 from the start instant
  cause : Nat := 1                     -- GLB_RESET_CAUSE, 4 bits; 15 R466; reset 1
  counts : List Nat := [1, 0, 0, 0, 0, 0, 0, 0, 0, 0, 0, 0]   -- GLB_RCOUNT0-2, 8 bits each; 15 R466; reset the power-on counted
  bootEpoch : BitVec 16 := 1           -- 07 R243; DESIGN CHOICE 1 [5]
  clock : Nat := 0                     -- powered time, ns; the model's own; DESIGN CHOICE 0 [2]
  epochAt : Nat := 0                   -- clock of the start of the boot epoch (R410); reset 0
  straps : BitVec 4 := 0               -- GLB_STRAPS; 15 R466; DESIGN CHOICE 0 [7]
  pads : BitVec 4 := 0                 -- STRAP[3:0] pads; 16 R486; DESIGN CHOICE 0 [7]
  maint : Bool := false                -- maintenance mode; 15 R464; reset 0
  recovery : Bool := false             -- the recovery image runs; 12 R388; reset 0
  bootSlot : Nat := 0                  -- slot started at boot: 0 A, 1 B, 2 recovery; 12 R391; reset 0
  startSlot : Option Nat := none       -- the slot an update restart names; 14 R430; reset none
  phaseEnded : Bool := false           -- the last phase of this start-up has ended; the service instant follows (R436); reset 0
  aonOn : Bool := true                 -- the AON island runs (R224); reset 1
  closing : Option FullReset := none   -- a close runs; 14 R431; reset none
  closeAt : Nat := 0                   -- clock at which the close or the hold-up sequence began; 14 R431; reset 0
  holdup : Bool := false               -- the hold-up sequence runs; 06 R222; reset 0
  vinPresent : Bool := true            -- VIN feeds the AON island: no under-voltage trip since it passed the restart threshold; 06 R202, R229; reset 1
  huThermal : Bool := false            -- its trip was thermal; 06 R229; reset 0
  huEnded : Bool := false              -- it ended at step 6 or 7 (JRNL_CLOSE written); 06 R224; reset 0
  resetLow : Bool := false             -- RESET# held low beyond the close; 14 R431; reset 0
  latched : Option FullReset := none   -- a reset latched during a close or hold-up sequence; 14 R441; reset none
  svc : Option SvcReset := none        -- 14 R434; reset none
  svcPort : BitVec 2 := 0              -- ports reset while a service reset runs; 14 R441; reset 0
  wdog : List Nat := []                -- clocks of CP and engine watchdogs within 1 h; 14 R435; reset none
  lastLedger : Option (LedgerId × Nat) := none   -- the last ledger fault and the end of its reset; 14 R435; reset none
  ledgerFaults : Nat := 0              -- 32 bits; 13 R426; reset 0
  supActive : Fin 2 := 0               -- 0 SUP-A, 1 SUP-B; 01 R20; DESIGN CHOICE 0 [5]
  sups : List Sup := [{}, {}]
  thermalOff : Bool := false           -- off after a thermal trip while T is above 125 degC; 06 R229; reset 0
  refOk : Bool := true                 -- CLK_STATUS.refclk_ok; 15 R468; reset 0, 1 once REFCLK is found: DESIGN CHOICE 1 at the start instant [7]
  lockOk : Bool := false               -- CLK_STATUS.sys_lock and net_lock; 15 R468; reset 0
  refLost : Bool := false              -- CLK_STATUS.ref_lost; 15 R468; reset 0
  lossCount : Nat := 0                 -- CLK_LOSS_COUNT, saturating, 32 bits; 15 R468; reset 0
  measSel : Word := 0                  -- CLK_MEAS_SEL; 15 R468; reset 0
  measAt : Option Nat := none          -- clock at which a frequency measurement started; 15 R468; reset none
  measKhz : Nat := 0                   -- CLK_MEAS_KHZ[30:0]; 15 R468; reset 0
  measValid : Bool := false            -- CLK_MEAS_KHZ[31]; 15 R468; reset 0
  scratch : Word := 0                  -- GLB_SCRATCH; 15 R466; reset 0
  i2cAddr : BitVec 7 := 0x52           -- GLB_SB_CFG.i2c_addr; 15 R466; reset 0x52 + STRAP[1:0]
  i2cEn : Bool := true                 -- GLB_SB_CFG.i2c_en; 15 R466; reset 1
  spiEn : Bool := true                 -- GLB_SB_CFG.spi_en; 15 R466; reset 1
  sbLock : Bool := false               -- GLB_SB_CFG.lock; 15 R466; reset 0
  intStatus : BitVec 5 := 0            -- GLB_INT_STATUS; 15 R466; reset 0
  intEnable : BitVec 5 := 0            -- GLB_INT_ENABLE; 15 R466; reset 0
  deriving DecidableEq, Repr

/-- The side-band targets and the posted-write buffer (R454-R458). -/
structure SideBand where
  fifo : List (Nat × Word) := []       -- posted writes, up to 16 words; 15 R455; reset empty
  dropSeen : Bool := false             -- a write dropped since the last status read; 15 R456; reset 0
  status : BitVec 8 := 0               -- last status byte sent; 15 R456; DESIGN CHOICE 0 [5]
  data : List Word := []               -- data words of the last read; 15 R456, R458; reset none
  spiBusy : Bool := false              -- an SPI frame is open; 15 R452, R456; reset 0
  i2cBusy : Bool := false              -- an I2C transaction is open; 15 R458; reset 0
  sdaDriven : Bool := false            -- SB_SDA driven by the target; 15 R458; reset 0
  deriving DecidableEq, Repr

/-- What stands in configuration data beside the structures above: the features of R117. -/
structure Stored where
  psCap : Nat := 4                     -- PS_CAP; 03 R117; reset 4
  psIdle : List Nat := [50, 2000, 60000, 0]    -- PS_IDLE, ms; 03 R117; reset 50, 2,000, 60,000, 0
  powerClass : Nat := 3                -- POWER_CLASS; 03 R117; reset 3
  ilimit : Nat := 6000                 -- INPUT_ILIMIT, mA; 03 R117; reset 6,000
  roHold : Bool := false               -- RO_HOLD; 03 R117; reset 0
  skiffPort : Nat := 47180             -- SKIFF_UDP_PORT; 03 R117; reset 47,180
  skiffIdle : Nat := 120               -- SKIFF_IDLE, s; 03 R117; reset 120
  cf0 : DWord := 0                     -- CF_DOWNSTREAM value0; 03 R117; reset none
  cf1 : DWord := 0                     -- CF_DOWNSTREAM value1; 03 R117; reset none
  ports : List PortCfg := [{}, {}]
  deriving DecidableEq, Repr

/-- What is fused or written at manufacture (R5, R113, R385, R389). -/
structure Ident where
  serial : Bytes := List.replicate 24 0x20     -- 24 bytes; 03 R113; DESIGN CHOICE spaces [1]
  mac0 : BitVec 48 := 0                        -- 03 R113; DESIGN CHOICE 0 [1]
  mac1 : BitVec 48 := 0                        -- 03 R113; DESIGN CHOICE 0 [1]
  stepping : BitVec 8 := 0                     -- GLB_ID[31:24]; 15 R466; DESIGN CHOICE 0 [1]
  fwRecovery : Nat := 0x0000000000000003       -- fw_recovery, major 3; 03 R113; DESIGN CHOICE 3.0.0 [1]
  deriving DecidableEq, Repr

end Sys2Proof.Machine
end

