-- ==== Sys2Proof/Machine/State.lean ====
section
/-! DEFINITION. The whole state of the module as plain data, its reset, and the two ways a command can stop. -/

namespace Sys2Proof.Machine

/-- Faults. `outOfModel` stands for a stop of the machine itself; no meaning raises it, for the block answers everything
that goes wrong with a status, an event or a reset (safe). -/
inductive Fault where
  | outOfModel
  deriving DecidableEq, Repr

/-- Refusals. `notModelled` would be raised by an arm of exec for a command that has no meaning yet; every command has one
(safe). -/
inductive Refusal where
  | notModelled (mnemonic : String)
  deriving DecidableEq, Repr

/-- The state of the module. -/
structure State where
  part : Part                    -- which of the three parts this is; 00 R1; DESIGN CHOICE PL7816-TA [1]
  ident : Ident := {}
  stored : Stored := {}
  life : Life := {}
  sb : SideBand := {}
  mbx : Mailbox := {}
  tr : Transport := {}
  cmds : List Cmd := []          -- commands admitted and not completed, oldest first; 01 R34 (outstanding); reset none
  kv : Kv
  land : Landing := {}
  prism : Prism := {}
  jrn : Journal := {}
  flash : Flash
  dram : Dram := {}
  dma : Dma := {}
  mover : Mover := {}
  pwr : Power := {}
  hold : Holdup := {}
  thm : Thermal := {}
  mir : Mirror := {}
  ports : List Port              -- P0, P1; 10 R326
  ptp : Ptp := {}
  upd : Update
  sec : Security := {}
  evr : Recorder := {}
  freeCtr : Nat := 0             -- counter of free values, the model's own field; DESIGN CHOICE 0 [9]
  pending : List Instr := []     -- commands waiting, first in, first out; the model's own field; reset empty
  deriving DecidableEq, Repr

/-- The flash dies of a part: `perCh` positions on each of 18 channels (R3, R239). -/
def State.diesOf (perCh : Nat) : List Die :=
  (List.range 18).flatMap fun c => (List.range perCh).map fun p => { ch := c, pos := p, credit := 181440000 }

/-- A part at the start instant of its first power-on, as shipped: uncommissioned and formatted, with key space 0 unordered
(16 R489), slot A confirmed, no pairing. The 8 TB parts have half the dies, DRAM channels, keys and bytes (R1, R3, R9);
PL7808-SB has no P1 and no Mirror receiver (R8, R123). -/
def State.resetOf (p : Part) : State :=
  let big := decide (p = .ta16)
  let ta := decide (p ≠ .sb08)
  let bytes := if big then 16000000000000 else 8000000000000
  let standing : Int := if ta then 264 else 256
  { part := p
    tr := { mirrorCredits := if ta then { granted := 256, inUse := 256 } else {} }
    kv := { spaces := [{ ks := 0, ordered := false, limits := [(0, ⟨0, 0⟩)], policy := [(0, .off)], durable := [(0, false)],
                         keyId := 0 }]
            committed := [(0, bytes)]
            committedSaved := bytes
            maxCommitted := bytes }
    prism := { keyLimit := if big then 2 ^ 30 else 2 ^ 29 }
    flash := { dies := State.diesOf (if big then 4 else 2) }
    dram := { chans := List.replicate (if big then 4 else 2) {} }
    pwr := { granted := standing, free := 1200 - standing, standing := standing }
    ports := [{}, if ta then {} else { present := false, phyGrant := 0 }]
    sec := { keyTable := [(0, 0), (64, 0), (65, 0)] }
    upd := { slotA := { state := 3, version := 0x0000000400020003, hash := Config.shippedHash 0 },
             slotR := { state := 3, version := 3, hash := Config.shippedHash 2 } } }

/-- The machine at the start instant of its first power-on: the part PL7816-TA (log 1). -/
def State.reset : State := State.resetOf .ta16

end Sys2Proof.Machine
end

