-- ==== Sys2Proof/Machine/Ops.lean ====
section
/-! DEFINITION. The named operations everything else is built from: byte memory, the clock, free values, the constants of
the part, and the event recorder's one operation, starting a record (13 R410-R415). -/

namespace Sys2Proof.Machine

-- Byte memory (the side-band buffers, data DRAM, CP SRAM): a canonical list of cells; an unlisted byte reads 0.

/-- Whether a memory is in canonical form: addresses strictly rising, no byte that an unlisted address reads as. -/
def memWf : List Host.Cell → Bool
  | [] => true
  | [c] => c.2 != 0
  | c :: d :: r => decide (c.1 < d.1) && c.2 != 0 && memWf (d :: r)

/-- The byte at an address; 0 where nothing is listed. -/
def readCell : List Host.Cell → Nat → Byte
  | [], _ => 0
  | (a, b) :: r, x => if a = x then b else readCell r x

/-- Write one byte, keeping the canonical form. -/
def writeCell : List Host.Cell → Nat → Byte → List Host.Cell
  | [], x, v => if v = 0 then [] else [(x, v)]
  | (a, b) :: r, x, v =>
    if x < a then (if v = 0 then (a, b) :: r else (x, v) :: (a, b) :: r)
    else if x = a then (if v = 0 then r else (x, v) :: r)
    else (a, b) :: writeCell r x v

/-- Write bytes from an address on. -/
def writeCells (m : List Host.Cell) (x : Nat) : Bytes → List Host.Cell
  | [] => m
  | v :: r => writeCells (writeCell m x v) (x + 1) r

/-- `n` bytes from an address on. -/
def readCells (m : List Host.Cell) (x n : Nat) : Bytes := (List.range n).map fun i => readCell m (x + i)

-- The clock and the free values.

/-- Powered time, ns. -/
def State.now (s : State) : Nat := s.life.clock

/-- ns since the start of the boot epoch (R410). -/
def State.uptime (s : State) : Nat := s.life.clock - s.life.epochAt

/-- One millisecond in ns. -/
def ms : Nat := 1000000

/-- One second in ns. -/
def oneSec : Nat := 1000000000

/-- The present free value. -/
def State.freeVal (s : State) : Nat := Config.free s.freeCtr

/-- The next free value is another. -/
def State.freeNext (s : State) : State := { s with freeCtr := s.freeCtr + 1 }

/-- So many free values have been taken. -/
def State.freeSkip (s : State) (n : Nat) : State := { s with freeCtr := s.freeCtr + n }

/-- TAI in ns, 0 while time_valid is 0 (R410). -/
def State.wallNs (s : State) : Nat := if s.ptp.timeValid then s.ptp.time * 5 / 2 else 0

-- Constants of the part (R1, R5, R9, R113, R239, R240).

/-- Whether Ferry, Mirror and P1 are present (R5). -/
def Part.ta : Part → Bool
  | .ta16 | .ta08 => true
  | .sb08 => false

/-- cap_units (R3, R5). -/
def Part.capUnits : Part → Nat
  | .ta16 | .ta08 => 0xFF
  | .sb08 => 0xF8

/-- cap_population (R4, R5). -/
def Part.capPop : Part → Nat
  | .ta16 => 0x1E201204
  | .ta08 | .sb08 => 0x1D101202

/-- Dies per channel. -/
def Part.perCh : Part → Nat
  | .ta16 => 4
  | .ta08 | .sb08 => 2

/-- User capacity in bytes. -/
def Part.userCap : Part → Nat
  | .ta16 => 16000000000000
  | .ta08 | .sb08 => 8000000000000

/-- Segments (R240). -/
def Part.segments (p : Part) : Nat := 7040 * p.perCh

/-- The module key limit in normal mode (R1). -/
def Part.maxKeys : Part → Nat
  | .ta16 => 2 ^ 30
  | .ta08 | .sb08 => 2 ^ 29

/-- Index bits of the bucket table in normal mode (R166). -/
def Part.idxBits : Part → Nat
  | .ta16 => 28
  | .ta08 | .sb08 => 27

/-- DRAM channels (R19). -/
def Part.dramCh : Part → Nat
  | .ta16 => 4
  | .ta08 | .sb08 => 2

/-- The part number in IDENT (R113). -/
def Part.name : Part → Bytes
  | .ta16 => ascii "PL7816-TA"
  | .ta08 => ascii "PL7808-TA"
  | .sb08 => ascii "PL7808-SB"

-- Event codes and severities (R425).

/-- An event code with its severity. -/
abbrev EvCode := Nat × Nat

def evBoot : EvCode := (0x0101, 0)
def evLedgerFault : EvCode := (0x0102, 3)
def evReadOnly : EvCode := (0x0103, 2)
def evLogCleared : EvCode := (0x0104, 1)
def evTimeStep : EvCode := (0x0105, 1)
def evEvrMemFault : EvCode := (0x0106, 3)
def evServiceReset : EvCode := (0x0107, 2)
def evWatchdog : EvCode := (0x0108, 2)
def evSupFailover : EvCode := (0x0109, 2)
def evSupRetire : EvCode := (0x010A, 3)
def evMediaRepaired : EvCode := (0x0201, 1)
def evMediaLost : EvCode := (0x0202, 3)
def evIndexStashFull : EvCode := (0x0203, 2)
def evLandingSize : EvCode := (0x0204, 1)
def evLandingMode : EvCode := (0x0205, 2)
def evIndexCompact : EvCode := (0x0206, 3)
def evDramCorrected : EvCode := (0x0207, 0)
def evDramRowSpare : EvCode := (0x0208, 1)
def evDramBankRetire : EvCode := (0x0209, 2)
def evDramRetrain : EvCode := (0x020A, 1)
def evVinHigh : EvCode := (0x0301, 2)
def evIlimitClamp : EvCode := (0x0302, 2)
def evPwrclsInvalid : EvCode := (0x0303, 2)
def evBudgetChange : EvCode := (0x0304, 0)
def evHoldupMeasure : EvCode := (0x0305, 0)
def evHoldupState : EvCode := (0x0306, 2)
def evHoldupAged : EvCode := (0x0307, 2)
def evHoldupTrip : EvCode := (0x0308, 1)
def evHoldupShort : EvCode := (0x0309, 3)
def evThermal : EvCode := (0x030A, 2)
def evHoldupBudget : EvCode := (0x030B, 0)
def evProgramFail : EvCode := (0x0401, 2)
def evDieReset : EvCode := (0x0402, 1)
def evBlockRetire : EvCode := (0x0403, 1)
def evDieRetire : EvCode := (0x0404, 3)
def evChannelRetire : EvCode := (0x0405, 3)
def evRebuild : EvCode := (0x0406, 1)
def evCapacityMax : EvCode := (0x0407, 2)
def evPslcMode : EvCode := (0x0408, 1)
def evWearLevel : EvCode := (0x0409, 2)
def evReadRecovered : EvCode := (0x040A, 0)
def evChannelRetrain : EvCode := (0x040B, 1)
def evDmaError : EvCode := (0x0501, 3)
def evMirrorState : EvCode := (0x0601, 2)
def evMirrorAuth : EvCode := (0x0602, 3)
def evMirrorConflict : EvCode := (0x0603, 1)
def evMirrorRefused : EvCode := (0x0604, 2)
def evMirrorOverflow : EvCode := (0x0605, 2)
def evMirrorSync : EvCode := (0x0606, 0)
def evMirrorDiverged : EvCode := (0x0607, 2)
def evPortDownshift : EvCode := (0x0701, 2)
def evRateChange : EvCode := (0x0702, 1)
def evPauseWdog : EvCode := (0x0703, 2)
def evTasSwap : EvCode := (0x0704, 0)
def evTasOversize : EvCode := (0x0705, 2)
def evLink : EvCode := (0x0706, 1)
def evLpi : EvCode := (0x0707, 0)
def evPortRetrain : EvCode := (0x0708, 1)
def evPortRetire : EvCode := (0x0709, 3)
def evUpdOffer : EvCode := (0x0801, 0)
def evUpdBlockBad : EvCode := (0x0802, 2)
def evUpdVerified : EvCode := (0x0803, 0)
def evUpdBadSig : EvCode := (0x0804, 3)
def evUpdStep : EvCode := (0x0805, 0)
def evUpdConfirm : EvCode := (0x0806, 1)
def evUpdFallback : EvCode := (0x0807, 2)
def evUpdEnd : EvCode := (0x0808, 1)
def evCfForward : EvCode := (0x0809, 0)
def evCfgMigrate : EvCode := (0x080A, 1)
def evBootSlot : EvCode := (0x0901, 3)
def evCommissioned : EvCode := (0x0902, 1)
def evAuthFail : EvCode := (0x0903, 2)
def evSanitize : EvCode := (0x0904, 1)

-- Source unit codes (R411).

def uAon : Nat := 0
def uSup : Nat := 1
def uSkiff : Nat := 10
def uFerry : Nat := 11
def uMbx : Nat := 12
def uPrism : Nat := 13
def uLanding : Nat := 14
def uDma : Nat := 15
def uFlash : Nat := 16
def uCrypto : Nat := 17
def uMac (p : Fin 2) : Nat := 18 + p.val
def uPtp : Nat := 20
def uPower : Nat := 21
def uThermal : Nat := 22
def uEvr : Nat := 23
def uUpdate : Nat := 24
def uMirror : Nat := 25

/-- The oldest record number held in either ring; the next number where none is held (R420). -/
def Recorder.oldest (r : Recorder) : Nat :=
  match r.flash, r.ring with
  | f :: _, _ => f.seq
  | [], g :: _ => g.seq
  | [], [] => r.next

/-- The records the first store can hold: 64 in each bank of the on-die ring, or the 512 of the staging page once that ring
has failed (R415, R424). -/
def Recorder.capacity (r : Recorder) : Nat := if r.ondieOk then 64 * r.banks else 512

/-- One more dropped event (R415, R424, R429). -/
def Recorder.drop (r : Recorder) : Recorder :=
  { r with dropped := if r.dropped = 0xFFFFFFFF then r.dropped else r.dropped + 1, intStatus := r.intStatus ||| 8 }

/-- Fold an occurrence into the open record (R413). -/
def Recorder.fold (r : Recorder) (up wall : Nat) (holdover : Bool) : Recorder :=
  { r with ring := r.ring.dropLast ++ (r.ring.getLast?.toList.map fun e =>
      { e with rep := e.rep + 1, folded := true, up := up, wall := wall, holdover := holdover }) }

/-- Start a record, or drop it where the ring has no slot for it (R412, R415, R424). -/
def Recorder.start (r : Recorder) (e : EvRec) (now : Nat) : Recorder :=
  let r := { r with next := r.next + 1, openRec := false,
                    intStatus := if e.sev ≥ r.alertSev.toNat then r.intStatus ||| 1 else r.intStatus }
  if !r.ondieOk && !r.flashOk then r.drop
  else if r.ring.length < r.capacity then
    { r with ring := r.ring ++ [e], openRec := true, uncopiedAt := r.uncopiedAt.or (some now) }
  else
    match r.ring with
    | o :: rest =>
      if r.flashOk && decide (r.copied ≤ o.seq) then r.drop
      else { r with ring := rest ++ [e], openRec := true, uncopiedAt := r.uncopiedAt.or (some now) }
    | [] => r.drop

/-- One occurrence of an event: folded into the open record, or a new record (R413, R414). Before EV_BOOT of the epoch is
written the recorder does not run yet, and the occurrence is kept for it (R417). -/
def State.logEv (s : State) (c : EvCode) (src p0 p1 : Nat) : State :=
  let a := BitVec.ofNat 32 p0
  let b := BitVec.ofNat 32 p1
  let r := s.evr
  if !r.on then { s with evr := { r with early := r.early ++ [(c.1, c.2, src, p0, p1)] } }
  else
    let fresh : EvRec := { seq := r.next, code := c.1, sev := c.2, holdover := s.ptp.holdover, src := src, up := s.uptime,
                           wall := s.wallNs, p0 := a, p1 := b }
    let same := match r.ring.getLast? with
      | some e => r.openRec && e.code == c.1 && e.src == src && e.p0 == a && e.p1 == b && decide (e.rep < 65535)
      | none => false
    { s with evr := if same then r.fold s.uptime s.wallNs s.ptp.holdover else r.start fresh s.now }

-- Small updates of the unit states.

def State.setEvr (s : State) (f : Recorder → Recorder) : State := { s with evr := f s.evr }
def State.setPwr (s : State) (f : Power → Power) : State := { s with pwr := f s.pwr }
def State.setHold (s : State) (f : Holdup → Holdup) : State := { s with hold := f s.hold }
def State.setThm (s : State) (f : Thermal → Thermal) : State := { s with thm := f s.thm }
def State.setLand (s : State) (f : Landing → Landing) : State := { s with land := f s.land }
def State.setKv (s : State) (f : Kv → Kv) : State := { s with kv := f s.kv }
def State.setPrism (s : State) (f : Prism → Prism) : State := { s with prism := f s.prism }
def State.setJrn (s : State) (f : Journal → Journal) : State := { s with jrn := f s.jrn }
def State.setFlash (s : State) (f : Flash → Flash) : State := { s with flash := f s.flash }
def State.setDram (s : State) (f : Dram → Dram) : State := { s with dram := f s.dram }
def State.setTr (s : State) (f : Transport → Transport) : State := { s with tr := f s.tr }
def State.setMbx (s : State) (f : Mailbox → Mailbox) : State := { s with mbx := f s.mbx }
def State.setMir (s : State) (f : Mirror → Mirror) : State := { s with mir := f s.mir }
def State.setPtp (s : State) (f : Ptp → Ptp) : State := { s with ptp := f s.ptp }
def State.setUpd (s : State) (f : Update → Update) : State := { s with upd := f s.upd }
def State.setSec (s : State) (f : Security → Security) : State := { s with sec := f s.sec }
def State.setLife (s : State) (f : Life → Life) : State := { s with life := f s.life }
def State.setSb (s : State) (f : SideBand → SideBand) : State := { s with sb := f s.sb }
def State.setStored (s : State) (f : Stored → Stored) : State := { s with stored := f s.stored }
def State.setDma (s : State) (f : Dma → Dma) : State := { s with dma := f s.dma }
def State.setMover (s : State) (f : Mover → Mover) : State := { s with mover := f s.mover }
def State.setPort (s : State) (p : Fin 2) (f : Port → Port) : State := { s with ports := modAt s.ports p.val f }
def State.setCmds (s : State) (f : List Cmd → List Cmd) : State := { s with cmds := f s.cmds }
def State.setCmd (s : State) (adm : Nat) (f : Cmd → Cmd) : State :=
  s.setCmds fun l => l.map fun c => if c.adm = adm then f c else c

/-- A port's state. -/
def State.port (s : State) (p : Fin 2) : Port := s.ports.getD p.val {}

/-- A port's stored configuration. -/
def State.portCfg (s : State) (p : Fin 2) : PortCfg := s.stored.ports.getD p.val {}

/-- Whether the port is built into this part and not retired (R8, R444). -/
def State.portUsable (s : State) (p : Fin 2) : Bool := (p.val == 0 || s.part.ta) && !(s.port p).retired

/-- An outstanding command by its admission number. -/
def State.cmd? (s : State) (adm : Nat) : Option Cmd := s.cmds.find? fun c => c.adm == adm

/-- A key space that exists now, by number (hidden ones included). -/
def State.space? (s : State) (ks : Nat) : Option KeySpace :=
  s.kv.spaces.find? fun k => k.ks == ks && k.deletedAt.isNone

/-- The key space that a command at an admission position finds under a number (R44). -/
def State.spaceAt (s : State) (ks pos : Nat) : Option KeySpace :=
  s.kv.spaces.find? fun k => k.ks == ks && !k.hidden && k.createdAt.all (fun p => decide (p < pos)) &&
    k.deletedAt.all (fun p => decide (pos ≤ p))

/-- Change the key spaces of a number that `sel` selects. -/
def State.setSpaces (s : State) (sel : KeySpace → Bool) (f : KeySpace → KeySpace) : State :=
  s.setKv fun kv => { kv with spaces := kv.spaces.map fun k => if sel k then f k else k }

/-- Change the present key space of a number. -/
def State.setSpace (s : State) (ks : Nat) (f : KeySpace → KeySpace) : State :=
  s.setSpaces (fun k => k.ks == ks && k.deletedAt.isNone) f

/-- Whether the module is in service: past the service instant and neither closing nor off (R436). -/
def State.inService (s : State) : Bool := s.life.phase == 9

/-- Whether commands execute: service, maintenance mode or the recovery image, and no service reset (R388, R434, R464). -/
def State.running (s : State) : Bool := (s.life.phase == 9 || s.life.phase == 10 || s.life.phase == 11) && s.life.svc.isNone

/-- Whether admission has stopped for a hold-up sequence or a reset close (R222, R431). -/
def State.shutting (s : State) : Bool := s.life.holdup || s.life.closing.isSome

/-- Whether the main image serves: background work and the Mirror link are its own (R388, R436). -/
def State.serving (s : State) : Bool := s.inService && !s.shutting && s.life.svc.isNone

/-- Whether a full reset closes first: whether a service instant has passed (R431, R440). -/
def State.canClose (s : State) : Bool := s.life.phase == 9 || s.life.phase == 11

/-- Set bits of GLB_INT_STATUS. -/
def State.glbInt (s : State) (k : Nat) : State :=
  s.setLife fun l => { l with intStatus := l.intStatus ||| BitVec.ofNat 5 (2 ^ k) }

/-- Set bits of PWR_INT_STATUS. -/
def State.pwrInt (s : State) (k : Nat) : State :=
  s.setPwr fun p => { p with intStatus := p.intStatus ||| BitVec.ofNat 7 (2 ^ k) }

/-- Set bits of a port's MACn_INT_STATUS. -/
def State.macInt (s : State) (p : Fin 2) (k : Nat) : State :=
  s.setPort p fun q => { q with intStatus := q.intStatus ||| BitVec.ofNat 6 (2 ^ k) }

/-- Whether `t` ns have passed since an instant. -/
def State.past (s : State) (since t : Nat) : Bool := decide (since + t ≤ s.now)

/-- A wake event (R233): an entry is abandoned, a state is left. The idle timers start afresh (log 26). -/
def State.wake (s : State) : State :=
  let p := s.pwr
  if p.psBusy && p.psTarget = 0 then s
  else if p.ps = 0 then (if p.psBusy then s.setPwr fun p => { p with psBusy := false, psTarget := 0, idleSince := none, psStays := false } else s)
  else s.setPwr fun p => { p with psBusy := true, psTarget := 0, idleSince := none, psStays := false }

end Sys2Proof.Machine
end

