-- ==== Sys2Proof/Machine/Arbiter.lean ====
section
/-! DEFINITION. The power arbiter (06 R206-R214) and the instants at which the two power ledgers change (01 R37, 06 R208,
05 R183-R185, R192). -/

namespace Sys2Proof.Machine

/-- Free segments: numbers in use subtract from the part's segments (R240, R259). -/
def State.freeSegs (s : State) : Nat := s.part.segments - s.flash.segs.length

/-- Tokens of a power class (R36). -/
def classTokens (c : Nat) : Nat := match c with | 0 => 500 | 1 => 720 | 2 => 960 | _ => 1200

/-- d of R207 in percent, for T in whole degrees. -/
def deratePct (t : Int) : Nat := if t ≤ 125 then 100 else if t < 145 then (100 - 3 * (t - 125)).toNat else 40

/-- The input-limit term of R207, VIN in 10 mV units. -/
def ilimitTerm (mA vin : Nat) : Nat := mA * vin * 36 / 100000

/-- PHY standing grant of a rate (R326, R210). -/
def phyTokens (rate : Nat) : Nat := match rate with | 0 => 20 | 1 => 40 | 2 => 60 | _ => 100

/-- The input-limit term as the budget takes it: before the first evaluation there is no averaged VIN, and the term limits nothing
(log 7). -/
def State.ilimitNow (s : State) : Nat := if s.pwr.vin10mV = 0 then 65535 else s.pwr.ilimitTokens

/-- state_tokens of R207. -/
def State.stateTokens (s : State) : Nat :=
  let base := match s.pwr.ps.val with | 0 => 1200 | 1 => 560 | 2 => 260 | 3 => 112 | _ => 36
  let phy := sumBy s.ports fun p => if p.link && !p.eee then phyTokens p.rate.val else 0
  if s.pwr.ps.val ≥ 2 then base + phy else base

/-- The class in force: the lower of the pad class and POWER_CLASS, pads 4-7 counting as 0 (R206). -/
def State.classInForce (s : State) : Nat :=
  min (if s.pwr.pads.toNat ≥ 4 then 0 else s.pwr.pads.toNat) s.stored.powerClass

/-- The budget of R207; 800 tokens during the hold-up sequence (R222 step 3). -/
def State.budgetNow (s : State) : Nat :=
  if s.shutting then 800
  else min (min (classTokens s.pwr.cls * deratePct s.thm.t / 100) s.ilimitNow) s.stateTokens

/-- Whether the input-limit term binds (R207): strictly smaller than both other terms. -/
def State.ilimitBindsNow (s : State) : Bool :=
  decide (s.ilimitNow < classTokens s.pwr.cls * deratePct s.thm.t / 100) &&
    decide (s.ilimitNow < s.stateTokens)

/-- The standing grants (R210; R222 step 3 in the hold-up sequence). -/
def State.standingNow (s : State) : Nat :=
  let phy := sumBy s.ports fun p => p.phyGrant
  let chg := if s.hold.chargeGrant.isSome then 28 else 0
  if s.shutting then 120
  else if s.pwr.ps.val = 0 then 200 + 48 + phy + chg
  else s.stateTokens

/-- Tokens of the grants held outside the host-read pool. -/
def Power.heldTokens (p : Power) : Nat := sumBy p.grants fun g => if g.pool then 0 else g.n

/-- Bring granted and free into line with the standing grants and the grants held (R34: budget = granted + free). -/
def State.settleTokens (s : State) : State :=
  let st := s.standingNow
  let g : Int := st + s.pwr.heldTokens
  s.setPwr fun p => { p with standing := st, granted := g, free := p.budget - g }

/-- Whether a segment has a row on a channel of its position (R260, R276). -/
def Segment.usesCh (g : Segment) (ch : Nat) : Bool := g.chans.getLsbD ch || g.runs.any fun r => r.2.2.getLsbD ch

/-- Whether a die serves reads: neither it nor its channel is retired (R276). -/
def State.dieServes (s : State) (ch pos : Nat) : Bool :=
  !((s.flash.channels.getD ch {}).retired) && s.flash.dies.any fun d => d.ch == ch && d.pos == pos && !d.retired

/-- Slots of a die whose blocks hold data: of the segments that are not free, and the metadata blocks, numbered behind the slots (R240,
R268). -/
def State.dataSlots (s : State) (ch pos : Nat) : List Nat :=
  (s.flash.segs.filter fun g => g.seg / 7040 == pos && g.usesCh ch).map (fun g => g.seg % 7040) ++
    ((List.range 72).map fun k => 7040 + k).filter fun k => !s.flash.metaBad.contains (ch, pos, k)

/-- A scrub overdue by more than half its interval (R213, R268): a block that holds data, on a die in service, whose credit is above 1.5. A block's
credit is at most its die's. -/
def State.scrubOverdue (s : State) : Bool :=
  s.flash.dies.any fun d => decide (181440000 < d.credit) && s.dieServes d.ch d.pos &&
    (s.dataSlots d.ch d.pos).any fun k =>
      decide (181440000 < d.credit - (((s.flash.scrubMarks.find? fun m => m.1 == (d.ch, d.pos, k)).map fun m => m.2).getD 0))

/-- Whether class 3 takes the position of class 2 ahead of host writes (R213). -/
def State.promoted (s : State) : Bool := decide (s.freeSegs < 24) || s.scrubOverdue

/-- The place of a class in the order of service. -/
def classPlace (promoted : Bool) (c : Nat) : Nat :=
  if promoted then (match c with | 3 => 2 | 2 => 3 | _ => c) else c

/-- Whether the host-read pool, which is held in PS0 only, has the tokens of a host read (R210, R212). ATTEST signing is of class 1 but no read. -/
def State.poolServes (s : State) (r : TokReq) : Bool :=
  let signs := match r.why with
    | .signing _ => true
    | _ => false
  r.cls == 1 && !signs && decide (r.n ≤ s.pwr.poolFree) && decide (s.pwr.ps = 0) && !s.shutting

/-- Whether the arbiter may grant a queued request now (R212). In the hold-up sequence only class 0 is served (R222). -/
def State.grantable (s : State) (r : TokReq) : Bool :=
  let oldest := fun c => s.pwr.queue.find? fun q => q.cls == c
  let first := (oldest r.cls).map (·.id) == some r.id
  if r.cls = 0 then first
  else if s.shutting then false
  else if first && s.poolServes r then true
  else
    let pr := s.promoted
    let above := (List.range 4).filter fun c => decide (classPlace pr c < classPlace pr r.cls)
    first && decide ((r.n : Int) ≤ s.pwr.free) && above.all fun c =>
      match oldest c with
      | some q => decide ((q.n : Int) ≤ s.pwr.free - r.n)
      | none => true

/-- Hand a queued request its tokens, from the host-read pool where it is a host read and the pool has them (R212). -/
def State.grantReq (s : State) (r : TokReq) : State :=
  let pool := s.poolServes r
  s.setPwr fun p =>
    { p with queue := p.queue.filter fun q => q.id != r.id
             grants := p.grants ++ [{ id := r.id, cls := r.cls, n := r.n, pool := pool, why := r.why }]
             poolFree := if pool then p.poolFree - r.n else p.poolFree
             granted := if pool then p.granted else p.granted + r.n
             free := if pool then p.free else p.free - r.n }

/-- Examine the queues, at most `fuel` grants (R212). -/
def State.examine : Nat → State → State
  | 0, s => s
  | n + 1, s =>
    match s.pwr.queue.find? fun r => s.grantable r with
    | some r => State.examine n (s.grantReq r)
    | none => s

/-- The arbiter's examination at a request, a return or a budget-change instant. -/
def State.arbitrate (s : State) : State := s.examine (s.pwr.queue.length + 1)

/-- Request tokens (R209, R212): a host read that the pool covers never queues. A request is a wake event (R233). -/
def State.askTokens (s : State) (cls n : Nat) (why : Purpose) : State :=
  let r : TokReq := { id := s.pwr.nextGrant, cls := cls, n := n, why := why }
  let s := s.wake.setPwr fun p => { p with queue := p.queue ++ [r], nextGrant := p.nextGrant + 1 }
  (if s.poolServes r then s.grantReq r else s).arbitrate

/-- The grant held for a purpose. -/
def State.grantFor (s : State) (why : Purpose) : Option Grant := s.pwr.grants.find? fun g => g.why == why

/-- Return a grant by its number (R209), and examine the queues. -/
def State.returnGrant (s : State) (id : Nat) : State :=
  match s.pwr.grants.find? fun g => g.id == id with
  | none => s
  | some g => (s.setPwr fun p =>
      { p with grants := p.grants.filter fun x => x.id != id
               poolFree := if g.pool then p.poolFree + g.n else p.poolFree
               granted := if g.pool then p.granted else p.granted - g.n
               free := if g.pool then p.free else p.free + g.n }).arbitrate

/-- Return the grant of a purpose, or withdraw its request. -/
def State.returnFor (s : State) (why : Purpose) : State :=
  let s := s.setPwr fun p => { p with queue := p.queue.filter fun q => q.why != why }
  match s.grantFor why with
  | some g => s.returnGrant g.id
  | none => s.arbitrate

/-- An operation that the model makes whole within one row, under its class 0 grant, which never waits for tokens (R209-R212). -/
def State.under (s : State) (n : Nat) (why : Purpose) (f : State → State) : State := (f (s.askTokens 0 n why)).returnFor why

/-- The tokens that are free in PS0, to which a link change wakes the module (R210, R233). -/
def State.freeAwake (s : State) : Int :=
  if s.pwr.ps = 0 then s.pwr.free
  else
    let b : Int := min (classTokens s.pwr.cls * deratePct s.thm.t / 100) s.ilimitNow
    b - (248 + (sumBy s.ports fun p => p.phyGrant) + (if s.hold.chargeGrant.isSome then 28 else 0) + s.pwr.heldTokens : Nat)

/-- A budget-change instant of the token budget (R37, R208). -/
def State.budgetChange (s : State) (reason : Nat) : State :=
  let old := s.pwr.budget
  let s := s.setPwr fun p => { p with cls := s.classInForce }
  let s := s.setThm fun t => { t with dT := max t.t 125 }
  let new : Int := s.budgetNow
  let s := s.setPwr fun p => { p with budget := new, bci := p.bci + 1, ilimitBinds := s.ilimitBindsNow, ilimitUsed := p.ilimitTokens }
  let s := s.settleTokens
  let s := (s.pwrInt 0).logEv evBudgetChange uPower (toField 16 old + 65536 * toField 16 new) reason
  s.arbitrate

-- The hold-up ledger (R34 ledger 5).

/-- Usable energy of a bank at a voltage, in nJ, rounded down to 10,000,000 (R184): ½ C (V² − 12²), C in µF, V in 10 mV. -/
def usableEnergy (uF v : Nat) : Nat := uF * (v * v - 1200 * 1200) / 20 / 10000000 * 10000000

/-- The admissible cell count of R183. -/
def admissibleOf (usable : Int) (total : Nat) : Nat :=
  if usable ≤ 400000000 then 0 else min total ((usable - 400000000).toNat / 24610)

/-- The states of the bank in which it is fitted and healthy, or charging with its capacitance found (R220). -/
def State.bankServes (s : State) : Bool :=
  match s.hold.st with
  | .healthy | .charging => true
  | _ => false

/-- The admissible count now: 0 while the bank is absent, below rating or faulty (R191). -/
def State.admissibleNow (s : State) : Nat := if s.bankServes then admissibleOf s.land.usable s.land.cellTotal else 0

/-- Re-derive the admissible count and the mode, writing EV_LANDING_SIZE or EV_LANDING_MODE (R183, R185, R191, R192). -/
def State.resizeLanding (s : State) : State :=
  let old := s.land.admissible
  let new := s.admissibleNow
  let wt := new == 0
  let was := s.land.writeThrough
  let s := s.setLand fun l => { l with admissible := new, writeThrough := wt }
  if wt != was then s.logEv evLandingMode uLanding (b2n wt) new
  else if decide (old ≠ 0) && decide (new ≠ 0) && decide (100 * (max old new - min old new) > old) then
    s.logEv evLandingSize uLanding old new
  else s

/-- A budget-change instant of the hold-up ledger (R37, R185), with EV_HOLDUP_BUDGET and its reason. -/
def State.holdupBudget (s : State) (usable : Nat) (reason : Nat) : State :=
  let old := s.land.usable
  let s := s.setLand fun l => { l with usable := usable, freeCharge := (usable : Int) - l.resLanding - l.resShutdown }
  let s := s.setPwr fun p => { p with bci := p.bci + 1 }
  let s := (s.pwrInt 0).logEv evHoldupBudget uLanding (toField 16 (old / 10000000) + 65536 * (usable / 10000000 % 65536)) reason
  s.resizeLanding

/-- The ledgers are derived again at the end of a reset: a budget-change instant of each power ledger (R40, R185, R208). -/
def State.resetEnds (s : State) : State := ((s.settleTokens).budgetChange 5).holdupBudget s.land.usable.toNat 4

/-- A change of the bank's state (R220). -/
def State.bankState (s : State) (st : BankSt) : State :=
  let code : BankSt → Nat := fun x => match x with
    | .absent => 0 | .charging => 1 | .healthy => 2 | .belowRating => 3 | .faulty => 4
  if s.hold.st = st then s
  else
    let s' := (s.setHold fun h => { h with st := st }).pwrInt 1
    (s'.logEv evHoldupState uPower (code s.hold.st) (code st)).resizeLanding

/-- Latch both power ledgers into the ledger registers (R39, R236). -/
def State.powerSnapshot (s : State) : State :=
  let cls := (List.range 4).map fun c =>
    (sumBy s.pwr.grants fun g => if g.cls == c && !g.pool then g.n else 0, (s.pwr.queue.filter fun q => q.cls == c).length)
  s.setPwr fun p => { p with snap :=
    { budget := p.budget, granted := p.granted, free := p.free, standing := p.standing, cls := cls, usable := s.land.usable,
      landing := s.land.resLanding, shut := s.land.resShutdown, huFree := s.land.freeCharge } }

end Sys2Proof.Machine
end

