-- ==== Sys2Proof/Machine/Net.lean ====
section
/-! DEFINITION. Sending: the transmit cells and classes of a port (10 R338, R340), Skiff datagrams (04 R128, R141),
RoCE operations, and Mirror messages (09 R298-R300). -/

namespace Sys2Proof.Machine

/-- MACn_PCP_MAP applied to a priority (R338). -/
def PortCfg.classOf (c : PortCfg) (pcp : Nat) : Nat := c.pcpMap.toNat / 8 ^ pcp % 8

/-- tx_default_pcp of MACn_VLAN, bits [15:13] (R358). -/
def PortCfg.txPcp (c : PortCfg) : Fin 8 := Fin.ofNat 8 (c.vlan.toNat / 8192 % 8)

/-- Whether an address is IPv4-mapped (R399 field 2, R427). -/
def isV4 (a : Bytes) : Bool := allZero (a.take 10) && slice a 10 2 == [0xFF#8, 0xFF#8]

/-- The VID of the tag a port inserts, in mode 1 of MACn_VLAN (R337). -/
def PortCfg.tag (c : PortCfg) : Option (BitVec 12) := if c.vlan.getLsbD 12 then some (c.vlan.setWidth 12) else none

/-- Bytes of that tag. -/
def PortCfg.tagLen (c : PortCfg) : Nat := if c.tag.isSome then 4 else 0

/-- Ethernet and IP bytes around an IP payload: 14 + 4 FCS, IPv4 or IPv6; a tag is not among them. -/
def headLen (addr : Bytes) : Nat := 18 + if isV4 addr then 20 else 40

/-- The same with the tag that the port inserts (R337). -/
def State.overhead (s : State) (p : Fin 2) (addr : Bytes) : Nat := headLen addr + (s.portCfg p).tagLen

/-- Place a frame in the transmit buffer of its port: in its class's guarantee, else in the shared cells, else it waits
(R340). A frame for a port that is absent or retired goes nowhere. -/
def Port.place (q : Port) (f : TxFrame) : Option Port :=
  match q.tx[f.tc]? with
  | none => none
  | some c =>
    if f.cells ≤ c.free then
      some { q with tx := modAt q.tx f.tc fun c => { c with queue := c.queue ++ [f], free := c.free - f.cells }
                    txFree := q.txFree - f.cells, txInUse := q.txInUse + f.cells }
    else if f.cells ≤ q.txShared then
      some { q with tx := modAt q.tx f.tc fun c => { c with queue := c.queue ++ [{ f with shared := f.cells }] }
                    txShared := q.txShared - f.cells, txFree := q.txFree - f.cells, txInUse := q.txInUse + f.cells }
    else none

/-- Put frames into a port's transmit buffer in order; a frame behind a waiting frame of its class waits too. -/
def Port.enqueue (q : Port) (fs : List TxFrame) : Port :=
  fs.foldl (fun q f =>
    if q.txWait.any (fun w => w.tc == f.tc) then { q with txWait := q.txWait ++ [f] }
    else match q.place f with
      | some q' => q'
      | none => { q with txWait := q.txWait ++ [f] }) q

/-- Release the cells of a transmitted or discarded frame, and place the frames that waited (R340). -/
def Port.release (q : Port) (f : TxFrame) : Port :=
  let q := if f.shared = 0 then { q with tx := modAt q.tx f.tc fun c => { c with free := c.free + f.cells } }
           else { q with txShared := q.txShared + f.cells }
  let q := { q with txFree := q.txFree + f.cells, txInUse := q.txInUse - f.cells }
  { q with txWait := [] }.enqueue q.txWait

/-- The lengths of the pieces of `n` bytes cut every `room` bytes: one piece where nothing is to be cut. -/
def cutLens (n room : Nat) : List Nat :=
  (List.range (max 1 (ceilDiv n room))).map fun i => min room (n - i * room)

/-- Put the frames of one message into a port's transmit buffer, `bodies` their IP payload lengths, in the class and with the DSCP of
its source (R338). -/
def State.sendFrames (s : State) (p : Fin 2) (addr : Bytes) (pcp : Fin 8) (dscp : Nat) (bodies : List Nat) (msg : Msg) : State :=
  if !s.portUsable p then s
  else
    let ovh := headLen addr
    let tc := (s.portCfg p).classOf pcp.val
    s.setPort p fun q => q.enqueue (bodies.zipIdx.map fun (body, i) =>
      let len := max 64 (ovh + body)
      { msg := msg, part := i, parts := bodies.length, len := len, cells := ceilDiv len 256, pcp := pcp, dscp := dscp, tc := tc : TxFrame })

/-- Send an IP payload of `n` bytes to an address, cut into fragments no longer than the port's frame size (R141). -/
def State.sendIp (s : State) (p : Fin 2) (addr : Bytes) (pcp : Fin 8) (dscp n : Nat) (msg : Msg) : State :=
  let most := (s.portCfg p).maxFrame.toNat - s.overhead p addr
  s.sendFrames p addr pcp dscp (if n ≤ most then [n] else cutLens n (max 8 (most / 8 * 8))) msg

/-- Send a UDP datagram to where a received one came from. -/
def State.sendSkiff (s : State) (rx : Rx) (dg : Bytes) : State :=
  s.sendIp rx.port rx.hostAddr rx.pcp rx.dscp (8 + dg.length) (.skiff rx.hostAddr rx.hostUdp rx.localUdp dg)

/-- Bytes of UDP, RoCE transport headers and invariant CRC around a packet's payload (the largest headers are taken). -/
def roceHead : Nat := 40

/-- Path MTU of a connection: the largest of 4,096, 2,048 and 1,024 that the port's frame size allows (R147). -/
def State.pathMtu (s : State) (rx : Rx) : Nat :=
  let most := (s.portCfg rx.port).maxFrame.toNat - s.overhead rx.port rx.hostAddr - roceHead
  if 4096 ≤ most then 4096 else if 2048 ≤ most then 2048 else 1024

/-- Send a RoCE v2 operation on a queue pair's connection, in packets of its path MTU (R147). -/
def State.sendRoce (s : State) (rx : Rx) (qp : Nat) (op : RoceOp) (payload : Nat) : State :=
  s.sendFrames rx.port rx.hostAddr rx.pcp rx.dscp ((cutLens payload (s.pathMtu rx)).map fun n => roceHead + n) (.roce qp op)

/-- A Skiff header (R128). -/
def skiffHdr (typ sid flags seq ack credit fi fc cookie reason : Nat) : Bytes :=
  le 2 0xC5F1 ++ le 1 1 ++ le 1 typ ++ le 2 sid ++ le 2 flags ++ le 4 seq ++ le 4 ack ++ le 2 credit ++ le 1 fi ++ le 1 fc ++
    le 4 cookie ++ le 2 reason ++ le 6 0

/-- The header of a datagram on a session. Every one carries the window in credit and next_expected in ack (R140). -/
def Session.hdr (x : Session) (typ flags seq fi fc reason : Nat) : Bytes :=
  skiffHdr typ x.sid flags seq x.nextExpected.toNat x.credits.inUse fi fc x.cookie.toNat reason

/-- The completion entry of R85, phase bit aside. -/
def Completion.entry (c : Completion) (phase : Bool) : Bytes :=
  le 2 c.tag.toNat ++ le 2 c.status.toNat ++ le 1 (b2n phase + 2 * b2n c.def_) ++ le 1 0 ++ le 2 c.sqHead ++ le 6 c.adm ++ le 2 0 ++
    le 8 c.result0 ++ le 8 c.result1

/-- The RSP datagrams of a completion (R141); `flags` carries resent and evicted. -/
def Session.rsps (x : Session) (seq : Nat) (c : Completion) (flags : Nat) : List Bytes :=
  let room := x.maxDgram - 64
  let n := max 1 (ceilDiv c.payload.length (max room 1))
  (List.range n).map fun i => x.hdr 4 flags seq i n 0 ++ c.entry false ++ slice c.payload (i * room) room

/-- Send a response on a session. -/
def State.sendRsp (s : State) (x : Session) (seq : Nat) (c : Completion) (flags : Nat) : State :=
  (x.rsps seq c flags).foldl (fun s dg => s.sendSkiff x.rx dg) s

/-- A REJECT (R131): never consumes anything; counted. -/
def State.reject (s : State) (rx : Rx) (sid seq ack credit cookie reason : Nat) : State :=
  (s.sendSkiff rx (skiffHdr 9 sid 0 seq ack credit 0 0 cookie reason)).setTr fun t =>
    { t with counters := { t.counters with rejects := (t.counters.rejects + 1) % 2 ^ 32 } }

-- Mirror messages.

/-- Encode a Mirror message with the fields of its sending (R298). -/
def State.mirrorDg (s : State) (typ lseq flags ks stamp keyLen : Nat) (body : Bytes) : Bytes :=
  le 2 0xC5F2 ++ le 1 1 ++ le 1 typ ++ le 4 lseq ++ le 4 s.mir.rxNext ++ le 4 s.mir.applied ++ le 8 stamp ++ le 1 ks ++ le 1 keyLen ++
    le 2 flags ++ le 4 body.length ++ body

/-- Send a datagram whole: Mirror messages are never fragmented (R296). -/
def State.sendWhole (s : State) (p : Fin 2) (addr : Bytes) (pcp : Fin 8) (n : Nat) (msg : Msg) : State := s.sendFrames p addr pcp 0 [n] msg

/-- Send one Mirror datagram on the port in use, or on the pairing's port before one is in use (R296), with the PCP of the peer's HELLO (R338). -/
def State.mirrorTx (s : State) (dg : Bytes) : State :=
  match s.mir.pairing with
  | none => s
  | some pr =>
    let p := s.mir.portInUse.getD pr.port
    (s.sendWhole p pr.addr (s.mir.peerPcp.getD (s.portCfg p).txPcp) (8 + dg.length) (.mirror dg)).setMir fun m => { m with lastTx := s.now }

/-- A message without an lseq: ACK (6) and HEARTBEAT (7) (R298-R300). -/
def State.mirrorPlain (s : State) (typ ks : Nat) (key body : Bytes) : State :=
  s.mirrorTx (s.mirrorDg typ 0 0 ks 0 key.length body)

/-- The bytes of a queued message. -/
def State.mirrorSentDg (s : State) (m : MSent) : Bytes :=
  s.mirrorDg m.typ (m.lseq % 2 ^ 32) m.flags m.ks m.stamp m.key.length m.body

/-- Send the queued messages that have not been sent, at most 4,096 beyond lack (R300). -/
def State.mirrorPump (s : State) : State :=
  if s.mir.state ≠ 2 then s
  else
    let go := s.mir.sendq.filter fun m => decide (s.mir.sentTo ≤ m.lseq) && decide (m.lseq < s.mir.lack + 4096)
    let s := go.foldl (fun s m => s.mirrorTx (s.mirrorSentDg m)) s
    s.setMir fun m => { m with sentTo := max m.sentTo (go.foldl (fun n x => max n (x.lseq + 1)) 0) }

/-- Queue a message that carries an lseq, and send what may be sent (R300). -/
def State.mirrorQueue (s : State) (f : Nat → MSent) : State :=
  (s.setMir fun m => { m with sendq := m.sendq ++ [f m.lseqNext], lseqNext := m.lseqNext + 1 }).mirrorPump

/-- The body of a message that carries a key: 8 bytes, then the key, then data at 8 + align8(key_len) (R299). -/
def mirrorBody (head : Bytes) (key data : Bytes) : Bytes := fit 8 head ++ fit (align8 key.length) key ++ data

/-- Send a Mirror datagram on a named port. -/
def State.mirrorTxOn (s : State) (p : Fin 2) (dg : Bytes) : State :=
  match s.mir.pairing with
  | none => s
  | some pr => (s.sendWhole p pr.addr (s.mir.peerPcp.getD (s.portCfg p).txPcp) (8 + dg.length) (.mirror dg)).setMir fun m => { m with lastTx := s.now }

/-- Send REFUSE for a message that checks 6 to 8 of R75 refused (R299, R306). -/
def State.mirrorRefuse (s : State) (ks lseq : Nat) (st : BitVec 16) : State :=
  s.mirrorQueue fun n =>
    { lseq := n, typ := 12, flags := 0, ks := ks, key := [], stamp := 0, body := le 2 st.toNat ++ le 2 0 ++ le 4 lseq, live := false }

/-- CLOSE (R299). -/
def State.sendClose (s : State) : State :=
  s.mirrorQueue fun n => { lseq := n, typ := 13, flags := 0, ks := 0, key := [], stamp := 0, body := [], live := false }

/-- Advance lapplied past the messages at the head of the apply stage that have been applied, a REFUSE ahead of it for each that was
refused, and send an ACK (R300, R306). -/
def State.mirrorAdvance (s : State) : State :=
  let done_ := s.mir.applyq.takeWhile fun r => r.done.isSome
  if done_.isEmpty then s
  else
    let s := done_.foldl (fun s r =>
      match r.done with
      | some st => if !r.gathered && (st == 0x0302 || st == 0x0401 || st == 0x0403) then s.mirrorRefuse r.msg.ks.toNat r.lseq st else s
      | none => s) s
    let last := done_.foldl (fun n r => max n (r.lseq + 1)) s.mir.applied
    (s.setMir fun m => { m with applyq := m.applyq.drop done_.length, applied := last }).mirrorPlain 6 0 [] []

end Sys2Proof.Machine
end

