-- ==== Sys2Proof/Machine/Chains.lean ====
section
/-! DEFINITION. The descriptors that the module's units build for the data mover in service, the channels they run on, and the copies of
response payloads (08 R281, R284-R287, R292). -/

namespace Sys2Proof.Machine

-- Descriptors.

/-- The space code of a port's transmit and receive buffer (R284). -/
def txSpace (p : Fin 2) : Nat := 2 + p.val
def rxSpace (p : Fin 2) : Nat := 4 + p.val

/-- A descriptor of `len` bytes: mode 0 linear, 1 gather, 2 scatter, with elements of a 4 KiB cell and 32-bit index entries (R285,
R287). -/
def buildDesc (ch mode srcSpace dstSpace len src dst tag : Nat) (index : List Nat) : MDesc :=
  { desc :=
      { ctl := BitVec.ofNat 32 (mode + 2 ^ 8 * srcSpace + 2 ^ 12 * dstSpace + if mode = 0 then 0 else 2 ^ 16 * 4096)
        len := BitVec.ofNat 32 len, src := BitVec.ofNat 64 src, dst := BitVec.ofNat 64 dst
        idx := BitVec.ofNat 64 (if mode = 0 then 0 else Config.indexTableAt ch), idxCount := BitVec.ofNat 32 index.length
        spaces := BitVec.ofNat 32 ((if mode = 0 then 0 else 1) + 2 ^ 16 * (tag % 2 ^ 16)) }
    index := index }

/-- A linear descriptor. -/
def linear (srcSpace dstSpace len src dst tag : Nat) : MDesc := buildDesc 0 0 srcSpace dstSpace len src dst tag []

/-- Address of a byte of the Landing, by cell number and offset in the cell (R181, R287). -/
def landingAddr (cell off : Nat) : Nat := Config.landingBase + 4096 * cell + off

/-- The copy of `len` bytes between a record's cells and another space, where they begin `at_` bytes into the value: the piece in a first cell that
they do not begin is linear, and a gather out of the cells, or a scatter into them, has one index entry for each further cell, so that the length
rule of R286 holds (R181, R287). -/
def cellCopy (ch : Nat) (inward : Bool) (space addr : Nat) (cells : List Nat) (at_ len tag : Nat) : List MDesc :=
  let head := if at_ % 4096 = 0 then 0 else min len (4096 - at_ % 4096)
  let cell := landingAddr (cells.getD (at_ / 4096) 0) (at_ % 4096)
  let rest := len - head
  let index := ((cells.drop (ceilDiv at_ 4096)).take (ceilDiv rest 4096)).map fun c => 4096 * c
  (if head = 0 then [] else [if inward then linear space 0 head addr cell tag else linear 0 space head cell addr tag]) ++
    if rest = 0 then []
    else [if inward then buildDesc ch 2 space 0 rest (addr + head) Config.landingBase tag index
          else buildDesc ch 1 0 space rest Config.landingBase (addr + head) tag index]

/-- The same descriptor with the queue pair and the remote key of its host side (R285). -/
def MDesc.onQp (d : MDesc) (qp rkey : Nat) : MDesc :=
  { d with desc := { d.desc with qp := BitVec.ofNat 32 qp, rkey := BitVec.ofNat 32 rkey } }

/-- The same descriptors, on a queue pair where the host's side has one. -/
def onHost (host : Option (Nat × Nat)) (l : List MDesc) : List MDesc :=
  match host with
  | some (qp, rkey) => l.map fun d => d.onQp qp rkey
  | none => l

/-- Set the chain bit of every descriptor but the last (R285). -/
def chainUp : List MDesc → List MDesc
  | [] => []
  | [d] => [d]
  | d :: r => { d with desc := { d.desc with ctl := d.desc.ctl ||| 8 } } :: chainUp r

-- Channels.

/-- Promote a chain on a channel for a command: it is complete when its last write has been made. -/
def State.promote (s : State) (ch adm : Nat) (l : List MDesc) : State :=
  if l.isEmpty then s
  else s.setMover fun m => { m with busy := m.busy ++ [{ ch := ch, adm := adm, descs := chainUp l }] }

/-- A complete chain is its channel's last, and its descriptors count (R287, R294). -/
def Mover.count (m : Mover) (c : MChain) : Mover :=
  { m with last := (c.ch, c.descs) :: m.last.filter (fun x => x.1 != c.ch)
           done := modAt m.done c.ch fun n => (n + c.descs.length) % 2 ^ 32 }

/-- The chains of a command are complete: they count on their channels (R287, R294). -/
def State.moved (s : State) (adm : Nat) : State :=
  let mine := s.mover.busy.filter fun c => c.adm == adm
  s.setMover fun m => mine.foldl Mover.count { m with busy := m.busy.filter fun c => c.adm != adm }

/-- The chains of a command are stopped before their end. -/
def State.stopMove (s : State) (adm : Nat) : State :=
  s.setMover fun m => { m with busy := m.busy.filter fun c => c.adm != adm }

/-- Copy with a chain of descriptors on a channel, from promotion to completion. -/
def State.copyOn (s : State) (ch : Nat) (l : List MDesc) : State :=
  if l.isEmpty then s
  else s.setMover fun m => m.count { ch := ch, adm := 0, descs := chainUp l }

/-- A service chain halts its channel on an error and is discarded: EV_DMA_ERROR with the descriptor's tag (R292). -/
def State.failChain (s : State) (c : MChain) (err : Nat) : State :=
  (s.setMover fun m => { m with busy := m.busy.filter fun x => x != c }).logEv evDmaError uDma (c.ch + 256 * err)
    ((c.descs.head?.map fun d => d.desc.spaces.toNat / 2 ^ 16).getD 0)

/-- Whether a chain reads host memory (R284). -/
def MChain.readsHost (c : MChain) : Bool := c.descs.any fun d => d.desc.ctl.toNat / 2 ^ 8 % 16 == 6

/-- The RDMA Read of a command's payload has failed: the chains that wait for it end with error 5 (R289, R292). -/
def State.failMoves (s : State) (c : Cmd) : State :=
  if c.payload.isSome then s else (s.mover.busy.filter fun x => x.adm == c.adm && x.readsHost).foldl (fun s x => s.failChain x 5) s

-- Responses.

/-- Where a response goes: the transmit buffer of the session's port, the response buffer in DRAM, or host memory (R287). The spec gives neither the
MAC's allotment in its transmit buffer nor the mailbox buffers' place in DRAM: both begin at 0 (DESIGN CHOICE, log 79). -/
def State.respTarget (s : State) (c : Cmd) : Nat × Nat × Option (Nat × Nat) :=
  match c.src with
  | .skiff u => (((s.tr.sessions.find? fun x => x.uid == u).map fun x => txSpace x.rx.port).getD 2, 0, none)
  | .ferry u => (6, c.entry.respAddr, (s.tr.qps.find? fun q => q.uid == u).map fun q => (q.qp, c.entry.respRkey))
  | .mbx | .mirror => (0, 0, none)

/-- Promote the copy of a response payload that the CP has built in DRAM: on the channel of the command's home CP (R281). The values of GET and MGET
have chains of their own. -/
def State.copyPayload (s : State) (c : Cmd) (payload : Bytes) : State :=
  let t := s.respTarget c
  if payload.isEmpty || c.entry.opcode = 0x02 || c.entry.opcode = 0x07 then s
  else s.promote (c.home % 8) c.adm (onHost t.2.2 [linear 0 t.1 payload.length (Config.houseAt c.adm) t.2.1 c.adm])

end Sys2Proof.Machine
end

