-- ==== Sys2Proof/Machine/Complete.lean ====
section
/-! DEFINITION. Status codes (03 R121), credits and ledgers of the sources (04 R123, R139, R140, R144, R162), and writing a
completion (03 R85, 04 R138, R141, R157, 15 R461). -/

namespace Sys2Proof.Machine

/-- A status code. -/
abbrev Status := BitVec 16

def stOk : Status := 0x0000
def stInvalid : Status := 0x0101
def stUnsupported : Status := 0x0102
def stSanitizing : Status := 0x0103
def stBufferShort : Status := 0x0104
def stAborted : Status := 0x0105
def stAlreadyDone : Status := 0x0106
def stNotFound : Status := 0x0201
def stKeyTooLong : Status := 0x0202
def stValueTooLarge : Status := 0x0203
def stKsUnknown : Status := 0x0204
def stChanged : Status := 0x0205
def stMediaLost : Status := 0x0301
def stReadOnly : Status := 0x0302
def stNoSpace : Status := 0x0401
def stBusy : Status := 0x0402
def stKeyLimit : Status := 0x0403
def stAuth : Status := 0x0501
def stDenied : Status := 0x0502
def stSeq : Status := 0x0601
def stHostAccess : Status := 0x0602
def stPeerUnreachable : Status := 0x0603
def stUpdBusy : Status := 0x0701
def stUpdBadBlock : Status := 0x0702
def stUpdBadSig : Status := 0x0703
def stUpdIncompatible : Status := 0x0704
def stUpdState : Status := 0x0705
def stUpdReverted : Status := 0x0706

-- Credits.

/-- The credits sessions and queue pairs share (R123). -/
def Part.poolCredits (p : Part) : Nat := if p.ta then 65279 else 65535

/-- Module credits not in any window (R123). -/
def State.freeCredits (s : State) : Nat :=
  s.part.poolCredits - sumBy s.tr.sessions (fun x => x.credits.inUse) - sumBy s.tr.qps (fun q => q.credits.inUse)

/-- Raise one window towards what was asked for (R139, R140). -/
def raise (c : CreditLedger) (asked free : Nat) : CreditLedger :=
  let d := min free (asked - c.inUse)
  { c with granted := c.granted + d, inUse := c.inUse + d }

/-- The whole window is returned (R139, R162). -/
def CreditLedger.giveBack (c : CreditLedger) : CreditLedger := { c with returned := c.returned + c.inUse, inUse := 0 }

/-- Raise the windows of open sessions and queue pairs, in the order they were opened, from the free module credits (R140). -/
def State.raiseWindows (s : State) : State :=
  let order := dedup ((s.tr.sessions.map fun x => x.uid) ++ (s.tr.qps.map fun q => q.uid))
  (sortNat order).foldl (fun s u =>
    let free := s.freeCredits
    s.setTr fun t =>
      { t with sessions := t.sessions.map (fun x =>
                 if x.uid == u && x.st == .opened then { x with credits := raise x.credits x.reqWindow free } else x)
               qps := t.qps.map (fun q =>
                 if q.uid == u && q.st == .opened then { q with credits := raise q.credits q.reqCredits free } else q) }) s

/-- Add an ended source to the list of R427: the 64 most recent. -/
def Transport.addEnded (t : Transport) (e : EndedSrc) : Transport :=
  { t with ended := (e :: t.ended).take 64 }

/-- Free a session: its window is returned and its session_id becomes free (R144). -/
def State.freeSession (s : State) (uid : Nat) : State :=
  match s.tr.sessions.find? fun x => x.uid == uid with
  | none => s
  | some x =>
    (s.setTr fun t => ({ t with sessions := t.sessions.filter fun y => y.uid != uid
                                hold := t.hold.filter fun h => h.uid != uid }).addEnded
      { kind := 1, number := x.sid, rx := x.rx, role := x.role, credits := x.credits.giveBack, cmds := x.cmds,
        posA := x.nextExpected.toNat, posB := x.hostAck.toNat, lastAdm := x.lastAdm, at_ := s.now }).raiseWindows

/-- Free a queue pair once nothing is outstanding: its credits are returned; the number stays unused for 2 s. A halt ends
with a disconnect that names the slot (R162). -/
def State.endQp (s : State) (uid : Nat) : State :=
  match s.tr.qps.find? fun q => q.uid == uid with
  | none => s
  | some q =>
    let s := match q.haltSlot with
      | some k => s.sendRoce q.rx q.qp (.disconnect stInvalid k) 4
      | none => s
    (s.setTr fun t => ({ t with qps := t.qps.map fun (y : Qp) => if y.uid = uid then
        { y with st := .freed s.now, credits := y.credits.giveBack } else y }).addEnded
      { kind := 2, number := q.qp, rx := q.rx, role := q.role, credits := q.credits.giveBack, cmds := q.cmds,
        posA := q.fetchPos + 65536 * q.cqTail, posB := q.cqHead, lastAdm := q.lastAdm, at_ := s.now }).raiseWindows

/-- One more command completed, in a command-count ledger (R34). -/
def CmdLedger.finish (l : CmdLedger) : CmdLedger :=
  { l with completed := l.completed + 1, outstanding := l.outstanding - 1 }

/-- One more command admitted. -/
def CmdLedger.admitOne (l : CmdLedger) : CmdLedger :=
  { l with admitted := l.admitted + 1, outstanding := l.outstanding + 1 }

/-- Whether an entry of a duplicate window keeps a response payload. -/
def DupEntry.keeps (d : DupEntry) : Bool := d.cpl.any fun c => !c.payload.isEmpty

/-- Keep at most 262,144 payload bytes in a duplicate window, evicting the oldest payload first: the one whose completion was
written first (R142). -/
def evictDup : Nat → List DupEntry → List DupEntry
  | 0, l => l
  | n + 1, l =>
    let size := sumBy l fun d => (d.cpl.map fun c => c.payload.length).getD 0
    if size ≤ 262144 then l
    else
      match l.find? fun d => d.keeps && l.all fun x => !x.keeps || decide (d.doneAt ≤ x.doneAt) with
      | none => l
      | some v => evictDup n (l.map fun d =>
          if d.seq = v.seq then { d with evicted := true, cpl := d.cpl.map fun c => { c with payload := [] } } else d)

/-- Where a session stands once its last outstanding command has completed: one that expired or was closed by a new HELLO
is freed (R144); one that is closing waits for CLOSE_ACK (R145). -/
def State.settleSession (s : State) (uid : Nat) : State :=
  match s.tr.sessions.find? fun x => x.uid == uid with
  | some x => if x.st == .expired && x.cmds.outstanding == 0 then s.freeSession uid else s
  | none => s

/-- The same for a queue pair that is ending (R162). -/
def State.settleQp (s : State) (uid : Nat) : State :=
  match s.tr.qps.find? fun q => q.uid == uid with
  | some q =>
    match q.st with
    | .ended _ => if q.cmds.outstanding == 0 then s.endQp uid else s
    | _ => s
  | none => s

-- Commit points (R90).

/-- An argument field, at the byte offset the manual gives within the entry (40-63). -/
def Entry.arg (e : Entry) (byte len : Nat) : Nat := fieldAt e.args (byte - 40) len

/-- Value bytes of a PUT_PART (R99). -/
def Entry.partLen (e : Entry) : Nat := e.reqLen - align8 e.keyLen

/-- Whether a PUT_PART is the final part of its value (R51). -/
def Entry.isFinal (e : Entry) : Bool := e.arg 40 4 + e.partLen == e.arg 44 4

/-- Opcodes whose commit point is admission (R90). -/
def commitAtAdmission (op : Nat) : Bool :=
  [0x0A, 0x10, 0x11, 0x12, 0x18, 0x19, 0x21, 0x29, 0x32, 0x33, 0x40].contains op

/-- Opcodes whose commit point is the beginning of their response (R90). -/
def commitAtResponse (op : Nat) : Bool := [0x02, 0x04, 0x06, 0x07, 0x0B, 0x20, 0x22, 0x28, 0x39, 0x41].contains op

/-- Whether a command whose completion is ready, but not yet written, still stands before its commit point (R90): FLUSH and a non-final
part commit when it is written, a read when the first byte of its response is; a command that was refused never commits. -/
def Cmd.earlyAt (c : Cmd) (st : BitVec 16) (payload : Bytes) : Bool :=
  let op := c.entry.opcode
  !commitAtAdmission op && !c.committed &&
    (op == 0x09 || (op == 0x08 && !c.entry.isFinal) || (commitAtResponse op && payload.isEmpty) ||
      (!commitAtResponse op && st != stOk && st != stUpdBadBlock))

-- Read references (R186).

/-- Drop read references on Landing records; a drained record that none holds any more gives up its cells (R182, R186). -/
def Landing.dropRefs (l : Landing) (ids : List Nat) : Landing :=
  let recs := l.recs.map fun r => { r with refs := r.refs - ids.count r.id }
  let gone := recs.filter fun r => r.st == .drained && r.refs == 0
  let n := sumBy gone fun r => r.cells.length
  { l with recs := recs.filter fun r => !(r.st == .drained && r.refs == 0), freeCells := l.freeCells + n, inUse := l.inUse - n,
           stagingUsed := l.stagingUsed - sumBy gone fun r => r.staging }

/-- Drop the read references a command holds. -/
def State.dropRefs (s : State) (ids : List Nat) : State := if ids.isEmpty then s else s.setLand fun l => l.dropRefs ids

-- Completion.

/-- Post the commands held while their home CP drained, once its mailbox is empty: to its substitute in the other half (R26). -/
def Mailbox.settle (m : Mailbox) : Mailbox :=
  let empty := fun (x : Nat × Nat) => (m.cp.getD x.1 []).isEmpty
  { m with cp := (m.moving.filter empty).foldl (fun l x => modAt l ((x.1 + 4) % 8) fun q => q ++ [x.2]) m.cp
           moving := m.moving.filter fun x => !empty x }

/-- Drop a command from its mailbox. -/
def Mailbox.drop (m : Mailbox) (adm : Nat) : Mailbox :=
  Mailbox.settle { m with cp := m.cp.map (fun l => l.filter fun a => a != adm)
                          sup := m.sup.filter (fun a => a != adm)
                          moving := m.moving.filter fun x => x.2 != adm }

/-- Take a completed command out of the module: the mailboxes, and the FLUSHes that cover it when it had no effect (R69). -/
def State.retireCmd (s : State) (c : Cmd) (st : Status) : State :=
  let s := (s.setCmds fun l => l.filter fun x => x.adm != c.adm).setMbx fun m => m.drop c.adm
  let s := s.setKv fun k =>
    if st == stOk then k else { k with flushes := k.flushes.map fun f => { f with covered := f.covered.filter fun a => a != c.adm } }
  s.setUpd fun u => if c.home < 8 then { u with cpDone := u.cpDone ||| BitVec.ofNat 8 (2 ^ c.home) } else u

/-- Deliver a completion to a Skiff session (R138, R141, R142, R144). -/
def State.deliverSkiff (s : State) (uid : Nat) (k : Completion) : State :=
  match s.tr.sessions.find? fun x => x.uid == uid with
  | none => s
  | some x =>
    let k := { k with def_ := x.defFlag }
    let sent := x.st != .expired
    let x' := { x with cmds := x.cmds.finish, defFlag := if sent then false else x.defFlag
                       dup := evictDup x.dup.length (x.dup.map fun d => if d.adm = k.adm then { d with cpl := some k, doneAt := s.now } else d) }
    let s := s.setTr fun t => { t with sessions := t.sessions.map fun y => if y.uid = uid then x' else y }
    let s := if sent then s.sendRsp x' k.seq k 0 else s
    s.settleSession uid

/-- Whether a command's request payload may be asked for: PUT and a final PUT_PART only once their cells are reserved (R155). -/
def Cmd.payReady (c : Cmd) : Bool :=
  !(c.entry.opcode == 0x01 || (c.entry.opcode == 0x08 && c.entry.isFinal)) || c.st == .filling

/-- Ask for the request payloads of a queue pair's commands, at most `fuel` of them: in admission order, so that one that is not ready
holds those behind it (R155), and within the 16 RDMA Reads of a connection (R147). A queue pair stops while its port has no link (R32). -/
def State.pumpPayloads : Nat → State → Nat → State
  | 0, s, _ => s
  | n + 1, s, uid =>
    match s.tr.qps.find? fun q => q.uid == uid with
    | none => s
    | some q =>
      let open_ := match q.st with
        | .opened => true
        | .ended d => d
        | .freed _ => false
      match s.cmds.find? fun c => c.src == .ferry uid && c.payload.isNone && !c.noFetch && !q.payReads.contains c.adm with
      | none => s
      | some c =>
        if open_ && (s.port q.rx.port).link && s.life.svc.isNone && c.payReady && decide (q.reads.length + q.payReads.length < 16) then
          let s := s.setTr fun t => { t with qps := t.qps.map fun y =>
            if y.uid = uid then { y with payReads := y.payReads ++ [c.adm], sentAt := s.now } else y }
          State.pumpPayloads n (s.sendRoce q.rx q.qp (.readPayload c.entry.reqAddr c.entry.reqRkey c.entry.reqLen) 16) uid
        else s

/-- Ask for what payloads a source's commands may now fetch. -/
def State.pumpPay (s : State) (src : Source) : State :=
  match src with
  | .ferry uid => s.pumpPayloads 16 uid
  | _ => s

/-- Hand a completion to a queue pair: its response payload is written now, its entry by COMPLETION_WRITE (R83, R157); on a
connection that no longer accepts writes it is only counted (R162). -/
def State.deliverFerry (s : State) (uid : Nat) (k : Completion) : State :=
  match s.tr.qps.find? fun q => q.uid == uid with
  | none => s
  | some q =>
    let live := match q.st with
      | .opened => true
      | .ended d => d
      | .freed _ => false
    if live then
      let s := s.setTr fun t => { t with qps := t.qps.map fun y =>
        if y.uid = uid then { y with cplWait := y.cplWait ++ [{ k with payload := [] }] } else y }
      if k.payload.isEmpty then s
      else s.sendRoce q.rx q.qp (.writePayload k.respAddr k.respRkey k.payload) k.payload.length
    else
      (s.setTr fun t => { t with qps := t.qps.map fun y =>
        if y.uid = uid then { y with cmds := y.cmds.finish } else y }).settleQp uid

/-- Write a completion of the side-band mailbox into the response buffer (R461, R462). -/
def State.deliverMbx (s : State) (k : Completion) : State :=
  s.setMbx fun m =>
    { m with rspBuf := writeCells (writeCells m.rspBuf 0 (k.entry false)) 64 (k.payload.take 16320)
             rspLen := BitVec.ofNat 16 (32 + (k.payload.take 16320).length)
             mbxState := 2, intStatus := m.intStatus ||| 1, cmds := m.cmds.finish
             cancelled := m.cancelled || (m.cancelPending && k.status == stAborted)
             cancelLate := m.cancelLate || (m.cancelPending && k.status != stAborted)
             cancelPending := false }

/-- An internal command of the Mirror receiver has ended (R305): its messages count as applied, and lapplied advances. One that a
service reset ended is applied again (R322). -/
def State.deliverMirror (s : State) (k : Completion) : State :=
  ((s.setTr fun t => { t with mirrorCmds := t.mirrorCmds.finish }).setMir fun m =>
    { m with applyq := m.applyq.map fun (r : MRecv) =>
      if r.adm = some k.adm then
        (if k.status = stAborted then { r with adm := none, gathered := false } else { r with done := some k.status })
      else r }).mirrorAdvance

/-- Hand a completion to the source of its command. -/
def State.deliver (s : State) (c : Cmd) (k : Completion) : State :=
  match c.src with
  | .skiff uid => s.deliverSkiff uid k
  | .ferry uid => (s.deliverFerry uid k).pumpPay c.src
  | .mbx => s.deliverMbx k
  | .mirror => s.deliverMirror k

/-- The copies of a command's response are complete now that its writes are posted, or what it was copying is stopped; then its read references
are dropped (R286, R287). -/
def State.endCopies (s : State) (c : Cmd) (none_ : Bool) : State := ((if none_ then s.stopMove c.adm else s.moved c.adm)).dropRefs c.refs

/-- Complete a command: exactly one completion, with its admission sequence number (R85, R88). `result0` and `result1` are
given as the command's section states them for the status (R86). -/
def State.complete (s : State) (c : Cmd) (st : Status) (r0 r1 : Nat) (payload : Bytes) : State :=
  let k : Completion := { adm := c.adm, tag := c.entry.tag, status := st, result0 := r0 % 2 ^ 64, result1 := r1 % 2 ^ 64,
                          payload := payload, sqHead := c.sqHead, seq := c.seq, respAddr := c.entry.respAddr, respRkey := c.entry.respRkey,
                          early := c.earlyAt st payload, abort := c.entry.opcode == 0x0A,
                          part := if c.entry.opcode = 0x08 && st = stOk && !c.entry.isFinal then c.rec_.map fun r => (r, c.entry.arg 40 4) else none }
  (((s.retireCmd c st).copyPayload c payload).deliver c k).endCopies c payload.isEmpty

/-- Complete with a status other than ST_OK and no results (R86). -/
def State.fail (s : State) (c : Cmd) (st : Status) : State := s.complete c st 0 0 []

/-- Complete with ST_OK. -/
def State.ok (s : State) (c : Cmd) (r0 r1 : Nat) : State := s.complete c stOk r0 r1 []

/-- The longest response of a command: the lower of resp_len and its transport's maximum (R83, R125, R461). -/
def Cmd.respRoom (c : Cmd) : Nat := min c.entry.respLen c.maxResp

/-- Complete with ST_OK and a structure of fixed length, or with ST_BUFFER_SHORT and that length in result0 where the
section says so (R323, R392). -/
def State.okStruct (s : State) (c : Cmd) (r0 : Nat) (body : Bytes) : State :=
  s.complete c stOk r0 0 body

/-- Set DEF for a deferred error (R71): on the writer's source if it is open, else on every open session and queue pair.
Answers whether the writer was gone. -/
def State.setDef (s : State) (src : Source) : State × Bool :=
  let isOpen := match src with
    | .skiff u => s.tr.sessions.any fun x => x.uid == u && x.st == .opened
    | .ferry u => s.tr.qps.any fun q => q.uid == u && q.st == .opened
    | _ => false
  let s := s.setTr fun t =>
    { t with sessions := t.sessions.map (fun x =>
               if (isOpen && src == .skiff x.uid) || (!isOpen && x.st == .opened) then { x with defFlag := true } else x)
             qps := t.qps.map (fun q =>
               if (isOpen && src == .ferry q.uid) || (!isOpen && q.st == .opened) then { q with defFlag := true } else q) }
  (s, !isOpen)

end Sys2Proof.Machine
end

