-- ==== Sys2Proof/Machine/Operands.lean ====
section
/-! DEFINITION. The operand forms: the submission entry (03 R81, R82), which fields each opcode takes (03 R89-R120), its role
(03 R90), and check 1 of 02 R75. -/

namespace Sys2Proof.Machine

/-- The fields of a 64-byte submission entry (R81). -/
def parseEntry (b : Bytes) : Entry :=
  let f := fieldAt b
  { opcode := f 0 1, durability := f 1 1 % 4, rsv1 := f 1 1 / 4, tag := BitVec.ofNat 16 (f 2 2), ks := f 4 1, keyLen := f 5 1,
    rsv6 := f 6 2, reqAddr := f 8 8, reqRkey := f 16 4, reqLen := f 20 4, respAddr := f 24 8, respRkey := f 32 4, respLen := f 36 4,
    args := slice b 40 24 }

/-- The opcodes of release line 3.2 (R90). -/
def opDefined (op : Nat) : Bool :=
  [0x01, 0x02, 0x03, 0x04, 0x05, 0x06, 0x07, 0x08, 0x09, 0x0A, 0x0B, 0x10, 0x11, 0x12, 0x18, 0x19, 0x20, 0x21, 0x22, 0x28, 0x29,
   0x30, 0x31, 0x32, 0x33, 0x38, 0x39, 0x40, 0x41].contains op

/-- Whether an opcode is served on a part (R8, R113). -/
def opServed (p : Part) (op : Nat) : Bool := opDefined op && (p.ta || !(op == 0x40 || op == 0x41))

/-- The features of release line 3.2 (R117). -/
def featureIds : List Nat := [0x0001, 0x0002, 0x0003, 0x0004, 0x0005, 0x0008, 0x0009, 0x000A, 0x000B, 0x000C, 0x0010, 0x0011,
  0x0014, 0x0015, 0x0020]

/-- Features whose ks field is a port (R117). -/
def featurePerPort (f : Nat) : Bool := f == 0x10 || f == 0x11 || f == 0x14 || f == 0x15

/-- Whether an opcode needs the administrator role (R90); SET_FEATURE by its feature: the operator may set 0x0001 and 0x0002, and an
id without a role of its own, undefined or SANITIZE_STATUS, is refused by its own rule and not by the role (R116, R117). -/
def needsAdmin (e : Entry) : Bool :=
  if e.opcode = 0x21 then
    featureIds.contains (e.arg 40 2) && !(e.arg 40 2 == 0x0001 || e.arg 40 2 == 0x0002 || e.arg 40 2 == 0x000C)
  else [0x10, 0x11, 0x12, 0x18, 0x19, 0x29, 0x30, 0x31, 0x32, 0x33, 0x40].contains e.opcode

/-- Opcodes executed by the active SUP: SUMMARY and 0x10 to 0x41 (R490). -/
def supOp (op : Nat) : Bool := op == 0x0B || decide (0x10 ≤ op)

/-- Argument bytes an opcode defines, as (first byte, length). -/
def argFields (op : Nat) : List (Nat × Nat) :=
  match op with
  | 0x01 => [(40, 4)]
  | 0x02 => [(40, 4), (48, 8)]
  | 0x05 => [(40, 1)]
  | 0x06 => [(40, 3)]
  | 0x07 => [(40, 2)]
  | 0x08 => [(40, 8)]
  | 0x0A => [(40, 2)]
  | 0x10 | 0x12 => [(40, 1), (48, 12)]
  | 0x18 | 0x19 => [(40, 1)]
  | 0x21 => [(40, 2), (48, 16)]
  | 0x22 => [(40, 2)]
  | 0x28 => [(40, 1), (48, 12)]
  | 0x29 => [(40, 1)]
  | 0x31 => [(40, 8)]
  | 0x39 => [(40, 1), (44, 4)]
  | 0x40 => [(40, 1)]
  | _ => []

/-- Whether every argument byte an opcode does not define is zero (R81, R15). -/
def argsClean (e : Entry) : Bool :=
  (List.range 24).all fun i =>
    (argFields e.opcode).any (fun f => decide (f.1 ≤ 40 + i) && decide (40 + i < f.1 + f.2)) || e.args.getD i 0 == 0

/-- Opcodes that name one key (R75 check 4). -/
def hasKey (op : Nat) : Bool := [0x01, 0x02, 0x03, 0x04, 0x05, 0x08].contains op

/-- Opcodes that name a key space (R41, R89), MGET aside. -/
def namesKs (op : Nat) : Bool := hasKey op || [0x06, 0x09, 0x10, 0x11, 0x12].contains op

/-- Opcodes that take a durability (R67). -/
def takesDurability (op : Nat) : Bool := [0x01, 0x03, 0x08, 0x12].contains op

/-- A request length that a key of length `k` and a second byte string of length `n` imply (R82). -/
def impliedLen (k n req : Nat) : Bool := if n = 0 then req == k || req == align8 k else req == align8 k + n

/-- Whether req_len is the length the command's own fields imply (R82, R97, R99, R118), within the 16,777,472 bytes of R125; only an
MGET's own fields leave it free. The lengths whose failure another
rule decides (UPD_OFFER by R366, MIRROR_CFG by R309) are not tested here. -/
def reqLenOk (e : Entry) : Bool :=
  match e.opcode with
  | 0x01 => decide (16777216 < e.arg 40 4) || impliedLen e.keyLen (e.arg 40 4) e.reqLen
  | 0x02 | 0x03 | 0x04 => e.reqLen == e.keyLen
  | 0x05 => impliedLen e.keyLen (e.arg 40 1) e.reqLen
  | 0x06 => impliedLen e.keyLen (e.arg 42 1) e.reqLen
  | 0x07 => decide (8 * e.arg 40 2 ≤ e.reqLen) && decide (e.reqLen ≤ 16777472)
  | 0x08 => decide (16777216 < e.arg 44 4) ||
      (decide (align8 e.keyLen + 1 ≤ e.reqLen) && decide (e.reqLen ≤ align8 e.keyLen + 8192))
  | 0x30 | 0x40 => decide (e.reqLen ≤ 16777472)
  | 0x31 => decide (1 ≤ e.reqLen) && decide (e.reqLen ≤ 8192)
  | 0x38 => e.reqLen == 32
  | _ => e.reqLen == 0

/-- Whether the field values an opcode defines are in range (R75 check 1), apart from those another rule decides later. -/
def fieldsOk (e : Entry) : Bool :=
  match e.opcode with
  | 0x02 => e.arg 48 6 != 0 || e.arg 54 2 == 0
  | 0x05 => decide (e.arg 40 1 ≤ 240)
  | 0x06 => decide (1 ≤ e.arg 40 2) && decide (e.arg 40 2 ≤ 4096) && decide (e.arg 42 1 ≤ 240)
  | 0x07 => decide (1 ≤ e.arg 40 2) && decide (e.arg 40 2 ≤ 1024)
  | 0x08 => decide (1 ≤ e.arg 44 4)
  | 0x10 => decide (e.arg 40 1 < 16) && bitsOf (e.arg 40 1) 2 1 != 3
  | 0x12 => decide (1 ≤ e.arg 40 1) && decide (e.arg 40 1 < 4) && !(e.ks == 0xFF && decide (2 ≤ e.arg 40 1))
  | 0x18 => decide (e.arg 40 1 ≤ 1)
  | 0x19 => decide (1 ≤ e.arg 40 1) && decide (e.arg 40 1 ≤ 3)
  | 0x31 => e.arg 44 4 % 8192 == 0
  | _ => true

/-- Check 1 of R75: reserved fields zero and field values in range. On Skiff and the side-band mailbox the addresses and
remote keys must be 0 (R81, R460). -/
def Cmd.formatOk (c : Cmd) : Bool :=
  let e := c.entry
  let local_ := match c.src with
    | .ferry _ => true
    | _ => e.reqAddr == 0 && e.reqRkey == 0 && e.respAddr == 0 && e.respRkey == 0
  e.rsv1 == 0 && e.rsv6 == 0 && local_ && argsClean e && decide (e.durability ≠ 3) &&
    (takesDurability e.opcode || e.durability == 0) &&
    (namesKs e.opcode || e.opcode == 0x21 || e.opcode == 0x22 || e.opcode == 0x40 || e.ks == 0) &&
    (hasKey e.opcode || e.opcode == 0x06 || e.keyLen == 0) && reqLenOk e && fieldsOk e

/-- Check 2 of R75 (R41, R89). -/
def Entry.ksInRange (e : Entry) : Bool := decide (e.ks ≤ 63) || (e.ks == 0xFF && (e.opcode == 0x09 || e.opcode == 0x12))

/-- Check 4 of R75 (R46, R89): the status of a key length, or none. -/
def keyLenStatus (op n : Nat) : Option Status :=
  if 240 < n then some stKeyTooLong else if n = 0 && op != 0x06 then some stInvalid else none

/-- The key, or first bound, that the request payload begins with (R82). -/
def Entry.keyOf (e : Entry) (payload : Bytes) : Bytes := payload.take e.keyLen

/-- The second byte string, or the value, behind the key (R82). -/
def Entry.tailOf (e : Entry) (payload : Bytes) (n : Nat) : Bytes := slice payload (align8 e.keyLen) n

/-- The role a command needs, and whether its source has it (R88 check c, R400). A chain-ferry session may issue only IDENT,
SUMMARY, UPD_OFFER and UPD_BLOCK, one with the operator role too: R400 goes before R122 there (DEDUCED, log 73). -/
def Cmd.permitted (c : Cmd) : Bool :=
  if c.chainFerry then [0x20, 0x0B, 0x30, 0x31].contains c.entry.opcode
  else decide (c.role = 1) || !needsAdmin c.entry

/-- A transfer that would run past the host's address space (R163). -/
def Cmd.addrOverflow (c : Cmd) : Bool :=
  match c.src with
  | .ferry _ => decide (2 ^ 64 < c.entry.reqAddr + c.entry.reqLen) || decide (2 ^ 64 < c.entry.respAddr + c.entry.respLen)
  | _ => false

/-- Whether the module serves a command in its present image and mode (R388, R464). -/
def State.modeServes (s : State) (op : Nat) : Bool :=
  if s.life.phase = 10 then [0x0B, 0x20, 0x22, 0x21, 0x28, 0x29, 0x39, 0x38].contains op
  else if s.life.recovery then [0x20, 0x0B, 0x22, 0x28, 0x38, 0x39, 0x19, 0x30, 0x31, 0x32, 0x33].contains op
  else true

/-- The checks made after admission, a to c of R88 and the address check of R163: the status that refuses, or none. R163 asks for its
check before any transfer and names no place among the others; it stands behind check c and ahead of check 1 of R75
(DESIGN CHOICE, log 40). Check b asks what stood at admission (R111). -/
def State.admissionStatus (s : State) (c : Cmd) : Option Status :=
  let op := c.entry.opcode
  let sanServed := op == 0x0B || op == 0x20 || op == 0x0A || (op == 0x22 && c.entry.arg 40 2 == 0x000C)
  if !opServed s.part op || !s.modeServes op then some stUnsupported
  else if c.inSan && !sanServed then some stSanitizing
  else if !c.permitted then some stDenied
  else if c.addrOverflow then some stHostAccess
  else none

/-- Whether an opcode's command reads or writes keys as PUT, DELETE or DISCARD_RANGE does (a write) or not. -/
def isWrite (op : Nat) : Bool := [0x01, 0x03, 0x05, 0x08].contains op

/-- The keys and the range a command names, as (ks, lower, upper, whether a range); an empty upper bound is none (R25). -/
def Cmd.footprint (c : Cmd) : List (Nat × Bytes × Bytes × Bool) :=
  let e := c.entry
  let p := c.payload.getD []
  match e.opcode with
  | 0x05 => [(e.ks, c.key, e.tailOf p (e.arg 40 1), true)]
  | 0x06 => [(e.ks, c.key, e.tailOf p (e.arg 42 1), true)]
  | 0x07 => (List.range (e.arg 40 2)).map fun i =>
      (fieldAt p (8 * i + 5) 1, slice p (fieldAt p (8 * i) 4) (fieldAt p (8 * i + 4) 1), [], false)
  | _ => if hasKey e.opcode then [(e.ks, c.key, [], false)] else []

/-- Whether two footprints meet. -/
def meet (a b : Nat × Bytes × Bytes × Bool) : Bool :=
  a.1 == b.1 &&
    match a.2.2.2, b.2.2.2 with
    | false, false => a.2.1 == b.2.1
    | true, false => inRange a.2.1 a.2.2.1 b.2.1
    | false, true => inRange b.2.1 b.2.2.1 a.2.1
    | true, true => (a.2.2.1.isEmpty || keyLt b.2.1 a.2.2.1) && (b.2.2.1.isEmpty || keyLt a.2.1 b.2.2.1)

/-- Whether a command's effect is still to be made, so that later commands on its keys wait for it (R58). -/
def Cmd.undecided (c : Cmd) : Bool :=
  match c.st with
  | .posted | .waiting _ | .filling | .staged | .reading | .checking => true
  | .mirrorWait => c.entry.arg 40 1 == 3
  | _ => false

/-- Whether a command's keys stand in a payload that has not come yet: MGET over Ferry (R25, R155). -/
def Cmd.unplaced (c : Cmd) : Bool := c.entry.opcode == 0x07 && c.payload.isNone

/-- Whether two commands may touch one key; one whose keys are not known yet may touch any (R25). -/
def Cmd.touches (e c : Cmd) : Bool :=
  e.unplaced || c.unplaced || e.footprint.any fun a => c.footprint.any fun b => meet a b

/-- Whether a command concerns a key space: it names a key or range of it, or is a FLUSH of it (R44, R107). -/
def Cmd.concerns (c : Cmd) (ks : Nat) : Bool :=
  (c.footprint.any fun b => b.1 == ks) || (c.entry.opcode == 0x09 && (c.entry.ks == ks || c.entry.ks == 0xFF))

/-- Whether a key-space or feature command not yet executed decides how `c` runs: it is of `c`'s key space, of all of them (an
UNPAIR too), or the administrative hold of every write (R44, R76, R116, R311). -/
def Cmd.governs (e c : Cmd) : Bool :=
  [0x10, 0x11, 0x12, 0x21, 0x40].contains e.entry.opcode && !supOp c.entry.opcode &&
    ((e.entry.opcode == 0x12 && e.entry.ks == 0xFF) || (e.entry.opcode == 0x40 && e.entry.arg 40 1 == 2) || (e.entry.opcode == 0x21 && e.entry.arg 40 2 == 0x0009 && isWrite c.entry.opcode) ||
      c.unplaced || c.concerns e.entry.ks)

/-- Whether an earlier command must be decided before `c` takes its turn: both touch one key and at least one writes it
(R25, R58), or it is a key-space or feature command that decides how `c` runs (R44, R76, R116). -/
def Cmd.blocks (e c : Cmd) : Bool :=
  decide (e.adm < c.adm) && e.undecided &&
    (((isWrite e.entry.opcode || isWrite c.entry.opcode) && e.touches c) || e.governs c)

/-- Whether a command's turn has come: its payload is there where it is needed before execution, and nothing blocks it. -/
def State.turn (s : State) (c : Cmd) : Bool := !(s.cmds.any fun e => e.blocks c)

end Sys2Proof.Machine
end

