-- ==== Sys2Proof/Machine/Index.lean ====
section
/-! DEFINITION. Prism: the keyed digest, buckets, lookup and insertion (05 R167-R177), and the key-level facts a locator
gives. -/

namespace Sys2Proof.Machine

/-- The 64-bit keyed digest of a key in a key space (R167). -/
def State.digest (s : State) (ks : Nat) (key : Bytes) : Nat :=
  (sipHash s.prism.digestKey (BitVec.ofNat 8 ks :: key)).toNat

/-- The home CP of a key (R23). -/
def State.homeCp (s : State) (ks : Nat) (key : Bytes) : Nat := s.digest ks key % 8

/-- Index bits in the mode in force (R166). -/
def State.idxBits (s : State) : Nat := if s.prism.compact then s.part.idxBits - 1 else s.part.idxBits

/-- Whether an entry stands in a bucket, and not in the stash or the spill (R169, R177). -/
def Place.inBucket (p : Place) : Bool :=
  match p with
  | .bucket .. => true
  | _ => false

/-- First-choice bucket (R168). -/
def bucket1 (n digest : Nat) : Nat := bitsOf digest (n + 2) 3

/-- The other bucket of an entry (R168). -/
def otherBucket (n b tag : Nat) : Nat :=
  let m := bitsOf tag (n + 3) 4
  b ^^^ (if m = 0 then 1 else m)

/-- The Landing or staging record of a number. -/
def State.rec? (s : State) (id : Nat) : Option LRec := s.land.recs.find? fun r => r.id == id

/-- The segment of a number, if it is not free. -/
def State.seg? (s : State) (n : Nat) : Option Segment := s.flash.segs.find? fun g => g.seg == n

/-- The record at a place on flash. -/
def State.frec? (s : State) (seg off : Nat) : Option FRec := (s.seg? seg).bind fun g => g.recs.find? fun r => r.off == off

/-- Entries of the lost table (R171). -/
def lostTable : Nat := 1048576

/-- The lost-table entry of an index. -/
def State.lost? (s : State) (i : Nat) : Option LostEntry := (s.kv.lost ++ s.kv.lostOver).find? fun l => l.index == i

/-- Full key of what a locator names, by the stored copy of R172. -/
def State.keyAt (s : State) : Loc → Option (Nat × Bytes)
  | .landing r _ _ => (s.rec? r).map fun x => (x.ks, x.key)
  | .flash g o _ => (s.frec? g o).map fun x => (x.ks, x.key)
  | .lost i => (s.lost? i).map fun x => (x.ks, x.key)

/-- What a locator says of the stored value: length, admission number and boot epoch of the write (R92, R171). -/
def State.infoAt (s : State) : Loc → Option (Nat × Nat × BitVec 16)
  | .landing r _ _ => (s.rec? r).map fun x => (x.len, x.adm, x.epoch)
  | .flash g o _ => (s.frec? g o).map fun x => (x.len, x.adm, x.epoch)
  | .lost i => (s.lost? i).map fun x => (x.len, x.adm, x.epoch)

/-- Whether a locator is the lost form. -/
def Loc.isLost : Loc → Bool
  | .lost _ => true
  | _ => false

/-- Whether an entry is a candidate of a digest: its tag, and one of the two buckets (R168, R172). -/
def IdxEntry.candidate (e : IdxEntry) (n digest : Nat) : Bool :=
  let b1 := bucket1 n digest
  let b2 := otherBucket n b1 (digest / 2 ^ 32)
  e.tag == BitVec.ofNat 32 (digest / 2 ^ 32) &&
    match e.place with
    | .bucket b _ => b == b1 || b == b2
    | .stash | .spill => e.b1 == b1

/-- Lookup of R172: the candidates of both buckets, the stash and the spill table, checked against their full keys. At most one
matches. -/
def State.lookup (s : State) (ks : Nat) (key : Bytes) : Option IdxEntry :=
  s.prism.entries.find? fun e => e.candidate s.idxBits (s.digest ks key) && s.keyAt e.loc == some (ks, key)

/-- The place of a candidate in the order of R172: first-choice bucket, other bucket, stash, spill. -/
def IdxEntry.rank (e : IdxEntry) (b1 : Nat) : Nat :=
  match e.place with
  | .bucket b i => (if b = b1 then 0 else 8) + i
  | .stash => 16
  | .spill => 17

/-- The candidates of a key in list order, up to and with the one that matches (R172): those whose full key is checked. -/
def State.checkedFor (s : State) (ks : Nat) (key : Bytes) : List IdxEntry :=
  let d := s.digest ks key
  let b1 := bucket1 s.idxBits d
  let l := sortBy (fun a b => decide (a.rank b1 < b.rank b1)) (s.prism.entries.filter fun e => e.candidate s.idxBits d)
  let before := l.takeWhile fun e => s.keyAt e.loc != some (ks, key)
  before ++ (l.drop before.length).take 1

/-- stash_hint of a bucket: set while a stash entry has the bucket as a candidate (R169, R176, R177). -/
def Prism.stashHint (p : Prism) (n b : Nat) : Bool :=
  p.entries.any fun e => e.place == .stash && (e.b1 == b || otherBucket n e.b1 e.tag.toNat == b)

/-- spill_hint of a bucket: set while a spill entry has the bucket as a candidate (R169, R201). -/
def Prism.spillHint (p : Prism) (n b : Nat) : Bool :=
  p.entries.any fun e => e.place == .spill && (e.b1 == b || otherBucket n e.b1 e.tag.toNat == b)

/-- Entries held in a bucket. -/
def Prism.inBucket (p : Prism) (b : Nat) : List IdxEntry :=
  p.entries.filter fun e => match e.place with
    | .bucket x _ => x == b
    | _ => false

/-- The lowest free slot of a bucket (R169). -/
def Prism.freeSlot (p : Prism) (b : Nat) : Option Nat :=
  (List.range 5).find? fun i => !(p.inBucket b).any fun e => e.place == .bucket b i

/-- The on-die bucket cache after an access of a bucket: 16 ways in each of its 24,576 sets, least recently used out (R174). -/
def touchBucket (b : Nat) (l : List Nat) : List Nat :=
  (b :: l.filter fun x => x % 24576 == b % 24576 && x != b).take 16 ++ l.filter fun x => x % 24576 != b % 24576

/-- An access of one bucket fills the on-die bucket cache (R174). -/
def State.touch (s : State) (b : Nat) : State := s.setPrism fun p => { p with cacheBuckets := touchBucket b p.cacheBuckets }

/-- An access of both buckets of a key fills the on-die bucket cache (R172, R174). -/
def State.touchBuckets (s : State) (ks : Nat) (key : Bytes) : State :=
  let d := s.digest ks key
  let b1 := bucket1 s.idxBits d
  let b2 := otherBucket s.idxBits b1 (d / 2 ^ 32)
  s.setPrism fun p => { p with cacheBuckets := touchBucket b1 (touchBucket b2 p.cacheBuckets) }

/-- Entries of the stash (R177). -/
def stashSize : Nat := 4096

/-- The stash entries in use (R177). -/
def Prism.stashUsed (p : Prism) : Nat := (p.entries.filter fun e => e.place == .stash).length

/-- The spill-table entries in use (R201). -/
def Prism.spillUsed (p : Prism) : Nat := (p.entries.filter fun e => e.place == .spill).length

/-- The moves of R176 for an entry that found both buckets full: it takes the slot of an entry of bucket `b`, which goes to
its other bucket, and so on for at most `moves` moves; the entry displaced last goes to the stash. Which entry is moved is a free
value. The stash has 4,096 entries: an admitted new key always finds one (`State.pauseGate`), and what a rebuild cannot place goes to the spill
table (R177, R201; DESIGN CHOICE, log 76). -/
def displace (n : Nat) (moves : Nat) (e : IdxEntry) (b : Nat) (s : State) : State :=
  let k := s.freeVal % 5
  let s := s.freeNext.touch b
  match s.prism.entries.find? fun x => x.place == .bucket b k with
  | none => s.setPrism fun p => { p with entries := p.entries ++ [{ e with place := .bucket b k }] }
  | some v =>
    let s := s.setPrism fun p =>
      { p with entries := (p.entries.filter fun x => x.place != .bucket b k) ++ [{ e with place := .bucket b k }] }
    let b' := otherBucket n b v.tag.toNat
    match moves with
    | 0 => s.setPrism fun p => { p with entries := p.entries ++ [{ v with place := if p.stashUsed < stashSize then .stash else .spill }] }
    | m + 1 =>
      match s.prism.freeSlot b' with
      | some i => (s.touch b').setPrism fun p => { p with entries := p.entries ++ [{ v with place := .bucket b' i }] }
      | none => displace n m v b' s

/-- The entry of a key that has no place yet (R168, R169). -/
def State.newEntry (s : State) (ks : Nat) (key : Bytes) (loc : Loc) : IdxEntry :=
  let d := s.digest ks key
  { tag := BitVec.ofNat 32 (d / 2 ^ 32), b1 := bucket1 s.idxBits d, place := .stash, loc := loc }

/-- Insert a new key (R176). -/
def State.insertKey (s : State) (ks : Nat) (key : Bytes) (loc : Loc) : State :=
  let s := s.touchBuckets ks key
  let n := s.idxBits
  let e := s.newEntry ks key loc
  let b1 := e.b1
  let b2 := otherBucket n b1 e.tag.toNat
  match s.prism.freeSlot b1, s.prism.freeSlot b2 with
  | some i, _ => s.setPrism fun p => { p with entries := p.entries ++ [{ e with place := .bucket b1 i }] }
  | none, some i => s.setPrism fun p => { p with entries := p.entries ++ [{ e with place := .bucket b2 i }] }
  | none, none =>
    let b := if s.freeVal % 2 = 0 then b1 else b2
    displace n 32 e b s.freeNext

/-- The bucket cache after the buckets of the entries with a locator were accessed (R174). -/
def Prism.touchLoc (p : Prism) (loc : Loc) : List Nat :=
  p.entries.foldl (fun l e => if e.loc = loc then (match e.place with | .bucket b _ => touchBucket b l | _ => l) else l) p.cacheBuckets

/-- Replace the locator of an entry, checked against the old one (R190, R194). -/
def State.moveLoc (s : State) (old new : Loc) : State :=
  s.setPrism fun p => { p with entries := p.entries.map (fun e => if e.loc = old then { e with loc := new } else e), cacheBuckets := p.touchLoc old }

/-- Remove the entry that holds a locator. -/
def State.removeLoc (s : State) (loc : Loc) : State :=
  s.setPrism fun p => { p with entries := p.entries.filter (fun e => e.loc != loc), cacheBuckets := p.touchLoc loc }

/-- Locator of a Landing record (R170). -/
def LRec.loc (r : LRec) : Loc := .landing r.id (r.cells.headD 0) r.cells.length

/-- Locator of a flash record (R170). -/
def flashLoc (seg : Nat) (r : FRec) : Loc := .flash seg r.off (ceilDiv r.span 512)

/-- Replace a leaf of an ordered tree, or insert it in key order (R180). -/
def setLeaf (l : Leaf) : List Leaf → List Leaf
  | [] => [l]
  | x :: r => if keyLt l.key x.key then l :: x :: r else if l.key = x.key then l :: r else x :: setLeaf l r

-- Ordered-index nodes (R180).

/-- Bytes of an entry in its node: key length, lost flag, value length and key (DESIGN CHOICE, log 62). -/
def leafBytes (l : Leaf) : Nat := 6 + l.key.length

/-- The entries of a level cut into nodes of 16 KiB, filled from the last key on, behind 8 bytes that name the level (R180; the cut is a
DESIGN CHOICE, log 62). -/
def nodesOf (tree : List Leaf) : List (List Leaf) :=
  tree.foldr (fun l acc => match acc with
    | n :: r => if sumBy n leafBytes + leafBytes l ≤ 16376 then (l :: n) :: r else [l] :: n :: r
    | [] => [[l]]) []

/-- The entries of the level above some nodes: each node under its first key, which names it (DESIGN CHOICE, log 62). -/
def innerEntries (nodes : List (List Leaf)) : List Leaf := nodes.filterMap fun n => n.head?.map fun l => ⟨l.key, 0, false⟩

/-- The levels of a tree over the nodes of its lowest one, up to its root. -/
def levelsOver : Nat → List (List Leaf) → List (List (List Leaf))
  | 0, nodes => [nodes]
  | n + 1, nodes => if nodes.length ≤ 1 then [nodes] else nodes :: levelsOver n (nodesOf (innerEntries nodes))

/-- The levels of a B+ tree, the leaf nodes first; a node holds 66 entries or more, and 16 levels hold any tree (R180). -/
def treeLevels (tree : List Leaf) : List (List (List Leaf)) := levelsOver 16 (nodesOf tree)

/-- A node as its record holds it. -/
def encodeNode (level : Nat) (n : List Leaf) : Bytes :=
  le 8 level ++ n.flatMap fun l => le 1 l.key.length ++ le 1 (b2n l.lost) ++ le 4 l.len ++ l.key

/-- The nodes of every ordered key space as the trees stand now: key space, level, entries. -/
def State.treeNodes (s : State) : List (Nat × Nat × List Leaf) :=
  (s.kv.spaces.filter fun k => k.ordered && k.deletedAt.isNone).flatMap fun k =>
    (treeLevels k.tree).zipIdx.flatMap fun lv => lv.1.map fun n => (k.ks, lv.2, n)

/-- Whether a written node has its record on flash. -/
def State.nodeStands (s : State) (n : NodeAt) : Bool := n.place.any fun p => (s.frec? p.1 p.2).isSome

/-- The record of a node as it was last written; none while the node is dirty. -/
def State.savedNode (s : State) (ks level : Nat) (leaves : List Leaf) : Option (Nat × Nat) :=
  (s.prism.nodes.find? fun n => n.ks == ks && n.level == level && n.leaves == leaves && s.nodeStands n).bind fun n => n.place

/-- Whether an internal record is live: its node still stands as it was written (R261). -/
def State.nodeLive (s : State) (seg off : Nat) : Bool :=
  s.prism.nodes.any fun n => n.place == some (seg, off) && s.treeNodes.contains (n.ks, n.level, n.leaves)

/-- Nodes the ordered-index node cache holds (R166, R180). -/
def State.nodeRoom (s : State) : Nat :=
  match s.part, s.prism.compact with
  | .ta16, _ => 262144
  | _, false => 131072
  | _, true => 65536

/-- A written node enters the node cache, or is used again (R180). -/
def State.cacheNode (s : State) (seg off : Nat) : State :=
  s.setPrism fun p => { p with nodeCache := ((seg, off) :: p.nodeCache.filter fun x => x != (seg, off)).take s.nodeRoom }

/-- The record of a node is programmed. -/
def State.placeNode (s : State) (id : Nat) (seg off : Nat) : State :=
  (s.setPrism fun p => { p with nodes := p.nodes.map fun n => if n.id = id then { n with place := some (seg, off) } else n }).cacheNode seg off

/-- The record of a node has been copied to another place (R261). -/
def State.moveNode (s : State) (old new : Nat × Nat) : State :=
  s.setPrism fun p => { p with nodes := p.nodes.map (fun n => if n.place = some old then { n with place := some new } else n)
                               nodeCache := p.nodeCache.map fun x => if x = old then new else x }

/-- A node whose record is lost is dirty again. -/
def State.dropNode (s : State) (seg off : Nat) : State :=
  s.setPrism fun p => { p with nodes := p.nodes.filter (fun n => n.place != some (seg, off)), nodeCache := p.nodeCache.filter fun x => x != (seg, off) }

/-- Nodes that are not programmed yet are dirty again. -/
def State.dropUnplaced (s : State) : State :=
  (s.setPrism fun p => { p with nodes := p.nodes.filter fun n => n.place.isSome }).setFlash fun f => { f with nodeq := [] }

/-- Keys counted on the module, lost and discarded ones included (R178). -/
def State.moduleKeys (s : State) : Nat := sumBy s.kv.spaces fun k => k.keys + k.keysReserved

/-- Value bytes charged on the module (R48). -/
def State.moduleBytes (s : State) : Nat := sumBy s.kv.spaces fun k => k.bytes

/-- Bytes that writes in progress will add. -/
def State.moduleBytesReserved (s : State) : Nat := sumBy s.kv.spaces fun k => k.bytesReserved

/-- adm_seq and boot_epoch of a write in one number: result1 of GET and EXISTS (R92); also the identity of a discarded range
(R193). -/
def writeId (adm : Nat) (ep : BitVec 16) : Nat := adm % 2 ^ 48 + 2 ^ 48 * ep.toNat

/-- Whether a write of (epoch, adm) came before another (R18, R63). -/
def writeBefore (e1 : BitVec 16) (a1 : Nat) (e2 : BitVec 16) (a2 : Nat) : Bool :=
  if e1 = e2 then decide (a1 < a2) else earlier 16 e1.toNat e2.toNat

/-- Whether a key's stored value lies in the undefined window of a discarded range (R63). -/
def State.inWindow (s : State) (ks : Nat) (key : Bytes) (adm : Nat) (epoch : BitVec 16) : Bool :=
  s.kv.ranges.any fun r => r.ks == ks && inRange r.lo r.hi key && writeBefore epoch adm r.epoch r.adm

/-- The index entries whose keys lie in a discarded range and await reclaim (R64), as (ks, key, loc, length). -/
def State.discarded (s : State) : List (Nat × Bytes × Loc × Nat) :=
  if s.kv.ranges.isEmpty then []
  else s.prism.entries.filterMap fun e =>
    match s.keyAt e.loc, s.infoAt e.loc with
    | some (ks, key), some (len, adm, ep) =>
      if s.inWindow ks key adm ep then some (ks, key, e.loc, if e.loc.isLost then 0 else len) else none
    | _, _ => none

/-- Discarded bytes not yet reclaimed (R64, R426). -/
def State.discardPending (s : State) : Nat := sumBy s.discarded fun d => d.2.2.2

/-- Free a lost-table entry and mark its deferred-error entries resolved (R73, R171, R179). -/
def State.freeLost (s : State) (i : Nat) : State :=
  match s.lost? i with
  | none => s
  | some l => s.setKv fun k =>
    { k with lost := k.lost.filter (fun x => x.index != i)
             lostOver := k.lostOver.filter fun x => x.index != i
             deferred := k.deferred.map fun d => if d.ks = l.ks && d.key = l.key then { d with resolved := true } else d }

end Sys2Proof.Machine
end

