-- ==== Sys2Proof/Machine/LandingOps.lean ====
section
/-! DEFINITION. The Landing: reserving and releasing cells, charge and staging (05 R181-R187, R191), journal records
(07 R254), FLUSH coverage (02 R69), and sending a write to the Mirror peer (09 R303, R307, R314). -/

namespace Sys2Proof.Machine

/-- Cells of a record for a value of `n` bytes (R181). -/
def cellsFor (n : Nat) : Nat := max 1 (ceilDiv n 4096)

/-- The `c` lowest-numbered free cells (DESIGN CHOICE, log 8). -/
def lowestFree (c : Nat) (held : List Nat) : List Nat :=
  ((List.range (c + held.length)).filter fun k => !held.contains k).take c

/-- Whether the Landing admits a record of `c` cells now (R183, R37). -/
def Landing.admits (l : Landing) (c : Nat) : Bool := decide (c ≤ l.freeCells) && decide ((c * 24610 : Int) ≤ l.freeCharge)

/-- Write-through staging, 64 MiB (R191). -/
def stagingTotal : Nat := 67108864

/-- Whether staging has room for `n` bytes. -/
def Landing.stagingFree (l : Landing) (n : Nat) : Bool := decide (l.stagingUsed + n ≤ stagingTotal)

/-- Add a record that holds `c` cells and their charge. -/
def State.reserveCells (s : State) (r : LRec) (c : Nat) : State × Nat :=
  let l := s.land
  let r := { r with id := l.nextRec, cells := lowestFree c (l.recs.flatMap fun x => x.cells), charged := true }
  (s.setLand fun l => { l with recs := l.recs ++ [r], nextRec := l.nextRec + 1, freeCells := l.freeCells - c, inUse := l.inUse + c,
                               resLanding := l.resLanding + c * 24610, freeCharge := l.freeCharge - c * 24610 }, l.nextRec)

/-- Add a write-through record that holds staging (R191). -/
def State.reserveStaging (s : State) (r : LRec) (n : Nat) : State × Nat :=
  let l := s.land
  (s.setLand fun l => { l with recs := l.recs ++ [{ r with id := l.nextRec, wt := true, staging := n }], nextRec := l.nextRec + 1,
                               stagingUsed := l.stagingUsed + n }, l.nextRec)

/-- The cell that follows a cell in its record, as the link table gives it (R181). -/
def Landing.link (l : Landing) (cell : Nat) : Option Nat :=
  (l.recs.find? fun r => r.cells.contains cell).bind fun r => ((r.cells.dropWhile fun c => c != cell).drop 1).head?

/-- Whether the last cell has room for the copy of header and key that lets the drain read the record as one run (R181). -/
def LRec.tailCopy (r : LRec) : Bool := decide (320 ≤ 4096 * r.cells.length - r.len)

/-- The record header table (R181): a record's slot is that of its first cell (DESIGN CHOICE, log 8). -/
def Landing.headerAt (l : Landing) (slot : Nat) : Option LRec := l.recs.find? fun r => r.cells.head? == some slot

/-- Change a record. -/
def State.setRec (s : State) (id : Nat) (f : LRec → LRec) : State :=
  s.setLand fun l => { l with recs := l.recs.map fun r => if r.id = id then f r else r }

/-- Release a record's hold-up charge (R182, R187, R190). The hold-up ledger is frozen while admission has stopped (R222). -/
def State.dropCharge (s : State) (id : Nat) : State :=
  match s.rec? id with
  | none => s
  | some r =>
    if !r.charged then s
    else if s.shutting then s.setRec id fun r => { r with charged := false }
    else (s.setRec id fun r => { r with charged := false }).setLand fun l =>
      { l with resLanding := l.resLanding - r.cells.length * 24610, freeCharge := l.freeCharge + r.cells.length * 24610 }

/-- Free a record: its charge at once, its cells and its staging when no read reference holds them (R182, R186). -/
def State.freeRec (s : State) (id : Nat) : State :=
  let s := s.dropCharge id
  match s.rec? id with
  | none => s
  | some r =>
    if r.refs ≠ 0 then s.setRec id fun r => { r with st := .drained }
    else s.setLand fun l =>
      { l with recs := l.recs.filter fun x => x.id != id, freeCells := l.freeCells + r.cells.length,
               inUse := l.inUse - r.cells.length, stagingUsed := l.stagingUsed - r.staging }

/-- A covered write is done for every FLUSH that covers it (R69). -/
def State.flushCovered (s : State) (adm : Nat) : State :=
  s.setKv fun k => { k with flushes := k.flushes.map fun f => { f with covered := f.covered.filter fun a => a != adm } }

/-- lapplied has passed a write: FLUSHes no longer wait for its acknowledgement (R302). -/
def State.flushAcked (s : State) (adm : Nat) : State :=
  s.setKv fun k => { k with flushes := k.flushes.map fun f => { f with acks := f.acks.filter fun a => a != adm } }

/-- A record is superseded by a later write of its key (R187). A DELETE or DISCARD_RANGE record never is. -/
def State.supersede (s : State) (id : Nat) : State :=
  match s.rec? id with
  | none => s
  | some r =>
    if r.kind != .value then s
    else
      let s := s.setRec id fun r => { r with superseded := true, st := if r.st = .visible then .superseded else r.st }
      let s := (s.flushCovered r.adm).flushAcked r.adm
      if r.st == .visible && r.waiters.isEmpty then s.freeRec id else s

-- The journal.

/-- Bytes of a locator's key in a record: the digest, and the key with its length in an ordered key space (R193). -/
def keyBytes (ord : Bool) (key : Bytes) : Nat := 8 + (if ord then 1 + key.length else 0)

/-- Length of a journal record: its 16-byte header and its contents (R193, R255, R256); `ord` tells the ordered key spaces. The
contents stand in the widths the manual gives the fields elsewhere (DESIGN CHOICE, log 16). -/
def JRec.size (ord : Nat → Bool) : JRec → Nat
  | .mapSet ks k .. => 16 + 1 + keyBytes (ord ks) k + 8 + 4 + 6 + 2
  | .mapDead .. => 16 + 1 + 8
  | .mapDelete ks k _ => 16 + 1 + keyBytes (ord ks) k + 6
  | .mapMove ks k .. => 16 + 1 + keyBytes (ord ks) k + 16
  | .mapLost ks k .. => 16 + 1 + keyBytes (ord ks) k + 4 + 4 + 6 + 2
  | .mapReclaim ks k => 16 + 1 + keyBytes (ord ks) k
  | .rangeDiscard _ _ lo hi .. => 16 + 1 + 2 + 6 + 2 + lo.length + hi.length
  | .rangeDone .. => 16 + 1 + 8
  | .ckptBegin .. => 16 + 1 + 8
  | .ckptDone _ _ st ks => 16 + 1 + 8 + 2 + 16 * st.length + 9 * ks.length
  | .segOpen .. => 16 + 2 + 1 + 1 + 4
  | .segSeal .. => 16 + 2 + 2 + 2 + 1
  | .segCopyBegin .. => 16 + 2 + 1
  | .copyDone .. => 16 + 2 + 4 + 4
  | .eraseIntent _ => 16 + 2
  | .eraseDone _ l => 16 + 2 + 4 * l.length
  | .blockRetire .. => 16 + 1 + 1 + 2 + 1 + 2
  | .dieRetire .. => 16 + 2
  | .channelRetire _ => 16 + 1
  | .jrnlClose _ => 16 + 8

/-- Whether a key space is ordered; one that is gone counts as unordered. -/
def State.orderedKs (s : State) (ks : Nat) : Bool := (s.kv.spaces.find? fun k => k.ks == ks && k.deletedAt.isNone).any fun k => k.ordered

/-- Length of a journal record now; what of a stash image does not fit a page stands in the checkpoint area, like the page directory
(R256). -/
def State.jSize (s : State) (r : JRec) : Nat := min 16384 (r.size s.orderedKs)

/-- The records that fill journal pages of 16,384 bytes, `pages` of them, in order and none across two pages (R254). -/
def fillPages (size : JRec → Nat) : Nat → Nat → List (Nat × JRec) → List (Nat × JRec)
  | _, _, [] => []
  | pages, room, r :: l =>
    if size r.2 ≤ room then r :: fillPages size pages (room - size r.2) l
    else match pages with
      | p + 2 => r :: fillPages size (p + 1) (16384 - size r.2) l
      | _ => []

/-- Append a record to the page being filled, at a clock (R254). -/
def Journal.append (j : Journal) (now : Nat) (r : JRec) (wait : Bool) : Journal :=
  { j with page := j.page ++ [(j.jseqNext, r)], marks := j.marks ++ [(now, wait)], jseqNext := j.jseqNext + 1 }

/-- Clock of the page's first record (R254). -/
def Journal.pageSince (j : Journal) : Option Nat := j.marks.head?.map fun m => m.1

/-- Whether a record of the page has a waiter (R254). -/
def Journal.waiters (j : Journal) : Bool := j.marks.any fun m => m.2

/-- Program units that the records of the pages not programmed yet take (R254); `fuel` is at least their number. -/
def State.pageUnits (s : State) : Nat → List (Nat × JRec) → Nat
  | 0, _ => 0
  | _, [] => 0
  | fuel + 1, l => 1 + s.pageUnits fuel (l.drop (max 1 (fillPages s.jSize 2 16384 l).length))

/-- Whether the journal page must be programmed now: it is full, a record in it has a waiter, or 2 ms have passed since its
first record (R254). -/
def State.journalDue (s : State) : Bool :=
  s.jrn.waiters || decide ((fillPages s.jSize 1 16384 s.jrn.page).length < s.jrn.page.length) ||
    decide (sumBy s.jrn.page (fun r => s.jSize r.2) = 16384) || s.jrn.pageSince.any fun t => decide (t + 2 * ms ≤ s.now)

/-- Program the journal page when it is due and none is being programmed: two pages, one pSLC program unit in each copy, with
flush-class tokens (R211, R254). What does not fit them begins the next page, its records with the clock they were written at and their waiters. -/
def State.pumpJournal (s : State) : State :=
  if s.jrn.flying.isEmpty && !s.jrn.page.isEmpty && s.journalDue then
    let unit := fillPages s.jSize 2 16384 s.jrn.page
    (s.setJrn fun j => { j with flying := unit, page := j.page.drop unit.length, marks := j.marks.drop unit.length,
                                bytesSince := j.bytesSince + 32768 }).askTokens 0 12 .journal
  else s

/-- Append a record to the journal page being filled (R254, R255). `wait` marks a record with a waiter. The recovery image writes no journal
(R388). -/
def State.journal (s : State) (r : JRec) (wait : Bool) : State :=
  if s.life.recovery then s
  else (s.setJrn fun j => j.append s.now r wait).pumpJournal

/-- Bytes programmed in the metadata region, both copies counted (R253, R279). -/
def State.metaProgram (s : State) (n : Nat) : State := s.setFlash fun f => { f with programmed := f.programmed + n, metaProg := f.metaProg + n }

/-- Append a record on which a change waits (R194): the change is made when the record is durable. -/
def State.journalThen (s : State) (r : JRec) (a : JAct) (wait : Bool) : State :=
  if s.life.recovery then s else (s.setJrn fun j => { j with acts := j.acts ++ [(j.jseqNext, a)] }).journal r wait

/-- Whether the removal of what a locator names is on its way to the journal already. -/
def JAct.removes (a : JAct) (loc : Loc) : Bool :=
  match a with
  | .reclaim _ _ _ l _ => l == loc
  | _ => false

/-- Whether a locator's entry is about to be reclaimed: its MAP_RECLAIM stands in the journal and is not durable (R194). -/
def State.reclaiming (s : State) (loc : Loc) : Bool := s.jrn.acts.any fun a => a.2.removes loc

/-- Whether a journal record is a MAP_SET (R256). -/
def JRec.isMapSet (r : JRec) : Bool :=
  match r with
  | .mapSet .. => true
  | _ => false

/-- Whether a journal record is a segment's SEG_COPY_BEGIN (R256). -/
def JRec.isCopyBegin (seg : Nat) (r : JRec) : Bool :=
  match r with
  | .segCopyBegin n _ => n == seg
  | _ => false

/-- Whether a journal record is a segment's COPY_DONE (R256). -/
def JRec.isCopyDone (seg : Nat) (r : JRec) : Bool :=
  match r with
  | .copyDone n .. => n == seg
  | _ => false

/-- Whether a journal record is a segment's ERASE_INTENT (R256). -/
def JRec.isEraseIntent (seg : Nat) (r : JRec) : Bool :=
  match r with
  | .eraseIntent n => n == seg
  | _ => false

/-- Whether the journal record of a number is durable (R254). -/
def State.jDurable (s : State) (n : Nat) : Bool :=
  decide (n < s.jrn.jseqNext) && !(s.jrn.page.any fun r => r.1 == n) && !(s.jrn.flying.any fun r => r.1 == n)

/-- Whether every journal record that `p` picks is durable. -/
def State.jAllDurable (s : State) (p : JRec → Bool) : Bool :=
  !(s.jrn.page.any fun r => p r.2) && !(s.jrn.flying.any fun r => p r.2)

/-- A record no longer ends in a program unit: what is placed of it is dead. -/
def State.unplace (s : State) (id : Nat) : State :=
  let cut := fun (l : List JobItem) => l.map fun i => if i.land = some id then { i with land := none } else i
  s.setFlash fun f => { f with jobs := f.jobs.map (fun j => { j with items := cut j.items })
                               segs := f.segs.map (fun g => { g with tail := cut g.tail }) }

-- Mirror: what a write of this module does to the link and the change log.

/-- The Mirror policy of a key space for a write at an admission position (R311). -/
def State.policyAt (s : State) (ks pos : Nat) : Policy :=
  match s.spaceAt ks pos with
  | some k => histAt .off k.policy pos
  | none => .off

/-- The stamp counter moves to `n`: it is stored where it passes a multiple of 2^20 (R307). -/
def Mirror.toStamp (m : Mirror) (n : Nat) : Mirror :=
  { m with stamp := n, stampStored := if m.stamp / 2 ^ 20 < n / 2 ^ 20 then n else m.stampStored }

/-- The counter after a reset that cleared it: 2^20 beyond the stored value, and stored (R307). -/
def Mirror.resumeStamp (m : Mirror) : Mirror := { m with stamp := m.stampStored }.toStamp (m.stampStored + 2 ^ 20)

/-- The stamp of the pending write or change-log entry of a key, the higher of the two, an unknown stamp being 0 (R308, R316). -/
def State.pendingStamp (s : State) (ks : Nat) (key : Bytes) : Option Nat :=
  let q := (s.mir.sendq.filter fun m => m.live && m.ks == ks && m.key == key && decide (s.mir.lapplied ≤ m.lseq)).map fun m => m.stamp
  let l := (s.mir.log.filter fun e => e.ks == ks && e.key == key).map fun e => if e.unknown then 0 else e.stamp
  match q ++ l with
  | [] => none
  | x => some (x.foldl max 0)

/-- Take the next Mirror stamp (R307). -/
def State.nextStamp (s : State) : State × Nat :=
  let n := s.mir.stamp + 1
  let rank := (s.mir.pairing.map fun p => p.rank).getD 0
  (s.setMir fun m => m.toStamp n, 2 * n + rank)

/-- Whether a mirrored key space runs solo: its writes are logged, not sent (R306, R313, R314). -/
def State.solo (s : State) (ks : Nat) : Bool :=
  s.mir.state != 2 || (s.space? ks).any fun k => k.ksState == 8 || k.ksState == 3 || k.seedDue || k.cfgLseq.isSome

/-- Mark a key space for full resynchronisation and drop its entries: the log or the range list overflowed (R315). -/
def State.logOverflow (s : State) (ks : Nat) : State :=
  let n := (s.mir.log.filter fun e => e.ks == ks).length + (s.mir.logRanges.filter fun e => e.1 == ks).length
  (s.setMir fun m => { m with log := m.log.filter fun e => e.ks != ks, logRanges := m.logRanges.filter fun e => e.1 != ks,
                              fullKs := if m.fullKs.contains ks then m.fullKs else m.fullKs ++ [ks], overflow := true }).logEv
    evMirrorOverflow uMirror 1 n

/-- Whether the change log has no room for one more entry: 16,777,216 keys and key-space deletions (R314). -/
def State.logFull (s : State) : Bool := decide (16777216 ≤ s.mir.log.length + s.mir.logDeletes.length)

/-- Log the deletion of a key space (R313-R315); one that finds no room is marked as the others are. -/
def State.logDelete (s : State) (ks : Nat) : State :=
  if s.logFull then s.logOverflow ks else s.setMir fun m => { m with logDeletes := m.logDeletes ++ [ks] }

/-- Log a written key in the change log with its latest stamp (R314, R315). -/
def State.logKey (s : State) (ks : Nat) (key : Bytes) (stamp : Nat) (unknown : Bool) : State :=
  if s.mir.fullKs.contains ks then s
  else if s.mir.log.any fun e => e.ks == ks && e.key == key then
    s.setMir fun m => { m with log := m.log.map fun e =>
      if e.ks = ks && e.key = key then { e with stamp := max e.stamp stamp, unknown := e.unknown && unknown, lseq := none } else e }
  else if s.logFull then s.logOverflow ks
  else s.setMir fun m => { m with log := m.log ++ [{ ks := ks, key := key, stamp := stamp, unknown := unknown }] }

/-- Log a discarded range (R314, R315). -/
def State.logRange (s : State) (ks : Nat) (lo hi : Bytes) : State :=
  if s.mir.fullKs.contains ks then s
  else if 1024 ≤ s.mir.logRanges.length then s.logOverflow ks
  else s.setMir fun m => { m with logRanges := m.logRanges ++ [(ks, lo, hi)] }

/-- Queue the messages of one value: parts of at most 8,192 bytes (R299). Answers the lseq of the last. -/
def State.sendValue (s : State) (ks : Nat) (key val : Bytes) (stamp flags adm : Nat) (live : Bool) : State × Nat :=
  let n := max 1 (ceilDiv val.length 8192)
  let s := (List.range n).foldl (fun s i =>
    let part := slice val (8192 * i) 8192
    s.mirrorQueue fun lseq =>
      { lseq := lseq, typ := 3, flags := flags, ks := ks, key := key, stamp := stamp,
        body := mirrorBody (le 4 (8192 * i) ++ le 4 val.length) key part, adm := adm,
        bytes := part.length, at_ := s.now, final := decide (i + 1 = n), live := live }) s
  (s, s.mir.lseqNext - 1)

/-- The scan of a full resynchronisation has seen a key of this module's own (R318). -/
def State.noteOwn (s : State) (ks : Nat) (key : Bytes) : State :=
  s.setSpace ks fun k => { k with syncSeen := if k.ksState = 6 then k.syncSeen ++ [key] else k.syncSeen }

/-- Send an original write to the peer under its stamp; answers its lseq (R303). -/
def State.sendOwn (s : State) (ks adm : Nat) (kind : RecKind) (key upper val : Bytes) (stamp : Nat) : State × Nat :=
  match kind with
  | .value => s.sendValue ks key val stamp 0 adm true
  | .tombstone =>
    let s := s.mirrorQueue fun n =>
      { lseq := n, typ := 4, flags := 0, ks := ks, key := key, stamp := stamp, body := mirrorBody [] key [], adm := adm, at_ := s.now }
    (s, s.mir.lseqNext - 1)
  | _ =>
    let s := s.mirrorQueue fun n =>
      { lseq := n, typ := 5, flags := 0, ks := ks, key := key, stamp := stamp,
        body := mirrorBody (le 1 upper.length) key upper, adm := adm, at_ := s.now }
    (s, s.mir.lseqNext - 1)

/-- A logged key that is written again carries the later write's stamp and goes with its message (R314). -/
def State.stampLog (s : State) (ks : Nat) (key : Bytes) (stamp lseq : Nat) : State :=
  s.setMir fun m => { m with log := m.log.map fun (e : LogEntry) =>
    if e.ks = ks && e.key = key then { e with stamp := stamp, unknown := false, lseq := e.lseq.map (fun _ => lseq) } else e }

/-- A FLUSH that covers a synchronous write waits for the peer about it (R69, R303). -/
def State.ackLater (s : State) (adm : Nat) : State :=
  s.setKv fun k => { k with flushes := k.flushes.map fun f => if f.covered.contains adm then { f with acks := f.acks ++ [adm] } else f }

/-- A write of this module became visible in a mirrored key space (R303, R307, R314): it takes a stamp and is sent, or it is
logged while the key space runs solo. Answers the stamp and the lseq its acknowledgement must pass, 0 for none. -/
def State.originate (s : State) (ks adm : Nat) (kind : RecKind) (key upper val : Bytes) : State × Nat × Nat :=
  let pol := s.policyAt ks adm
  if pol == .off || s.mir.pairing.isNone then (s, 0, 0)
  else
    let (s, stamp) := s.nextStamp
    let s := if kind == .value then s.noteOwn ks key else s
    if s.solo ks then
      match kind with
      | .range => (s.logRange ks key upper, stamp, 0)
      | _ => (s.logKey ks key stamp false, stamp, 0)
    else
      let (s, lseq) := s.sendOwn ks adm kind key upper val stamp
      let s := if kind == .range then s else s.stampLog ks key stamp lseq
      if pol == .sync then (s.ackLater adm, stamp, lseq) else (s, stamp, 0)

end Sys2Proof.Machine
end

