-- ==== Sys2Proof/Machine/Descs.lean ====
section
/-! DEFINITION. The data mover's copies between the Landing, flash staging and the Mirror port, with the read references around them (08 R281,
R284-R287; 05 R181, R186). -/

namespace Sys2Proof.Machine

-- Read references.

/-- Take read references on Landing records (R186). -/
def State.takeRefs (s : State) (ids : List Nat) : State :=
  if ids.isEmpty then s
  else s.setLand fun l => { l with recs := l.recs.map fun r => { r with refs := r.refs + ids.count r.id } }

/-- Copy under read references on Landing records: taken before the descriptors are promoted, dropped when they complete (R287). -/
def State.copyRefs (s : State) (ids : List Nat) (ch : Nat) (l : List MDesc) : State := ((s.takeRefs ids).copyOn ch l).dropRefs ids

-- The drain, the relocation and Mirror.

/-- Where the drain reads a record's header and key: behind the value in the last cell where that has room for the copy, so that the record is
read as one run, else in the record header table (R181; the copy's place in the cell is the model's choice, log 42). -/
def LRec.headerSrc (r : LRec) : Nat :=
  match r.cells.getLast? with
  | some c => if r.tailCopy then landingAddr c 3776 else Config.headerAddr r.id
  | none => Config.headerAddr r.id

/-- Descriptors of a record that the drain takes: a gather over its cells, then header and key, into flash write staging at `at_` of the
stripe row being built (R284, R287). -/
def LRec.drainDescs (ch : Nat) (r : LRec) (at_ : Nat) : List MDesc :=
  cellCopy ch false 7 (at_ + 64 + alignTo 16 r.key.length) r.cells 0 r.val.length r.adm ++ [linear 0 7 (64 + r.key.length) r.headerSrc at_ r.adm]

/-- The drain's copies of the records of a unit, by their place in the row, on DMA8 to DMA11 (R281; which of them is the model's choice, log
42). -/
def State.copyDrain (s : State) (job : Nat) (ids : List (Nat × Nat)) : State :=
  let ch := 8 + job % 4
  s.copyRefs (ids.map fun x => x.1) ch (ids.flatMap fun x => ((s.rec? x.1).map fun r => r.drainDescs ch x.2).getD [])

/-- The copies of a relocation unit: one linear descriptor a record from its place in the staged page, on DMA12 or DMA13; an ordered-index node
written anew comes from DRAM, on DMA15 (R281, R284, R287). `at_` gives a record's place in the stripe row. -/
def State.copyReloc (s : State) (job : Nat) (l : List JobItem) (at_ : FRec → Nat) : State :=
  let ch := 12 + job % 2
  let src := fun (i : JobItem) => match i.old with
    | some (.flash _ off _) => some (i.rec_, off % 16384)
    | _ => none
  (s.copyOn ch ((l.filterMap src).map fun x => linear 8 7 x.1.span x.2 (at_ x.1) x.1.adm)).copyOn 15
    ((l.filter fun i => (src i).isNone).map fun i => linear 0 7 i.rec_.span (Config.houseAt i.rec_.adm) (at_ i.rec_) i.rec_.adm)

/-- The copy of a value to the Mirror port on DMA14: a gather from the Landing, else linear from read staging, where it stands behind its header
and key (R281, R284, R287). -/
def State.copyMirror (s : State) (loc : Loc) (len adm : Nat) : State :=
  let p := txSpace (s.mir.portInUse.getD 0)
  if len = 0 then s
  else
    match loc with
    | .landing id _ _ =>
      match s.rec? id with
      | some r => s.copyRefs [id] 14 (cellCopy 14 false p 0 r.cells 0 len adm)
      | none => s
    | .flash g off _ =>
      let head := 64 + alignTo 16 (((s.frec? g off).map fun f => f.key.length).getD 0)
      s.copyOn 14 [linear 8 p len (off % 16384 + head) 0 adm]
    | .lost _ => s

/-- A housekeeping copy on DMA15: checkpoint slices and event-ring pages into flash write staging, update blocks into their staging area (R281;
where they stand in DRAM is free, log 42). -/
def State.copyHouse (s : State) (dstSpace len tag : Nat) : State :=
  if len = 0 then s else s.copyOn 15 [linear 0 dstSpace len (Config.houseAt tag) (Config.houseAt (tag + 1)) tag]

end Sys2Proof.Machine
end

