-- ==== Sys2Proof/Machine/DrainOps.lean ====
section
/-! DEFINITION. Segments, lanes and program units (07 R239-R247, R250, R251), and how the drain and the relocation stream
start them (05 R188, R189, R191, R214; 07 R261). -/

namespace Sys2Proof.Machine

-- Geometry.

/-- Channels live at a position for a slot (R241). -/
def State.liveCh (s : State) (p slot : Nat) : List Nat :=
  (List.range 18).filter fun c => !((s.flash.channels.getD c {}).retired) &&
    (s.flash.dies.any fun d => d.ch == c && d.pos == p && !d.retired) && !s.flash.badSlots.contains (c, p, slot)

/-- Position of a segment (R240). -/
def segPos (seg : Nat) : Nat := seg / 7040

/-- Slot of a segment (R240). -/
def segSlot (seg : Nat) : Nat := seg % 7040

/-- The channels of a segment, ascending. -/
def Segment.chList (g : Segment) : List Nat := (List.range 18).filter fun c => g.chans.getLsbD c

/-- Data pages of a row with n live channels (R241, R242). -/
def dataPages (n : Nat) : Nat := min 16 (n - 1)

/-- Bytes of data in a row. -/
def Segment.rowBytes (g : Segment) : Nat := 16384 * dataPages g.chList.length

/-- Rows of a program unit (R247). -/
def Segment.unitRows (g : Segment) : Nat := if g.pslc then 2 else 6

/-- Rows of a segment (R239). -/
def Segment.rows (g : Segment) : Nat := 384 * g.unitRows

/-- Bytes of data in a program unit. -/
def Segment.unitBytes (g : Segment) : Nat := g.unitRows * g.rowBytes

/-- The stretch of rows a byte lies in: its first byte, its first row, and the channel set they were laid out over (R241). Rows already
written keep their set when it changes. -/
def Segment.setAt (g : Segment) (byte : Nat) : Nat × Nat × BitVec 18 := (g.runs.find? fun r => decide (r.1 ≤ byte)).getD (0, 0, g.chans)

/-- First byte and first row of the stretch that is written now. -/
def Segment.base (g : Segment) : Nat × Nat := (g.runs.head?.map fun r => (r.1, r.2.1)).getD (0, 0)

/-- Bytes of data in a segment, summary included. -/
def Segment.cap (g : Segment) : Nat := g.base.1 + (g.rows - g.base.2) * g.rowBytes

/-- Rows of a summary of k entries with its trailer (R245). -/
def Segment.summaryRows (g : Segment) (k : Nat) : Nat := ceilDiv (16 * k + 64) (max g.rowBytes 1)

/-- Whether a record of a span still fits before the summary (R244). -/
def Segment.fits (g : Segment) (span : Nat) : Bool :=
  decide (g.next + span + g.summaryRows (g.recs.length + 1) * g.rowBytes ≤ g.cap)

/-- The channels of a set, ascending. -/
def chansOf (b : BitVec 18) : List Nat := (List.range 18).filter fun c => b.getLsbD c

/-- Row of a byte of a segment's data order. -/
def Segment.rowOf (g : Segment) (byte : Nat) : Nat :=
  let x := g.setAt byte
  x.2.1 + (byte - x.1) / max (16384 * dataPages (chansOf x.2.2).length) 1

/-- Data channel d of a row over the channels `l` (R241). -/
def dataChan (seg row d : Nat) (l : List Nat) : Nat :=
  let n := l.length
  if n = 18 then ((seg + row) % 18 + 2 + d) % 18 else l.getD (((seg + row) % max n 1 + 1 + d) % max n 1) 0

/-- Parity channel of a row over the channels `l` (R241). -/
def parityChan (seg row : Nat) (l : List Nat) : Nat :=
  if l.length = 18 then ((seg + row) % 18 + 1) % 18 else l.getD ((seg + row) % max l.length 1) 0

/-- The channel whose page of a row holds filler, with all 18 channels live (R241). -/
def skipChan (seg row : Nat) (l : List Nat) : Option Nat := if l.length = 18 then some ((seg + row) % 18) else none

/-- Channel and row of the page that holds a byte of a segment's data order (R241). -/
def Segment.pageAt (g : Segment) (byte : Nat) : Nat × Nat :=
  let x := g.setAt byte
  let l := chansOf x.2.2
  let rb := max (16384 * dataPages l.length) 1
  let row := x.2.1 + (byte - x.1) / rb
  (dataChan g.seg row ((byte - x.1) % rb / 16384) l, row)

/-- From a byte on, the data goes to the rows from `row` on, over another channel set; what was written before stays where it is
(R241, R266). -/
def Segment.relay (g : Segment) (byte row : Nat) (b : BitVec 18) : Segment :=
  { g with runs := (byte, row, b) :: (if g.runs.isEmpty then [(0, 0, g.chans)] else g.runs), chans := b }

/-- A set of channels. -/
def setOf (l : List Nat) : BitVec 18 := l.foldl (fun (b : BitVec 18) c => b ||| BitVec.ofNat 18 (2 ^ c)) 0

/-- Change a segment. -/
def State.setSeg (s : State) (n : Nat) (f : Segment → Segment) : State :=
  s.setFlash fun x => { x with segs := x.segs.map fun g => if g.seg = n then f g else g }

/-- Erase count of a segment's blocks that were never replaced (R251). -/
def State.eraseCount (s : State) (seg : Nat) : Nat := s.flash.eraseAll + ((s.flash.erases.find? fun e => e.1 == seg).map fun e => e.2).getD 0

/-- Physical block of a slot on a die, as the segment table maps it (R240): slot and block are one until a spare replaces it. -/
def State.blockOf (s : State) (ch pos slot : Nat) : Nat := ((s.flash.remap.find? fun m => m.1 == (ch, pos, slot)).map fun m => m.2.1).getD slot

/-- Erase count of one block of a segment: a replacement counts from its own first erase (R240, R251). -/
def State.blockErases (s : State) (ch seg : Nat) : Nat :=
  s.eraseCount seg - ((s.flash.remap.find? fun m => m.1 == (ch, segPos seg, segSlot seg)).map fun m => m.2.2).getD 0

/-- The unit of a mean erase count: the least common multiple of 1 to 18, so that the mean of every number of blocks is exact. -/
def meanUnit : Nat := 12252240

/-- Mean erase count of a segment over its live blocks, in units of 1/`meanUnit` (R251). -/
def State.meanErases (s : State) (seg : Nat) : Nat :=
  let l := s.liveCh (segPos seg) (segSlot seg)
  meanUnit * sumBy l (fun c => s.blockErases c seg) / max l.length 1

/-- Whether a segment may be opened: free, with at least 9 live channels (R242, R251). -/
def State.openable (s : State) (seg : Nat) : Bool :=
  !(s.flash.segs.any fun g => g.seg == seg) && decide (9 ≤ (s.liveCh (segPos seg) (segSlot seg)).length)

/-- The free segment of a position with the lowest mean erase count, the lowest number among equals (R251). Those never erased and without a replaced
block share one count, so the first of them stands for all. -/
def State.pickFree (s : State) (p : Nat) : Option Nat :=
  let known := (s.flash.erases.map fun e => e.1) ++ (s.flash.remap.filter fun m => decide (m.1.2.2 < 7040)).map fun m => 7040 * m.1.2.1 + m.1.2.2
  let fresh := ((List.range 7040).find? fun k => !known.contains (7040 * p + k) && s.openable (7040 * p + k)).map fun k => 7040 * p + k
  let l := (fresh.toList ++ known.filter fun n => segPos n == p && s.openable n).map fun n => (n, s.meanErases n)
  (sortBy (fun a b => decide (a.2 < b.2) || (a.2 == b.2 && decide (a.1 < b.1))) l).head?.map fun e => e.1

/-- Programs queued or running at a position (R250). -/
def State.load (s : State) (p : Nat) : Nat :=
  sumBy s.flash.jobs fun j => if j.pos = p && !j.chans.isEmpty then j.chans.length + j.more * j.all.length else 0

/-- The segment to open: at the position with the fewest programs queued, the one with the lowest mean erase count (R250, R251). -/
def State.nextSegment (s : State) : Option Nat :=
  let l := (List.range s.part.perCh).filterMap s.pickFree
  let key := fun n => (s.load (segPos n), s.meanErases n)
  (sortBy (fun a b => decide ((key a).1 < (key b).1) || ((key a).1 == (key b).1 && decide ((key a).2 < (key b).2))) l).head?

/-- Whether garbage collection for space runs, by the watermarks of R259. -/
def State.spaceRuns (s : State) : Bool :=
  let top := if s.flash.pslc then (if s.part = .ta16 then 640 else 320) else 128
  decide (s.freeSegs < 96) || (s.flash.gcSpace && decide (s.freeSegs < top))

/-- pSLC write mode ends when the free segments fall to 144 (R270). -/
def State.reviewPslc (s : State) : State :=
  if s.flash.pslc && decide (s.freeSegs ≤ 144) then (s.setFlash fun f => { f with pslc := false }).logEv evPslcMode uFlash 0 s.freeSegs else s

/-- Follow the number of free segments across the watermarks of R259 and R270. -/
def State.reviewSpace (s : State) : State := (s.setFlash fun f => { f with gcSpace := s.spaceRuns }).reviewPslc

/-- Open a lane of a stream; SEG_OPEN is journalled before its first program (R250, R251, R270). -/
def State.openLane (s : State) (stream : Nat) : State × Option Nat :=
  match s.nextSegment with
  | none => (s, none)
  | some n =>
    let ch := s.liveCh (segPos n) (segSlot n)
    let bits := setOf ch
    let g : Segment := { seg := n, stream := stream, pslc := s.flash.pslc && decide (stream < 2) && decide (144 < s.freeSegs), chans := bits }
    (((s.setFlash fun f => { f with segs := f.segs ++ [g] }).journal (.segOpen n stream g.pslc bits) false).reviewSpace, some n)

-- Program units.

/-- Span of a record (R244). -/
def spanOf (key val : Nat) : Nat := 64 + alignTo 16 key + alignTo 16 val

/-- Place records into a segment until the unit being filled is full or a record does not fit. -/
def placeItems (g : Segment) : List JobItem → Segment × List JobItem × Bool
  | [] => (g, [], false)
  | i :: r =>
    if g.prog + g.unitBytes ≤ g.next then (g, i :: r, false)
    else if !g.fits i.rec_.span then (g, i :: r, true)
    else
      let x := { i.rec_ with off := g.next }
      placeItems { g with next := g.next + x.span, recs := g.recs ++ [x], tail := g.tail ++ [{ i with rec_ := x }] } r

/-- Temperature band of a die, in 1/16 °C (R267). -/
def tempBand (t16 : Int) : Nat :=
  if t16 < 0 then 0 else if t16 < 400 then 1 else if t16 < 800 then 2 else if t16 < 1120 then 3 else if t16 < 1360 then 4
  else if t16 < 1680 then 5 else if t16 < 2000 then 6 else 7

/-- The present band of a die. -/
def State.bandOf (s : State) (ch pos : Nat) : Nat :=
  ((s.flash.dies.find? fun d => d.ch == ch && d.pos == pos).map fun d => tempBand d.temp16).getD 0

/-- Tokens of one program on one die (R211). -/
def programTokens (pslc : Bool) : Nat := if pslc then 6 else 9

/-- Start a program on every channel of a job. -/
def State.askPrograms (s : State) (j : Job) (cls : Nat) : State :=
  j.chans.foldl (fun s c => s.askTokens cls (programTokens j.pslc) (.program j.id c)) s

/-- Power class of a job's programs (R211). -/
def JobKind.cls (k : JobKind) (stream : Nat) : Nat :=
  match k with
  | .drain => 0
  | .writeThrough => 2
  | .relocation => 3
  | .summary => if stream = 2 then 3 else 0

/-- Programs of class 0 units in flight: requested and not ended (R214). -/
def State.drainPrograms (s : State) : Nat :=
  sumBy s.flash.jobs fun j => if j.kind.cls j.stream = 0 && !j.queued then j.chans.length else 0

/-- Whether a unit may ask its tokens now. In the hold-up sequence and a close only class 0 is served (R222, R431). While the free tokens do not cover
a class 0 unit, the drain requests no program that would take it past 18 in flight (R214). -/
def State.mayAsk (s : State) (j : Job) : Bool :=
  let c := j.kind.cls j.stream
  if s.shutting then c == 0
  else c != 0 || decide ((j.chans.length * programTokens j.pslc : Nat) ≤ s.pwr.free) || decide (s.drainPrograms + j.chans.length ≤ 18)

/-- Whether a position has a program unit in flight. -/
def State.posBusy (s : State) (p : Nat) : Bool := s.flash.jobs.any fun j => j.pos == p && !j.chans.isEmpty

/-- Add a program unit: it asks its tokens at once, or when the units before it at its position have ended and R214 lets it (R246, R250). -/
def State.addJob (s : State) (j : Job) : State :=
  let busy := s.posBusy j.pos || !s.mayAsk j
  let s := s.setFlash fun f => { f with jobs := f.jobs ++ [{ j with queued := busy }], nextJob := f.nextJob + 1 }
  if busy then s else s.askPrograms j (j.kind.cls j.stream)

/-- Start the oldest unit that waits at a position with none running and may ask its tokens. -/
def State.pumpQueued (s : State) (p : Nat) : State :=
  if s.flash.jobs.any fun j => j.pos == p && !j.chans.isEmpty && !j.queued then s
  else
    match s.flash.jobs.find? fun j => j.pos == p && j.queued && !j.chans.isEmpty && s.mayAsk j with
    | some j =>
      (s.setFlash fun f => { f with jobs := f.jobs.map fun x => if x.id = j.id then { x with queued := false } else x }).askPrograms j
        (j.kind.cls j.stream)
    | none => s

/-- A segment as its next units are laid out: over the channels that are live (R241, R276). -/
def State.onLive (s : State) (g : Segment) : Segment :=
  let live := g.chList.filter fun c => (s.liveCh (segPos g.seg) (segSlot g.seg)).contains c
  if live = g.chList then g else g.relay g.prog (g.rowOf g.prog) (setOf live)

/-- Start the next program unit of a lane, padded where it is not full: records that end in it go with it (R247). -/
def State.startUnit (s : State) (g : Segment) (kind : JobKind) : State :=
  let g := s.onLive g
  let top := g.prog + g.unitBytes
  let ended := g.tail.filter fun i => decide (i.rec_.off + i.rec_.span ≤ top)
  let left := g.tail.filter fun i => !decide (i.rec_.off + i.rec_.span ≤ top)
  let g := { g with prog := top, next := max g.next top, tail := left }
  let j : Job := { id := s.flash.nextJob, kind := kind, stream := g.stream, seg := g.seg, pos := segPos g.seg, pslc := g.pslc, chans := g.chList,
                   all := g.chList, items := ended }
  let s := (s.setSeg g.seg fun _ => g).setLand fun l => { l with recs := l.recs.map (fun r =>
    if ended.any (fun i => i.land == some r.id) then { r with job := some j.id } else r) }
  let at_ := fun (r : FRec) => (r.off - g.base.1) % max g.rowBytes 1
  let s := if kind = .relocation then s.copyReloc j.id ended at_ else s.copyDrain j.id (ended.filterMap fun i => i.land.map fun r => (r, at_ i.rec_))
  s.addJob j

/-- Program units of the rows that end a segment: filler up to its end and the summary behind it, or, of a segment that is closed short, the
summary alone (R245, R252). -/
def Segment.lastUnits (g : Segment) : Nat :=
  if g.short then ceilDiv (g.summaryRows g.recs.length) g.unitRows else (g.cap - g.prog) / max g.unitBytes 1

/-- Program the filler and the summary rows that end a full segment (R245, R252); `next` stays at the end of its data. -/
def State.startSummary (s : State) (g : Segment) : State :=
  let g := s.onLive g
  let units := g.lastUnits
  if units = 0 || g.chList.isEmpty then s.setSeg g.seg fun _ => { g with prog := g.cap }
  else
    let j : Job := { id := s.flash.nextJob, kind := .summary, stream := g.stream, seg := g.seg, pos := segPos g.seg, pslc := g.pslc,
                     chans := g.chList, all := g.chList, more := units - 1 }
    (s.setSeg g.seg fun _ => { g with prog := g.cap }).addJob j

/-- First row of a segment's summary (R245, R252). -/
def Segment.summaryRow (g : Segment) : Nat := if g.short then g.rowOf g.next else g.rows - g.summaryRows g.recs.length

/-- The first byte of each page of a segment's summary that holds entries or the trailer (R245). -/
def Segment.summaryPages (g : Segment) : List Nat :=
  let start := g.base.1 + (g.summaryRow - g.base.2) * g.rowBytes
  let last := start + g.summaryRows g.recs.length * g.rowBytes - 16384
  dedup ((List.range (ceilDiv (16 * g.recs.length) 16384)).map (fun k => start + 16384 * k) ++ [last])

/-- What stays of a segment's units when the jobs in flight are given up (R252): the records of a unit that is not complete are not kept. Its rows stay
behind as padding where its programs have begun. -/
def Segment.cut (jobs : List Job) (g : Segment) : Segment :=
  match jobs.find? fun j => j.seg == g.seg && !j.chans.isEmpty && j.kind != .summary with
  | none => g
  | some j =>
    let kept := g.prog - (j.more + 1) * g.unitBytes
    { g with recs := g.recs.filter (fun r => decide (r.off + r.span ≤ kept)), prog := if j.queued then kept else g.prog }

-- The drain.

/-- Drain stream of a record (R188, R250). -/
def LRec.stream (r : LRec) : Nat := if r.kind == .value && decide (2048 < r.len) then 1 else 0

/-- Whether a record waits to be drained, or to be written through, or is placed and does not end in a unit yet. -/
def LRec.waits (r : LRec) : Bool :=
  r.job.isNone && (match r.st with
    | .visible | .superseded => true
    | .valid => r.wt
    | .draining => true
    | _ => false)

/-- Whether a FLUSH covers a record (R69, R188). -/
def State.flushCovers (s : State) (adm : Nat) : Bool := s.kv.flushes.any fun f => f.covered.contains adm

/-- Whether a record forces a partial row (R188, R191, R192): 20 ms old, a durable completion waiting, covered by a FLUSH, power
lost, HOLD collapsed; in write-through, 200 µs old. -/
def State.forces (s : State) (r : LRec) : Bool :=
  if r.wt then s.past r.visAt 200000 || s.shutting
  else !r.waiters.isEmpty || s.flushCovers r.adm || s.past r.visAt (20 * ms) || s.shutting || !s.bankServes ||
    s.life.svc.any fun v => v.compact

/-- Whether a record is promoted to the head of its stream: a durable completion or a FLUSH waits on it, or on a later record of its
key; or a later record of its key is programmed already, and its map record waits for this one's (R188). -/
def State.promotedRec (s : State) (r : LRec) : Bool :=
  s.land.recs.any fun x => !x.wt &&
    ((x.waits && (!x.waiters.isEmpty || s.flushCovers x.adm) &&
        (x.id == r.id || (x.ks == r.ks && x.key == r.key && decide (r.visNo ≤ x.visNo)))) ||
      (x.job.isSome && x.id != r.id && x.ks == r.ks && x.key == r.key && decide (r.visNo ≤ x.visNo)))

/-- The records of a stream not yet placed, in drain order (R188). -/
def State.streamQueue (s : State) (st : Nat) : List LRec :=
  let q := s.land.recs.filter fun r => r.waits && r.place.isNone && r.stream == st
  sortBy (fun a b =>
    let pa := s.promotedRec a
    let pb := s.promotedRec b
    if pa == pb then decide (a.visNo < b.visNo) || (a.visNo == b.visNo && decide (a.id < b.id)) else pa) q

/-- The flash form of a Landing record, less its place (R243, R244). -/
def State.toFlash (s : State) (r : LRec) : FRec :=
  let k := s.kv.spaces.find? fun k => k.ks == r.ks
  { off := 0, span := spanOf r.key.length (if r.kind == .range then r.upper.length else r.val.length), kind := r.kind, ks := r.ks, key := r.key,
    upper := r.upper, epoch := r.epoch, adm := r.adm, len := r.len, val := r.val, digest := BitVec.ofNat 64 (s.digest r.ks r.key),
    tweak := (k.map fun k => k.tweak).getD 0, keyId := (k.map fun k => k.keyId).getD 0, src := r.src }

/-- Advance a key space's tweak counter past a record (R396). -/
def KeySpace.useTweak (k : KeySpace) (span : Nat) : KeySpace :=
  let t := k.tweak + ceilDiv (span - 64) 4096
  { k with tweak := t, tweakStored := if t / 2 ^ 24 ≠ k.tweak / 2 ^ 24 then t / 2 ^ 24 * 2 ^ 24 else k.tweakStored }

/-- Advance the tweak counter of a record's key space past it. -/
def State.spendTweak (s : State) (r : LRec) : State :=
  s.setSpaces (fun k => k.ks == r.ks) fun k => k.useTweak (s.toFlash r).span

/-- Records as they go to flash, each with the tweak that is next when its turn comes (R396). -/
def State.itemsOf (s : State) : List LRec → List JobItem
  | [] => []
  | r :: l => { rec_ := s.toFlash r, land := some r.id } :: (s.spendTweak r).itemsOf l

/-- Fill of the Landing in percent: cells of undrained records over the admissible count (R189). -/
def State.fillPct (s : State) : Nat :=
  let c := sumBy s.land.recs fun r => if r.st = .drained then 0 else r.cells.length
  if s.land.admissible = 0 then 100 else 100 * c / s.land.admissible

/-- Program units the drain may keep in flight, 18 programs each (R189). A unit beyond the first starts only while the free tokens cover
all its programs, so that none is requested past 18 in flight that they do not cover (R214). -/
def State.unitLimit (s : State) : Nat :=
  let f := s.fillPct
  let n := if f < 25 then 1 else if f < 50 then 2 else if f < 75 then 3 else 4
  let n := min n (if s.part = .ta16 then 4 else 2)
  if s.pwr.free < 18 * programTokens s.flash.pslc && !s.shutting then min n 1 else n

/-- Program units of the drain in flight. -/
def State.drainFlight (s : State) : Nat :=
  (s.flash.jobs.filter fun j => decide (j.stream < 2) && j.kind != .relocation && !j.chans.isEmpty).length

/-- Start the summary of every full segment whose units are done, within the limits of the drain (R214, R245). -/
def State.pumpSummaries (s : State) : State :=
  (s.flash.segs.filter fun g => g.st == .full && decide (g.prog < g.cap) && g.tail.isEmpty).foldl
    (fun s g => if s.posBusy (segPos g.seg) || (decide (g.stream < 2) && decide (s.unitLimit ≤ s.drainFlight)) then s else s.startSummary g) s

/-- The lane a stream goes on with: one with records placed beyond its units, else one with no unit of its own in flight (R250). -/
def State.laneFor (s : State) (st : Nat) : Option Segment :=
  let lanes := s.flash.segs.filter fun g =>
    g.st == .opened && g.stream == st && !(s.flash.jobs.any fun j => j.seg == g.seg && !j.chans.isEmpty)
  (lanes.find? fun g => !g.tail.isEmpty).or lanes.head?

/-- Lanes a stream has open (R250). -/
def State.laneCount (s : State) (st : Nat) : Nat := (s.flash.segs.filter fun g => g.st == .opened && g.stream == st).length

/-- The lane of a stream: the one it goes on with, or one opened now (R250). -/
def State.drainLane (s : State) (st : Nat) : State × Option Segment :=
  match s.laneFor st with
  | some g => (s, some g)
  | none =>
    if 2 ≤ s.laneCount st || (1 ≤ s.laneCount st && s.unitLimit < 2) then (s, none)
    else
      let r := s.openLane st
      (r.1, r.2.bind r.1.seg?)

/-- Place records of the queue `q` in a lane, and start its next unit (R188, R242). -/
def State.drainInto (s : State) (q : List LRec) (g : Segment) : State :=
  let p := placeItems g (s.itemsOf q)
  let g' : Segment := { p.1 with st := if p.2.2 then .full else p.1.st }
  let taken := q.take (q.length - p.2.1.length)
  let s := s.setLand fun l => { l with recs := l.recs.map (fun r =>
    if taken.any (fun x => x.id == r.id) then
      { r with st := .draining, place := some (g.seg, ((g'.tail.find? fun i => i.land == some r.id).map fun i => i.rec_.off).getD 0) }
    else r) }
  let s := taken.foldl (fun s r => s.spendTweak r) s
  if g'.next = g'.prog then s.setSeg g.seg fun _ => g'
  else
    let wt := g'.tail.all fun i => s.land.recs.any fun r => i.land == some r.id && r.wt
    s.startUnit g' (if wt then .writeThrough else .drain)

/-- Start one program unit of a drain stream where one may start; none where it may not. -/
def State.drainUnit (s : State) (st : Nat) : Option State :=
  if s.unitLimit ≤ s.drainFlight || s.life.svc.any (fun v => !v.compact) then none
  else
    let q := s.streamQueue st
    let placed := s.land.recs.filter fun r => r.waits && r.place.isSome && r.stream == st
    let forced := (q ++ placed).any fun r => s.forces r || s.promotedRec r
    let lane := s.laneFor st
    let have_ := (lane.map fun g => g.next - g.prog).getD 0
    let unit := (lane.map fun g => g.unitBytes).getD 1572864
    let bytes := have_ + sumBy q fun r => (s.toFlash r).span
    if bytes = 0 || !(forced || decide (unit ≤ bytes)) then none
    else
      let r := s.drainLane st
      r.2.map fun g => r.1.drainInto q g

/-- Start what may start of a drain stream. -/
def State.drainStream : Nat → State → Nat → State
  | 0, s, _ => s
  | n + 1, s, st => match s.drainUnit st with
    | some s' => State.drainStream n s' st
    | none => s

/-- Start the units that wait, at every position. -/
def State.pumpAllQueued (s : State) : State := (List.range s.part.perCh).foldl (fun s p => s.pumpQueued p) s

/-- Start what may start of the units that wait, of both drain streams and of the summaries (R188). -/
def State.pumpDrain (s : State) : State := ((((s.pumpAllQueued).drainStream 8 0).drainStream 8 1).pumpSummaries)

end Sys2Proof.Machine
end

