-- ==== Sys2Proof/Machine/KvOps.lean ====
section
/-! DEFINITION. The write path of the key-value model: the checks of 02 R75, reservations (05 R178, R183, R191), making a
write visible (01 PUT step 6, 02 R48, R53, R61, R62), durable completions (02 R66, R67), discarding assemblies (02 R55) and
read-only state (02 R78, R80). -/

namespace Sys2Proof.Machine

/-- The key space that a write at a position belongs to. -/
def inSpace (ks pos : Nat) (k : KeySpace) : Bool :=
  k.ks == ks && k.createdAt.all (fun p => decide (p < pos)) && k.deletedAt.all (fun p => decide (pos ≤ p))

/-- Read-only reason bits in which an opcode completes with ST_READ_ONLY (R79). -/
def roRefuses (ro : BitVec 4) (op : Nat) : Bool :=
  let any := ro != 0
  let no1 := ro &&& 0b1101 != 0
  if op == 0x01 || op == 0x08 || op == 0x10 then any
  else if op == 0x03 || op == 0x05 || op == 0x11 then no1
  else false

/-- The read-only reason that a command at an admission position meets (R78, R116): the administrative hold is the one in force at that
position, the other bits stand as they are. -/
def State.roAt (s : State) (pos : Nat) : BitVec 4 :=
  if s.kv.hold.isEmpty then s.kv.roReason else (s.kv.roReason &&& 7) ||| (if histAt false s.kv.hold pos then 8 else 0)

/-- Effective durability of a write: whether it completes durable (R67). -/
def State.isDurable (s : State) (c : Cmd) : Bool :=
  match c.entry.durability with
  | 0 => ((s.kv.spaces.find? (inSpace c.entry.ks c.adm)).map fun k => histAt false k.durable c.adm).getD false
  | 2 => true
  | _ => false

/-- The key-space limits at a position (R42, R76). -/
def KeySpace.limitsAt (k : KeySpace) (pos : Nat) : Limits := histAt ⟨0, 0⟩ k.limits pos

/-- The committed capacity at a position (R76, R77). -/
def State.committedAt (s : State) (pos : Nat) : Nat := histAt s.part.userCap s.kv.committed pos

/-- The committed capacity now. -/
def State.committedNow (s : State) : Nat := (s.kv.committed.head?.map fun p => p.2).getD s.part.userCap

/-- Keys and bytes a key space could lose by reclaim (R65). -/
def State.reclaimable (s : State) (ks : Option Nat) : Nat × Nat :=
  let d := s.discarded.filter fun x => ks.all fun k => x.1 == k
  (d.length, sumBy d fun x => x.2.2.2)

/-- What the gate of a write answers (R75 checks 6 to 9). -/
inductive Gate where
  | refuse (st : Status)
  | wait
  | go
  deriving DecidableEq, Repr

/-- Length of a command's key as it is stored now; a lost one counts nothing (R48). -/
def State.oldBytes (s : State) (c : Cmd) : Nat :=
  match s.lookup c.entry.ks c.key with
  | some e => if e.loc.isLost then 0 else ((s.infoAt e.loc).map fun i => i.1).getD 0
  | none => 0

/-- Value bytes a write of `len` bytes adds to the accounting, and whether its key is new (R48). -/
def State.addedBytes (s : State) (c : Cmd) (len : Nat) : Nat × Bool := (len - s.oldBytes c, (s.lookup c.entry.ks c.key).isNone)

/-- Bytes among the unreclaimed discards that the command itself replaces: `addedBytes` takes them off already. -/
def State.ownDiscard (s : State) (c : Cmd) : Nat := if s.discarded.any fun d => d.1 == c.entry.ks && d.2.1 == c.key then s.oldBytes c else 0

/-- Checks 7 and 8 of R75 for a write of `len` bytes, with R65: a limit that only unreclaimed discards exceed makes the write wait. -/
def State.limitGate (s : State) (k : KeySpace) (c : Cmd) (len : Nat) : Gate :=
  let pos := c.adm
  let added := (s.addedBytes c len).1
  let newKey := (s.addedBytes c len).2
  let own := s.ownDiscard c
  let lim := k.limitsAt pos
  let dks := s.reclaimable (some k.ks)
  let dm := s.reclaimable none
  let ks1 := k.keys + k.keysReserved + 1
  let m1 := s.moduleKeys + 1
  let over1 := newKey && ((decide (lim.keys ≠ 0) && decide (lim.keys < ks1)) || decide (s.prism.keyLimit < m1))
  let hard1 := newKey && ((decide (lim.keys ≠ 0) && decide (lim.keys < ks1 - dks.1)) || decide (s.prism.keyLimit < m1 - dm.1))
  let kb := k.bytes + k.bytesReserved + added
  let mb := s.moduleBytes + s.moduleBytesReserved + added
  let cap := s.committedAt pos
  let over2 := decide (added ≠ 0) && ((decide (lim.capacity ≠ 0) && decide (lim.capacity < kb)) || decide (cap < mb))
  let hard2 := decide (added ≠ 0) &&
    ((decide (lim.capacity ≠ 0) && decide (lim.capacity < kb + own - dks.2)) || decide (cap < mb + own - dm.2))
  if hard1 then .refuse stKeyLimit
  else if hard2 then .refuse stNoSpace
  else if over1 || over2 then .wait
  else .go

/-- Value bytes and age of the writes of a key space not yet covered by lapplied (R304): bytes, and the clock of the oldest. -/
def State.lag (s : State) (ks : Nat) : Nat × Option Nat :=
  let q := s.mir.sendq.filter fun m => m.live && m.ks == ks && decide (s.mir.lapplied ≤ m.lseq)
  (sumBy q fun m => m.bytes, q.head?.map fun m => m.at_)

/-- Whether the lag bound of an asynchronous key space holds its writes (R304). -/
def State.lagHolds (s : State) (k : KeySpace) (pos : Nat) : Bool :=
  histAt .off k.policy pos == .async && s.mir.state == 2 && (k.ksState == 1 || k.ksState == 2) &&
    (decide (k.lagBytes < (s.lag k.ks).1) || (s.lag k.ks).2.any fun t => decide (t + k.lagMs * ms < s.now))

/-- Whether no stash entry is left for one more new key: those held, and one for each new key on its way to its insertion, which may need one
(R177; DESIGN CHOICE, log 76). -/
def State.stashFull (s : State) : Bool := decide (stashSize ≤ s.prism.stashUsed + sumBy s.kv.spaces fun k => k.keysReserved)

/-- Check 9 of R75 as far as it does not concern cells or staging: `value` for PUT and opening PUT_PART. The lag bound holds the hosts' writes only
(R302, R304). -/
def State.pauseGate (s : State) (k : KeySpace) (c : Cmd) (value newKey : Bool) : Bool :=
  s.thm.writePause || (c.src != .mirror && s.lagHolds k c.adm) ||
    (value && (decide (s.freeSegs ≤ 12) || decide (s.pwr.free < 0) || (newKey && s.stashFull)))

/-- Whether a replicated write of a key is a conflict: the key is pending under a stamp that the write's does not exceed (R308). -/
def State.stale (s : State) (c : Cmd) : Bool := c.src == .mirror && (s.pendingStamp c.entry.ks c.key).any fun p => decide (c.stamp ≤ p)

/-- One more conflict is discarded (R308, R325). -/
def State.countConflict (s : State) (ks : Nat) : State :=
  let s := s.setMir fun x => { x with conflicts := satAdd 32 x.conflicts 1 }
  s.logEv evMirrorConflict uMirror ks s.mir.conflicts

/-- Room for the record: cells and charge in Landing mode, staging in write-through (R183, R191). -/
def State.roomGate (s : State) (cells staging : Nat) : Bool :=
  if s.land.writeThrough then s.land.stagingFree staging else s.land.admits cells

/-- The gate of PUT and opening PUT_PART (R75 checks 6 to 9). -/
def State.valueGate (s : State) (c : Cmd) (k : KeySpace) (len : Nat) : Gate :=
  if roRefuses (s.roAt c.adm) c.entry.opcode then .refuse stReadOnly
  else
    match s.limitGate k c len with
    | .go => if s.pauseGate k c true (s.addedBytes c len).2 || !s.roomGate (cellsFor len) len then .wait else .go
    | g => g

/-- Reserve what a write needs: cells with charge, or staging; `resKey` and `resBytes` count against the limits (R178). -/
def State.reserve (s : State) (r : LRec) (cells staging : Nat) : State × Nat :=
  let s := s.setSpaces (inSpace r.ks r.adm) fun k =>
    { k with keysReserved := k.keysReserved + b2n r.resKey, bytesReserved := k.bytesReserved + r.resBytes }
  if s.land.writeThrough then s.reserveStaging r staging else s.reserveCells r cells

/-- Drop a record's reservations against the limits. -/
def State.unreserve (s : State) (r : LRec) : State :=
  (s.setSpaces (inSpace r.ks r.adm) fun k =>
    { k with keysReserved := k.keysReserved - b2n r.resKey, bytesReserved := k.bytesReserved - r.resBytes }).setRec r.id
      fun r => { r with resKey := false, resBytes := 0 }

/-- A record whose command ends before step 6 goes to free at once (R182). -/
def State.cancelRec (s : State) (id : Nat) : State :=
  match s.rec? id with
  | some r => (s.unreserve r).freeRec id
  | none => s

/-- Discard an open assembly and what it reserved (R55). -/
def State.discardAsm (s : State) (id : Nat) : State :=
  match s.kv.assemblies.find? fun a => a.id == id with
  | none => s
  | some a => (s.cancelRec a.rec_).setKv fun k => { k with assemblies := k.assemblies.filter fun x => x.id != id }

/-- Whether an assembly is open: its final part has not begun to execute (R55). -/
def State.asmOpen (s : State) (a : Assembly) : Bool := !(s.cmds.any fun c => c.rec_ == some a.rec_)

/-- Discard the open assemblies that `sel` selects (R55). -/
def State.discardAsms (s : State) (sel : Assembly → Bool) : State :=
  (s.kv.assemblies.filter fun a => sel a && s.asmOpen a).foldl (fun s a => s.discardAsm a.id) s

/-- Bytes a key space could still add (R91): the lower of the rooms under capacity_limit and committed capacity. -/
def State.roomLeft (s : State) (ks pos : Nat) : Nat :=
  let m := s.committedNow - s.moduleBytes
  match s.kv.spaces.find? (inSpace ks pos) with
  | some k =>
    match k.limits with
    | (_, l) :: _ => if l.capacity = 0 then m else min m (l.capacity - k.bytes)
    | [] => m
  | none => m

-- Read-only state.

/-- A change of the read-only reason: EV_READ_ONLY; where a bit is set, writes that wait for cells or charge end with ST_READ_ONLY and
open assemblies are discarded (R78, R80). -/
def State.setReadOnly (s : State) (ro : BitVec 4) : State :=
  if ro = s.kv.roReason then s
  else
    let old := s.kv.roReason
    let s := (s.setKv fun k => { k with roReason := ro }).logEv evReadOnly uSup old.toNat ro.toNat
    if ro &&& ~~~old = 0 then s
    else
      let s := s.discardAsms fun _ => true
      (s.cmds.filter fun c => match c.st with | .waiting _ => true | _ => false).foldl (fun s c => s.fail c stReadOnly) s

/-- Set or clear one reason bit (R78). -/
def State.roBit (s : State) (k : Nat) (on : Bool) : State :=
  s.setReadOnly (if on then s.kv.roReason ||| BitVec.ofNat 4 (2 ^ k) else s.kv.roReason &&& ~~~BitVec.ofNat 4 (2 ^ k))

/-- Whether reason bit 1 still stands (R78): committed capacity or stored bytes above the maximum. -/
def State.capacityReduced (s : State) : Bool :=
  decide (s.kv.maxCommitted < s.committedNow) || decide (s.kv.maxCommitted < s.moduleBytes)

/-- Clear reason bit 1 once committed capacity and stored bytes are both at or below the maximum (R78). -/
def State.reviewCapacity (s : State) : State :=
  if s.kv.roReason.getLsbD 1 && !s.capacityReduced then s.roBit 1 false else s

-- Visibility.

/-- A landed or durable write past its commit point: complete it, or let it wait for its durability (R66, R302). -/
def State.settleWrite (s : State) (adm : Nat) : State :=
  match s.cmd? adm with
  | some c => if c.st == .durableWait && c.rec_.isNone && c.lseq == 0 then s.ok c c.res0 c.res1 else s
  | none => s

/-- The old value of a key leaves the index because a write replaces or removes it: the Landing record is superseded, the
lost-table entry freed (R171, R187). Answers its charged length. -/
def State.dropOld (s : State) (e : IdxEntry) : State × Nat :=
  match e.loc with
  | .landing r _ _ => (s.supersede r, ((s.rec? r).map fun x => x.len).getD 0)
  | .flash g o _ => (s, ((s.frec? g o).map fun x => x.len).getD 0)
  | .lost i => (s.freeLost i, 0)

/-- Put the visible value of a key into the index, the accounting and the ordered tree (PUT step 6; R48, R178, R180).
Answers whether it replaced a stored value. -/
def State.setKey (s : State) (ks adm : Nat) (key : Bytes) (len : Nat) (loc : Loc) : State × Bool :=
  match s.lookup ks key with
  | some e =>
    let (s1, old) := (s.moveLoc e.loc loc).dropOld e
    (s1.setSpaces (inSpace ks adm) fun k =>
      { k with bytes := k.bytes + len - old, tree := if k.ordered then setLeaf ⟨key, len, false⟩ k.tree else k.tree }, true)
  | none =>
    ((s.insertKey ks key loc).setSpaces (inSpace ks adm) fun k =>
      { k with bytes := k.bytes + len, keys := k.keys + 1, tree := if k.ordered then setLeaf ⟨key, len, false⟩ k.tree else k.tree },
     false)

/-- Remove a key from the index, the counts and the tree (R61, R178). Answers the value bytes released. -/
def State.unsetKey (s : State) (ks adm : Nat) (key : Bytes) : State × Nat :=
  match s.lookup ks key with
  | none => (s, 0)
  | some e =>
    let (s1, old) := (s.removeLoc e.loc).dropOld e
    (s1.setSpaces (inSpace ks adm) fun k =>
      { k with bytes := k.bytes - old, keys := k.keys - 1, tree := k.tree.filter fun l => l.key != key }, old)

/-- Record a discarded range: its window opens at its admission position (R62-R64). -/
def State.addRange (s : State) (ks adm : Nat) (lo hi : Bytes) : State :=
  s.setKv fun k => { k with ranges := k.ranges ++
    [{ id := writeId adm s.life.bootEpoch, ks := ks, lo := lo, hi := hi, adm := adm, epoch := s.life.bootEpoch }] }

/-- The effect of a write on index and accounting when it becomes visible. Answers result0 of the command: replaced, or the
bytes a DELETE released. -/
def State.applyWrite (s : State) (r : LRec) (loc : Loc) : State × Nat :=
  match r.kind with
  | .value =>
    let (s, rep) := s.setKey r.ks r.adm r.key r.len loc
    (s.setKv fun k => { k with hostWritten := k.hostWritten + r.len }, b2n rep)
  | .tombstone => s.unsetKey r.ks r.adm r.key
  | _ => (s.addRange r.ks r.adm r.key r.upper, 0)

/-- A visible write originates its operation to the peer, whose value is copied to the Mirror port; the link sequence number it went out under,
0 for none (R299, R287). -/
def State.tellPeer (s : State) (r : LRec) : State × Nat :=
  if r.fromPeer then (s.setRec r.id fun x => { x with stamp := r.stamp }, 0)
  else
    let o := s.originate r.ks r.adm r.kind r.key r.upper r.val
    let t := if r.kind == .value && o.1.mir.lseqNext != s.mir.lseqNext then o.1.copyMirror r.loc r.len r.adm else o.1
    (t.setRec r.id fun x => { x with stamp := o.2.1 }, o.2.2)

/-- The results of a write that has become visible, and what its completion waits for (R67, R91). -/
def State.answerVisible (s : State) (r : LRec) (r0 lseq : Nat) (durableNow : Bool) : State :=
  match s.cmd? r.adm with
  | none => s
  | some c =>
    let res0 := if c.entry.opcode = 0x08 then r.len % 2 ^ 32 + 2 ^ 32 + 2 ^ 33 * r0 else r0
    let res1 := if r.kind == .value then s.roomLeft r.ks r.adm else 0
    let dur := s.isDurable c
    let s := s.setCmd c.adm fun c =>
      { c with committed := true, res0 := res0, res1 := res1, st := .durableWait, rec_ := if dur && !durableNow then some r.id else none,
               lseq := if dur then lseq else 0 }
    let s := if dur && !durableNow then s.setRec r.id fun x => { x with waiters := x.waiters ++ [c.adm] } else s
    s.settleWrite c.adm

/-- A write becomes visible (PUT step 6): reservations become charges, the index changes, the peer is told, and the command
completes landed or waits for its durability. `loc` is the locator it takes; `durableNow` when the media already hold it. -/
def State.makeVisible (s : State) (id : Nat) (loc : Loc) (durableNow : Bool) : State :=
  match s.rec? id with
  | none => s
  | some r =>
    let s := s.unreserve r
    let (s, r0) := s.applyWrite r loc
    let s := s.reviewCapacity
    let s := s.setRec id fun x => { x with st := .visible, visAt := s.now, visNo := s.land.nextVis }
    let s := s.setLand fun l => { l with nextVis := l.nextVis + 1 }
    let s := s.setKv fun k => { k with assemblies := k.assemblies.filter fun a => a.rec_ != id }
    let (s, lseq) := s.tellPeer r
    let s := if durableNow then s.flushCovered r.adm else s
    s.answerVisible r r0 lseq durableNow

/-- A write becomes visible, and the drain starts what it now may (R188). -/
def State.becomeVisible (s : State) (id : Nat) (loc : Loc) (durableNow : Bool) : State := (s.makeVisible id loc durableNow).pumpDrain

/-- A new Landing or staging record for a command's write. -/
def State.newRec (s : State) (c : Cmd) (kind : RecKind) (key upper val : Bytes) (len : Nat) (newKey : Bool) (added : Nat) : LRec :=
  { id := 0, kind := kind, ks := c.entry.ks, key := key, upper := upper, adm := c.adm, epoch := s.life.bootEpoch, len := len, val := val,
    src := c.src, stamp := c.stamp, fromPeer := c.src == .mirror, resKey := newKey, resBytes := added }

/-- Let a command wait at check 9: it leaves its mailbox, and later commands on its keys wait behind it (PUT step 3). -/
def State.holdWrite (s : State) (c : Cmd) : State :=
  (s.setMbx fun m => m.drop c.adm).setCmd c.adm fun c =>
    { c with st := match c.st with | .waiting t => .waiting t | _ => .waiting s.now }

/-- Whether a waiting write has waited 100 ms (R75 check 9). -/
def State.waitedOut (s : State) (c : Cmd) : Bool :=
  match c.st with
  | .waiting t => s.past t (100 * ms)
  | _ => false

end Sys2Proof.Machine
end

