-- ==== Sys2Proof/Machine/Reads.lean ====
section
/-! DEFINITION. Reading a key: what an access finds (03 R92, 02 R63), serving it from the Landing, the DRAM value cache or
flash (01 R29, R491, 05 R175), and the answer of GET, EXISTS and MGET (03 R92, R93, R98). -/

namespace Sys2Proof.Machine

/-- n rounded up to a multiple of 16 (R244). -/
def align16 (n : Nat) : Nat := alignTo 16 n

/-- Pages of 16,384 bytes that hold bytes [a, a + n) of a segment's data order. -/
def pagesOf (a n : Nat) : Nat := if n = 0 then 0 else (a + n - 1) / 16384 - a / 16384 + 1

/-- The first byte of each page that holds bytes [a, a + n) of a segment's data order. -/
def pagesFrom (a n : Nat) : List Nat := (List.range (pagesOf a n)).map fun k => (a / 16384 + k) * 16384

/-- The page reads of a record, in record order: the pages of its header and key, and those of `n` value bytes from `ro` (R491);
EXISTS and full-key checks read only the header's page. -/
def FRec.readPlan (r : FRec) (ro n : Nat) (headerOnly : Bool) : List Nat :=
  if headerOnly then pagesFrom r.off 1
  else dedup (pagesFrom r.off (64 + r.key.length) ++ pagesFrom (r.off + 64 + align16 r.key.length + ro) n)

/-- Bytes of the DRAM value cache, header cache aside (R166, R175, R443). -/
def State.cacheBytes (s : State) : Nat :=
  let total := match s.part, s.prism.compact with
    | .ta16, false => 7
    | .ta16, true => 8
    | _, false => 1
    | _, true => 0
  let half := match s.part, s.prism.compact with
    | .ta16, _ => 0
    | _, false => 1
    | _, true => 0
  let banks := sumBy s.dram.chans fun c => c.banksRetired
  total * 2 ^ 30 + half * 2 ^ 29 - 2 ^ 29 - banks * 2 ^ 29

/-- Keep the most recent entries whose spans fit. -/
def trimCache (s : State) : Nat → List (Nat × Nat) → List (Nat × Nat)
  | _, [] => []
  | room, x :: r =>
    match s.frec? x.1 x.2 with
    | some f => if f.span ≤ room then x :: trimCache s (room - f.span) r else []
    | none => trimCache s room r

/-- Headers the header cache holds: 512 MiB of 64-byte headers, none where the region has no value cache (R166, R175). -/
def State.headerRoom (s : State) : Nat := if s.prism.compact && s.part != .ta16 then 0 else 8388608

/-- A header enters the header cache, or is used again; the least recently used gives way (R175). -/
def State.cacheHeader (s : State) (seg off : Nat) : State :=
  s.setPrism fun p => { p with headerCache := ((seg, off) :: p.headerCache.filter fun x => x != (seg, off)).take s.headerRoom }

/-- A stored header that was read enters the header cache, an ordered-index node the node cache; the spill table is not cached (R175, R180). -/
def State.cacheRead (s : State) (seg off : Nat) : State :=
  match s.frec? seg off with
  | some f => if f.kind = .internal then s.cacheNode seg off else s.cacheHeader seg off
  | none => s

/-- A value in the cache is used again. -/
def State.hitValue (s : State) (loc : Loc) : State :=
  match loc with
  | .flash g o _ =>
    if s.prism.valueCache.contains (g, o) then s.setPrism fun p => { p with valueCache := (g, o) :: p.valueCache.filter fun x => x != (g, o) }
    else s
  | _ => s

/-- A value read from flash, or drained, enters the value cache when it is at most 1 MiB (R175). -/
def State.cacheValue (s : State) (seg off : Nat) : State :=
  let s := s.cacheHeader seg off
  match s.frec? seg off with
  | none => s
  | some f =>
    if 1048576 < f.len then s
    else s.setPrism fun p => { p with valueCache := trimCache s s.cacheBytes ((seg, off) :: p.valueCache.filter fun x => x != (seg, off)) }

/-- What an access of one key finds for GET, EXISTS and MGET, with the locator it resolved (R63, R92, R93). Inside a
discarded range the answer is the old value or ST_NOT_FOUND: a free value. -/
def State.find (s : State) (ks : Nat) (key : Bytes) : Option IdxEntry × State :=
  let s := s.touchBuckets ks key
  match s.lookup ks key with
  | none => (none, s)
  | some e =>
    match s.infoAt e.loc with
    | none => (none, s)
    | some (_, adm, ep) =>
      if s.inWindow ks key adm ep then (if s.freeVal % 2 = 0 then (none, s.freeNext) else (some e, s.freeNext))
      else (some e, s)

/-- Reclaim one key: MAP_RECLAIM is journalled, and its index entry goes when the record is durable (R64, R179, R194). `adm` is an
admission position of its key space. -/
def State.reclaimKey (s : State) (ks adm : Nat) (key : Bytes) (wait : Bool) : State :=
  match s.lookup ks key with
  | some e => if s.reclaiming e.loc then s else s.journalThen (.mapReclaim ks key) (.reclaim ks adm key e.loc none) wait
  | none => s

/-- A full-key check that meets a discarded key in an unordered key space removes it from the index, behind the answer of the
command that met it (R179). `pos` is that command's admission position. -/
def State.dropSeen (s : State) (ks pos : Nat) (key : Bytes) : State :=
  if (s.spaceAt ks pos).any (fun k => !k.ordered) &&
      ((s.lookup ks key).bind fun e => s.infoAt e.loc).any (fun i => s.inWindow ks key i.2.1 i.2.2) then s.reclaimKey ks pos key false
  else s

/-- The value bytes a locator holds. -/
def State.valueAt (s : State) : Loc → Bytes
  | .landing r _ _ => ((s.rec? r).map fun x => x.val).getD []
  | .flash g o _ => ((s.frec? g o).map fun x => x.val).getD []
  | .lost _ => []

/-- Whether an access is served at once: from the Landing, the lost table, the value cache, or (EXISTS) the header cache. -/
def State.servedAtOnce (s : State) (loc : Loc) (headerOnly : Bool) : Bool :=
  match loc with
  | .flash g o _ => s.prism.valueCache.contains (g, o) || (headerOnly && s.prism.headerCache.contains (g, o))
  | _ => true

/-- Offset in the staged page data of value bytes [ro, ro + n) of a record: the pages of the plan stand one behind the other (R284). -/
def FRec.stagedAt (r : FRec) (ro n : Nat) : Nat :=
  let a := r.off + 64 + align16 r.key.length + ro
  16384 * ((r.readPlan ro n false).takeWhile fun p => p + 16384 ≤ a).length + a % 16384

/-- What an access found, with where its bytes [ro, ro + n) lie: a Landing record, the value cache, or flash read staging (R287). -/
def State.gotAt (s : State) (loc : Loc) (ro n : Nat) (g : Got) : Got :=
  { g with rec_ := match loc with | .landing r _ _ => some r | _ => none
           staged := match loc with
             | .flash seg o _ => if s.servedAtOnce loc false then none else (s.frec? seg o).map fun r => r.stagedAt ro n
             | _ => none }

/-- Add a read of the pages of a plan. -/
def State.addRead (s : State) (r : ReadOp) (plan : List Nat) : State :=
  s.setFlash fun f => { f with reads := f.reads ++ [{ r with id := f.nextRead, pages := plan.length, plan := plan }], nextRead := f.nextRead + 1 }

/-- Start the flash reads of one access (R491). -/
def State.startRead (s : State) (adm elem : Nat) (ks : Nat) (key : Bytes) (loc : Loc) (ro n : Nat) (headerOnly : Bool) : State :=
  match loc with
  | .flash g o _ =>
    match s.frec? g o with
    | some r => s.addRead { id := 0, why := .cmd adm, seg := g, off := o, ks := ks, key := key, elem := elem, pages := 0 } (r.readPlan ro n headerOnly)
    | none => s
  | _ => s

/-- Whether a read serves a command. -/
def ReadOp.serves (r : ReadOp) (adm : Nat) : Bool :=
  match r.why with
  | .cmd a | .check a => a == adm
  | _ => false

/-- Ask tokens for the next page reads of a command, in order, at most 12 in flight (R491, R211). -/
def State.pumpReads (s : State) (adm : Nat) : State :=
  let mine := s.flash.reads.filter fun r => r.serves adm
  let busy := sumBy mine fun r => r.issued
  (mine.foldl (fun (acc : Nat × State) r =>
    let n := min acc.1 (r.pages - r.issued)
    let s := acc.2.setFlash fun f => { f with reads := f.reads.map (fun x => if x.id = r.id then { x with issued := x.issued + n } else x) }
    (acc.1 - n, (List.range n).foldl (fun s _ => s.askTokens 1 4 (.read r.id)) s)) (12 - busy, s)).2

-- Full-key checks (R172, R201).

/-- The number under which a read of the spill table stands; no segment has it. -/
def spillSeg : Nat := 65535

/-- The flash records whose stored header a full-key check of a key must read: candidates whose header the header cache does not hold.
GET and MGET read the matching record's header with its value (`own` false). -/
def State.headersDue (s : State) (ks : Nat) (key : Bytes) (own : Bool) : List (Nat × Nat) :=
  (s.checkedFor ks key).filterMap fun e => match e.loc with
    | .flash g o _ => if s.prism.headerCache.contains (g, o) || (!own && s.keyAt e.loc == some (ks, key)) then none else some (g, o)
    | _ => none

/-- Whether the lookup of a key reaches the spill table: spill_hint stands in one of its buckets and nothing matched before (R172). -/
def State.reachesSpill (s : State) (ks : Nat) (key : Bytes) : Bool :=
  let d := s.digest ks key
  let b1 := bucket1 s.idxBits d
  let b2 := otherBucket s.idxBits b1 (d / 2 ^ 32)
  (s.prism.spillHint s.idxBits b1 || s.prism.spillHint s.idxBits b2) && !(s.lookup ks key).any fun e => e.place != .spill

/-- Use again the cached headers that the full-key check of a key consults (R175). -/
def State.useHeaders (s : State) (ks : Nat) (key : Bytes) : State :=
  (s.checkedFor ks key).foldl (fun s e => match e.loc with
    | .flash g o _ => if s.prism.headerCache.contains (g, o) then s.cacheHeader g o else s
    | _ => s) s

/-- The full-key checks of a command's keys: the pages they must read first, in order, or none and the buckets and headers consulted.
Answers whether the command waits for pages; once they are read it goes on. -/
def State.keyChecks (s : State) (c : Cmd) (keys : List (Nat × Bytes)) (own : Bool) : Bool × State :=
  let due := dedup (keys.flatMap fun k => s.headersDue k.1 k.2 own)
  let spill := keys.any fun k => s.reachesSpill k.1 k.2
  if due.isEmpty && !spill then (false, keys.foldl (fun s k => (s.touchBuckets k.1 k.2).useHeaders k.1 k.2) s)
  else
    let s := (s.setMbx fun m => m.drop c.adm).setCmd c.adm fun c => { c with st := .checking }
    let read := fun (s : State) (x : Nat × Nat) =>
      s.addRead { id := 0, why := .check c.adm, seg := x.1, off := x.2, ks := c.entry.ks, key := c.key, pages := 0 } (pagesFrom x.2 1)
    let s := due.foldl read s
    let s := if spill then read s (spillSeg, 0) else s
    (true, s.pumpReads c.adm)

/-- GET's tests after its lookup, in the order of R92: what it found and the bytes to return. -/
def State.getOne (s : State) (c : Cmd) (e : Option IdxEntry) : Got :=
  match e with
  | none => { status := stNotFound }
  | some e =>
    match s.infoAt e.loc with
    | none => { status := stNotFound }
    | some (len, adm, ep) =>
      let id := writeId adm ep
      let ro := c.entry.arg 40 4
      if e.loc.isLost then { status := stMediaLost, len := len, r1 := id }
      else if c.entry.arg 48 6 ≠ 0 && id ≠ c.entry.arg 48 8 then { status := stChanged, len := len, r1 := id }
      else if len < ro then { status := stInvalid }
      else { status := stOk, len := len, r1 := id, data := slice (s.valueAt e.loc) ro (min c.respRoom (len - ro)) }

/-- Place the values of an MGET: offset list, then values in table order (R98). Arguments: next free offset, room, whether
placement has stopped. Answers the list entries, the value area as (offset, bytes), and the end. -/
def placeValues : List Got → Nat → Nat → Bool → List (Nat × Nat × Status) × List (Nat × Bytes) × Nat
  | [], at_, _, _ => ([], [], at_)
  | g :: r, at_, room, stop =>
    if g.status = stOk then
      let off := align8 at_
      if stop || room < off + g.len then
        let (l, v, e) := placeValues r at_ room true
        ((0, g.len, stBufferShort) :: l, v, e)
      else
        let (l, v, e) := placeValues r (off + g.len) room false
        ((off, g.len, stOk) :: l, (off, g.data) :: v, e)
    else
      let (l, v, e) := placeValues r at_ room stop
      ((0, g.len, g.status) :: l, v, e)

/-- Lay pieces at their offsets behind a head, zeros between; an empty piece writes nothing. -/
def layOut (head : Bytes) (pieces : List (Nat × Bytes)) : Bytes :=
  pieces.foldl (fun b p => if p.2.isEmpty then b else fit p.1 b ++ p.2) head

/-- Answer a GET, EXISTS or MGET whose accesses have ended (R92, R93, R98). -/
def State.respondGets (s : State) (c : Cmd) : State :=
  match c.entry.opcode with
  | 0x07 =>
    let n := c.gets.length
    let (l, v, _) := placeValues c.gets (alignTo 64 (16 * n)) c.respRoom false
    let head := l.flatMap fun x => le 4 x.1 ++ le 4 x.2.1 ++ le 2 x.2.2.toNat ++ le 6 0
    let oks := (l.filter fun x => x.2.2 == stOk).length
    let shorts := (l.filter fun x => x.2.2 == stBufferShort).length
    let top := ((v.filter fun p => !p.2.isEmpty).getLast?.map fun p => p.1 + p.2.length).getD (16 * n)
    s.complete c stOk (oks + 65536 * shorts) top (layOut head v)
  | 0x04 =>
    match c.gets with
    | g :: _ => s.complete c g.status (if g.status = stNotFound then 0 else g.len) g.r1 []
    | [] => s.fail c stNotFound
  | _ =>
    match c.gets with
    | g :: _ =>
      if g.status = stOk then s.complete c stOk (g.len + 2 ^ 32 * g.data.length) g.r1 g.data
      else s.complete c g.status g.len g.r1 []
    | [] => s.fail c stNotFound

end Sys2Proof.Machine
end

