-- ==== Sys2Proof/Machine/Mover.lean ====
section
/-! DEFINITION. The data mover in service for host commands: where a value comes from and where a response goes, and the copies of PUT, GET
and MGET (08 R281, R285-R287; 05 R181, R186). -/

namespace Sys2Proof.Machine

-- Values into the Landing.

/-- Source of a value on its way in: the receive buffer behind the datagram's headers and key, the side-band request buffer in DRAM, or
host memory (R287). Answers the space, the address, and the queue pair and remote key. -/
def State.valueSource (s : State) (c : Cmd) : Nat × Nat × Option (Nat × Nat) :=
  let head := align8 c.entry.keyLen
  match c.src with
  | .skiff u =>
    match s.tr.sessions.find? fun x => x.uid == u with
    | some x => (rxSpace x.rx.port, headLen x.rx.hostAddr - 4 + 8 + 96 + head, none)
    | none => (4, 0, none)
  | .ferry u => (6, c.entry.reqAddr + head, (s.tr.qps.find? fun q => q.uid == u).map fun q => (q.qp, c.entry.reqRkey))
  | .mbx => (0, head, none)
  | .mirror => (rxSpace (s.mir.portInUse.getD 0), 0, none)

/-- The copy of a value, or of a part that begins `at_` bytes into it, into the cells of its record: a scatter, on Mirror's channel DMA14 or the
home CP's (R181, R281, R287). -/
def State.fillDescs (s : State) (c : Cmd) (r : LRec) (at_ len : Nat) : List MDesc :=
  let x := s.valueSource c
  onHost x.2.2 (cellCopy (if c.src = .mirror then 14 else c.home % 8) true x.1 x.2.1 r.cells at_ len c.adm)

/-- Promote the copy of a value into its record (R281, R287). -/
def State.promoteFill (s : State) (c : Cmd) (id at_ len : Nat) : State :=
  match s.rec? id with
  | some r => if len = 0 then s else s.promote (if c.src = .mirror then 14 else c.home % 8) c.adm (s.fillDescs c r at_ len)
  | none => s

-- Values out.

/-- The copy of what an access found, `from_` bytes into the value on, out to a place: from the record's cells, or linear from the value cache or
from its place in the staged pages (R284, R287). -/
def State.readDescs (s : State) (ch adm dstSpace dst : Nat) (g : Got) (from_ : Nat) : List MDesc :=
  if g.data.isEmpty then []
  else
    match g.rec_.bind s.rec? with
    | some r => cellCopy ch false dstSpace dst r.cells from_ g.data.length adm
    | none => match g.staged with
      | some a => [linear 8 dstSpace g.data.length a dst adm]
      | none => [linear 0 dstSpace g.data.length (Config.cacheAddr adm from_) dst adm]

/-- Promote the copies of a response's values, each to its offset, chained in table order on the channel of the command's home CP (R287). -/
def State.copyOut (s : State) (c : Cmd) (l : List (Nat × Got × Nat)) : State :=
  let t := s.respTarget c
  s.promote (c.home % 8) c.adm (onHost t.2.2 (l.flatMap fun (off, g, from_) => s.readDescs (c.home % 8) c.adm t.1 (t.2.1 + off) g from_))

/-- The values a response returns: offset, what was found, and the first byte of the value returned (R92, R98). -/
def Cmd.valuesOut (c : Cmd) : List (Nat × Got × Nat) :=
  if c.entry.opcode = 0x07 then
    let (places, _, _) := placeValues c.gets (alignTo 64 (16 * c.gets.length)) c.respRoom false
    (places.zip c.gets).filterMap fun x => if x.1.2.2 = stOk then some (x.1.1, x.2, 0) else none
  else if c.entry.opcode = 0x02 then (c.gets.take 1).filterMap fun g => if g.status = stOk then some (0, g, c.entry.arg 40 4) else none
  else []

/-- Answer a GET, EXISTS or MGET: under read references on the Landing records its values lie in, their copies are promoted; it completes, and the
copies with it (R83, R186, R287). -/
def State.answerGets (s : State) (c : Cmd) : State :=
  let ids := (c.gets.filterMap fun g => g.rec_).filter fun id => !c.refs.contains id
  ((s.takeRefs ids).copyOut c c.valuesOut).respondGets { c with refs := c.refs ++ ids }

end Sys2Proof.Machine
end

