-- ==== Sys2Proof/Machine/KeyCommands.lean ====
section
/-! DEFINITION. The key commands a CP executes (03 R91-R101), the steps of a write in progress (02 R55, R75, 01 R26), FLUSH and
ABORT (02 R69, 03 R101-R105). -/

namespace Sys2Proof.Machine

/-- The command at the front of a CP's mailbox, when its opcode is `op` and its turn has come (R23, R58). -/
def State.frontOf (s : State) (cp op : Nat) : Option Cmd :=
  match (s.mbx.cp.getD cp []).head? with
  | none => none
  | some adm =>
    match s.cmd? adm with
    | none => none
    | some c => if c.entry.opcode == op && s.running && s.pwr.ps == 0 && s.turn c then some c else none

/-- Execute the front command of a CP's mailbox, or do nothing. -/
def State.runFront (s : State) (cp op : Nat) (f : State → Cmd → State) : State :=
  match s.frontOf cp op with
  | some c => f s c
  | none => s

/-- Whether a PUT_PART opens its assembly (R51). -/
def Entry.opens (e : Entry) : Bool := e.arg 40 4 == 0

/-- Parts of check 1 that compare the fields of one opcode (R54, R94, R100). -/
def Cmd.pairsOk (c : Cmd) : Bool :=
  let e := c.entry
  match e.opcode with
  | 0x05 =>
    let hi := e.tailOf (c.payload.getD []) (e.arg 40 1)
    e.arg 40 1 == 0 || keyLt c.key hi
  | 0x08 => (e.isFinal || e.durability == 0) && (decide (16777216 < e.arg 44 4) || !e.opens || decide (e.partLen ≤ e.arg 44 4))
  | _ => true

/-- The key space a command finds under its number (R44); the Mirror receiver also finds one that a seed still hides (R312). -/
def State.spaceOf (s : State) (c : Cmd) : Option KeySpace :=
  s.kv.spaces.find? fun k => inSpace c.entry.ks c.adm k && (!k.hidden || c.src == .mirror)

/-- Checks a to c of R88 and 1 to 5 of R75 of a key command: the status that refuses it, or none. -/
def State.precheck (s : State) (c : Cmd) : Option Status :=
  let e := c.entry
  match s.admissionStatus c with
  | some st => some st
  | none =>
    if !c.formatOk || !c.pairsOk || !e.ksInRange then some stInvalid
    else if namesKs e.opcode && e.opcode != 0x10 && e.ks != 0xFF && (s.spaceOf c).isNone then some stKsUnknown
    else
      match (if hasKey e.opcode || e.opcode == 0x06 then keyLenStatus e.opcode e.keyLen else none) with
      | some st => some st
      | none =>
        if (e.opcode == 0x01 && decide (16777216 < e.arg 40 4)) || (e.opcode == 0x08 && decide (16777216 < e.arg 44 4)) then
          some stValueTooLarge
        else none

/-- Run a command's own part once the common checks have passed. -/
def State.checked (s : State) (c : Cmd) (f : State → Cmd → State) : State :=
  match s.precheck c with
  | some st => s.fail c st
  | none => f s c

/-- Run a command's own part once the full-key checks of its keys have the pages they need (R172). -/
def State.withChecks (s : State) (c : Cmd) (keys : List (Nat × Bytes)) (own : Bool) (f : State → Cmd → State) : State :=
  let r := s.keyChecks c keys own
  if r.1 then r.2 else f r.2 c

/-- The same for the one key a write names; a write that read-only state refuses asks for no page (R75 check 6). -/
def State.withKey (s : State) (c : Cmd) (f : State → Cmd → State) : State :=
  if roRefuses (s.roAt c.adm) c.entry.opcode then f s c else s.withChecks c [(c.entry.ks, c.key)] true f

/-- Take a command out of its mailbox and go on with it apart from the queue. -/
def State.leave (s : State) (adm : Nat) (f : Cmd → Cmd) : State := (s.setMbx fun m => m.drop adm).setCmd adm f

-- PUT and PUT_PART.

/-- Length the cells of a write are reserved for (R181). -/
def Entry.valueLen (e : Entry) : Nat := if e.opcode = 0x08 then e.arg 44 4 else e.arg 40 4

/-- Reserve a value's cells or staging (PUT step 3). -/
def State.reserveValue (s : State) (c : Cmd) : State × Nat :=
  let len := c.entry.valueLen
  let (added, fresh) := s.addedBytes c len
  s.reserve { s.newRec c .value c.key [] [] len fresh added with st := .reserved } (cellsFor len) len

/-- Begin to write value bytes into a reserved record (R182). -/
def State.fill (s : State) (id : Nat) : State := s.setRec id fun r => { r with st := if r.st = .reserved then .filling else r.st }

/-- Start the transfer of a value, or of its final part, into a record: the command leaves its mailbox and the descriptor that scatters the bytes
over the cells is promoted; a payload that has come fills the record at once, one in host memory is asked for by its RDMA Read (PUT step 4,
R155, R287). -/
def State.transfer (s : State) (c : Cmd) (id at_ len : Nat) : State :=
  let s := (s.leave c.adm fun c => { c with st := .filling, rec_ := some id }).promoteFill c id at_ len
  if c.payload.isNone then s.pumpPay c.src else if len = 0 then s else s.fill id

/-- A replicated write whose key a later write of this module has taken in the meantime is discarded as a conflict, and counts as applied (R308). -/
def State.orConflict (s : State) (c : Cmd) (f : State → State) : State := if s.stale c then (s.countConflict c.entry.ks).ok c 0 0 else f s

/-- PUT from check 6 of R75 on. -/
def State.putGate (s : State) (c : Cmd) : State :=
  let s := s.dropSeen c.entry.ks c.adm c.key
  match s.spaceOf c with
  | none => s.fail c stKsUnknown
  | some k => s.orConflict c fun s =>
    match s.valueGate c k c.entry.valueLen with
    | .refuse st => s.fail c st
    | .wait => s.holdWrite c
    | .go =>
      let (s, id) := s.reserveValue c
      s.transfer c id 0 c.entry.valueLen

/-- PUT (R91): rows PUT, and WRITE_WAIT_RESUME of a waiting one. -/
def execPut (cp : Fin 8) (s : State) : Host.Outcome State Fault Refusal :=
  .next (s.runFront cp.val 0x01 fun s c => s.checked c fun s c => s.withKey c State.putGate)

/-- Whether a source may open one more assembly, the one it replaces aside (R51, R56); one whose final part executes is no longer open
(R55). -/
def State.asmRoom (s : State) (c : Cmd) : Bool :=
  let others := s.kv.assemblies.filter fun a => s.asmOpen a && !(a.src == c.src && a.ks == c.entry.ks && a.key == c.key)
  decide ((others.filter fun a => a.src == c.src).length < 16) && decide (others.length < 4096)

/-- The open assembly of a command's source and key (R51). -/
def State.asmOf (s : State) (c : Cmd) : Option Assembly :=
  s.kv.assemblies.find? fun a => a.src == c.src && a.ks == c.entry.ks && a.key == c.key && s.asmOpen a

/-- Copy the bytes of a non-final part behind those of its record (R53, R287). -/
def State.storePart (s : State) (c : Cmd) (id at_ : Nat) (bytes : Bytes) : State :=
  (((if bytes.isEmpty then s else s.fill id).promoteFill c id at_ bytes.length).setRec id fun r => { r with val := r.val ++ bytes }).moved c.adm

/-- An opening part from check 6 on: the reservations for the whole value, then its bytes (R51, R52, R56). -/
def State.openGate (s : State) (c : Cmd) : State :=
  let e := c.entry
  let s := s.dropSeen e.ks c.adm c.key
  match s.spaceOf c with
  | none => s.fail c stKsUnknown
  | some k =>
    match s.valueGate c k e.valueLen with
    | .refuse st => s.fail c st
    | g =>
      if !s.asmRoom c then s.fail c stBusy
      else if g == .wait then s.holdWrite c
      else
        let s := match s.asmOf c with
          | some a => s.discardAsm a.id
          | none => s
        let (s, id) := s.reserveValue c
        let bytes := if e.isFinal then [] else e.tailOf (c.payload.getD []) e.partLen
        let s := s.storePart c id 0 bytes
        let a : Assembly := { id := s.kv.nextAsm, src := c.src, ks := e.ks, key := c.key, total := e.valueLen,
                              got := bytes.length, rec_ := id, lastPart := s.now, openAdm := c.adm }
        let s := s.setKv fun kv => { kv with assemblies := kv.assemblies ++ [a], nextAsm := kv.nextAsm + 1 }
        if e.isFinal then s.transfer c id 0 e.partLen else s.ok { c with rec_ := some id } bytes.length 0

/-- A further part, tested against its assembly in the order of R100. -/
def State.nextPart (s : State) (c : Cmd) : State :=
  let e := c.entry
  if roRefuses (s.roAt c.adm) e.opcode then s.fail c stReadOnly
  else
    match s.asmOf c with
    | none => s.fail c stSeq
    | some a =>
      if a.total ≠ e.arg 44 4 then s.fail c stInvalid
      else if a.got ≠ e.arg 40 4 then s.fail c stSeq
      else if a.total < a.got + e.partLen then s.fail c stInvalid
      else
        let touch := fun (s : State) (n : Nat) => s.setKv fun kv => { kv with assemblies := kv.assemblies.map (fun x =>
          if x.id = a.id then { x with got := x.got + n, lastPart := s.now } else x) }
        if e.isFinal then s.transfer c a.rec_ a.got e.partLen
        else
          ((touch s e.partLen).storePart c a.rec_ a.got (e.tailOf (c.payload.getD []) e.partLen)).ok { c with rec_ := some a.rec_ }
            (a.got + e.partLen) 0

/-- PUT_PART past the common checks (R51-R56, R99, R100). -/
def State.putPart (s : State) (c : Cmd) : State := if c.entry.opens then s.withKey c State.openGate else s.nextPart c

/-- PUT_PART. A part whose payload is still to be fetched waits for it, unless it is the final part, which is fetched into
the cells already reserved (R155). -/
def execPutPart (cp : Fin 8) (s : State) : Host.Outcome State Fault Refusal :=
  .next (s.runFront cp.val 0x08 fun s c =>
    if c.payload.isNone && !c.entry.isFinal && (s.precheck c).isNone then s else s.checked c State.putPart)

/-- The value transfer of a PUT or final PUT_PART has ended (PUT steps 5 and 6): the record is valid; in Landing mode it
becomes visible, in write-through it is programmed first (R191). -/
def execPutValueLanded (adm : Nat) (s : State) : Host.Outcome State Fault Refusal :=
  .next (match s.cmd? adm with
    | none => s
    | some c =>
      match c.st, c.rec_, c.payload with
      | .filling, some id, some p =>
        if !s.running then s
        else
          let e := c.entry
          let part := if e.opcode = 0x08 then e.tailOf p e.partLen else e.tailOf p (e.arg 40 4)
          let s := (s.moved adm).setRec id fun r => { r with val := r.val ++ part, st := .valid, adm := c.adm, epoch := s.life.bootEpoch, visAt := s.now }
          match s.rec? id with
          | none => s
          | some r => if r.wt then (s.setCmd adm fun c => { c with st := .staged }).pumpDrain else s.becomeVisible id r.loc false
      | _, _, _ => s)

-- DELETE and DISCARD_RANGE.

/-- A record-writing command without a value: reserve, then visible at once, or staged in write-through (R93, R94, R191). -/
def State.writeRecord (s : State) (c : Cmd) (kind : RecKind) (upper : Bytes) : State :=
  let (s, id) := s.reserve { s.newRec c kind c.key upper [] 0 false 0 with st := .valid, visAt := s.now } 1 0
  match s.rec? id with
  | none => s
  | some r =>
    if r.wt then (s.leave c.adm fun c => { c with st := .staged, rec_ := some id }).pumpDrain
    else (s.leave c.adm fun c => { c with rec_ := some id }).becomeVisible id r.loc false

/-- DELETE from check 6 on; the key is looked up before check 9 (R75, R93). Inside a discarded range it may answer
ST_NOT_FOUND: the entry goes under a MAP_RECLAIM, and the answer waits until it has, so that the key is then absent (R63, R194). -/
def State.deleteGate (s : State) (c : Cmd) : State :=
  let e := c.entry
  if roRefuses (s.roAt c.adm) e.opcode then s.fail c stReadOnly
  else
    match s.lookup e.ks c.key, s.find e.ks c.key, s.spaceOf c with
    | none, _, _ => s.fail c stNotFound
    | some x, (none, s'), _ =>
      (s'.leave c.adm fun c => { c with st := .staged }).journalThen (.mapReclaim e.ks c.key) (.reclaim e.ks c.adm c.key x.loc (some c.adm)) true
    | _, (some _, s'), some k =>
      s'.orConflict c fun s => if s.pauseGate k c false false || !s.roomGate 1 0 then s.holdWrite c else s.writeRecord c .tombstone []
    | _, _, none => s.fail c stKsUnknown

/-- DELETE (R93). -/
def execDelete (cp : Fin 8) (s : State) : Host.Outcome State Fault Refusal :=
  .next (s.runFront cp.val 0x03 fun s c => s.checked c fun s c => s.withKey c State.deleteGate)

/-- Ranges that reclaim has not finished, those still on their way through write-through staging with them (R94). -/
def State.rangesHeld (s : State) : Nat := s.kv.ranges.length + (s.land.recs.filter fun r => r.wt && r.kind == .range).length

/-- DISCARD_RANGE from check 6 on (R62, R94). -/
def State.discardGate (s : State) (c : Cmd) : State :=
  let e := c.entry
  if roRefuses (s.roAt c.adm) e.opcode then s.fail c stReadOnly
  else
    match s.spaceOf c with
    | none => s.fail c stKsUnknown
    | some k =>
      if s.pauseGate k c false false || decide (1024 ≤ s.rangesHeld) || !s.roomGate 1 0 then s.holdWrite c
      else s.writeRecord c .range (e.tailOf (c.payload.getD []) (e.arg 40 1))

/-- Whether a command that needs its whole request payload still waits for it; a refusal needs no payload. -/
def State.lacksPayload (s : State) (c : Cmd) : Bool := c.payload.isNone && decide (c.entry.reqLen ≠ c.entry.keyLen) && (s.precheck c).isNone

/-- DISCARD_RANGE (R94). -/
def execDiscardRange (cp : Fin 8) (s : State) : Host.Outcome State Fault Refusal :=
  .next (s.runFront cp.val 0x05 fun s c =>
    if c.payload.isNone && (s.admissionStatus c).isNone then s else s.checked c State.discardGate)

-- Reads.

/-- GET past the common checks (R92). -/
def State.getKey (s : State) (c : Cmd) : State :=
  let (e, s) := s.find c.entry.ks c.key
  let g := match e with
    | some x => s.gotAt x.loc (c.entry.arg 40 4) (s.getOne c e).data.length (s.getOne c e)
    | none => s.getOne c e
  let now_ := e.all fun x => g.status != stOk || s.servedAtOnce x.loc false
  let c' := { c with gets := [g] }
  match e with
  | some x =>
    if now_ then ((s.hitValue x.loc).dropSeen c.entry.ks c.adm c.key).answerGets c'
    else
      let s := s.leave c.adm fun _ => { c' with st := .reading }
      ((s.startRead c.adm 0 c.entry.ks c.key x.loc (c.entry.arg 40 4) g.data.length false).dropSeen c.entry.ks c.adm c.key).pumpReads c.adm
  | none => (s.dropSeen c.entry.ks c.adm c.key).answerGets c'

/-- GET (R92). -/
def execGet (cp : Fin 8) (s : State) : Host.Outcome State Fault Refusal :=
  .next (s.runFront cp.val 0x02 fun s c => s.checked c fun s c => s.withChecks c [(c.entry.ks, c.key)] false State.getKey)

/-- EXISTS past the common checks (R93): the header only. -/
def State.existsKey (s : State) (c : Cmd) : State :=
  let (e, s) := s.find c.entry.ks c.key
  let g : Got := match e.bind fun x => (s.infoAt x.loc).map fun i => (x, i) with
    | some (x, len, adm, ep) => { status := if x.loc.isLost then stMediaLost else stOk, len := len, r1 := writeId adm ep }
    | none => { status := stNotFound }
  let c' := { c with gets := [g] }
  match e with
  | some x =>
    if s.servedAtOnce x.loc true then ((s.hitValue x.loc).dropSeen c.entry.ks c.adm c.key).answerGets c'
    else
      let s := s.leave c.adm fun _ => { c' with st := .reading }
      ((s.startRead c.adm 0 c.entry.ks c.key x.loc 0 0 true).dropSeen c.entry.ks c.adm c.key).pumpReads c.adm
  | none => (s.dropSeen c.entry.ks c.adm c.key).answerGets c'

/-- EXISTS (R93). -/
def execExistsKey (cp : Fin 8) (s : State) : Host.Outcome State Fault Refusal :=
  .next (s.runFront cp.val 0x04 fun s c => s.checked c fun s c => s.withChecks c [(c.entry.ks, c.key)] false State.existsKey)

/-- Key space and key of an element of an MGET. -/
def Cmd.elemKs (c : Cmd) (i : Nat) : Nat := fieldAt (c.payload.getD []) (8 * i + 5) 1
def Cmd.elemKey (c : Cmd) (i : Nat) : Bytes :=
  slice (c.payload.getD []) (fieldAt (c.payload.getD []) (8 * i) 4) (fieldAt (c.payload.getD []) (8 * i + 4) 1)

/-- Whether every key of an MGET lies within its payload (R97). -/
def Cmd.elemsFit (c : Cmd) : Bool :=
  let p := c.payload.getD []
  (List.range (c.entry.arg 40 2)).all fun i => decide (fieldAt p (8 * i) 4 + fieldAt p (8 * i + 4) 1 ≤ c.entry.reqLen)

/-- One element of an MGET: the checks of R75 that concern one key, then its access (R97, R98). -/
def State.mgetOne (s : State) (c : Cmd) (i : Nat) : State × Got × Option Loc :=
  let p := c.payload.getD []
  let klen := fieldAt p (8 * i + 4) 1
  let ks := c.elemKs i
  let key := c.elemKey i
  if fieldAt p (8 * i + 6) 2 ≠ 0 || 63 < ks then (s, { status := stInvalid }, none)
  else if (s.spaceAt ks c.adm).isNone then (s, { status := stKsUnknown }, none)
  else
    match keyLenStatus 0x02 klen with
    | some st => (s, { status := st }, none)
    | none =>
      let (e, s) := s.find ks key
      match e.bind fun x => (s.infoAt x.loc).map fun inf => (x.loc, inf) with
      | none => (s, { status := stNotFound }, none)
      | some (loc, len, _, _) =>
        if loc.isLost then (s, { status := stMediaLost, len := len }, none)
        else (s.hitValue loc, s.gotAt loc 0 len { status := stOk, len := len, data := s.valueAt loc }, some loc)

/-- What the accesses of an MGET find, element by element in table order (R97). -/
def State.mgetFind (s : State) (c : Cmd) : State × List (Got × Option Loc) :=
  (List.range (c.entry.arg 40 2)).foldl (fun (acc : State × List (Got × Option Loc)) i =>
    let r := acc.1.mgetOne c i
    (r.1, acc.2 ++ [r.2])) (s, [])

/-- The command leaves its mailbox, and the elements that stand on flash alone are read (R491); keys of a discarded range that were met
go behind the answer (R179). -/
def State.mgetStart (s : State) (c : Cmd) (gs : List (Got × Option Loc)) : State :=
  let n := c.entry.arg 40 2
  let s := s.leave c.adm fun _ => { c with gets := gs.map (fun x => x.1), st := .reading }
  let s := ((List.range n).zip gs).foldl (fun s x =>
    match x.2.2 with
    | some loc => if s.servedAtOnce loc false then s else s.startRead c.adm x.1 (c.elemKs x.1) (c.elemKey x.1) loc 0 x.2.1.len false
    | none => s) s
  (List.range n).foldl (fun s i => s.dropSeen (c.elemKs i) c.adm (c.elemKey i)) s

/-- MGET past the common checks (R97, R98, R491): it is answered at once, or waits for its reads with references to its Landing records. -/
def State.mget (s : State) (c : Cmd) : State :=
  if !c.elemsFit then s.fail c stInvalid
  else if c.respRoom < 16 * c.entry.arg 40 2 then s.fail c stBufferShort
  else
    let gs := (s.mgetFind c).2
    let s := (s.mgetFind c).1.mgetStart c gs
    if s.flash.reads.any fun r => r.serves c.adm then
      let refs := gs.filterMap fun g => g.1.rec_
      ((s.takeRefs refs).setCmd c.adm fun c => { c with refs := refs }).pumpReads c.adm
    else s.answerGets { c with gets := gs.map fun x => x.1 }

/-- The keys of an MGET's table that stand in its payload and name an existing key space. -/
def State.mgetKeys (s : State) (c : Cmd) : List (Nat × Bytes) :=
  let p := c.payload.getD []
  (List.range (c.entry.arg 40 2)).filterMap fun i =>
    if (s.spaceAt (c.elemKs i) c.adm).isSome && decide (fieldAt p (8 * i) 4 + fieldAt p (8 * i + 4) 1 ≤ c.entry.reqLen) then
      some (c.elemKs i, c.elemKey i)
    else none

/-- MGET (R97). -/
def execMget (cp : Fin 8) (s : State) : Host.Outcome State Fault Refusal :=
  .next (s.runFront cp.val 0x07 fun s c =>
    if s.lacksPayload c then s else s.checked c fun s c => s.withChecks c (s.mgetKeys c) false State.mget)

/-- One entry of a LIST response (R95). -/
def listEntry (l : Leaf) : Bytes :=
  le 1 l.key.length ++ le 1 (b2n l.lost) ++ le 2 0 ++ le 4 l.len ++ fit (align8 l.key.length) l.key

/-- The leaves that fit: at most `n`, whole, in `room` bytes. -/
def takeFit : Nat → Nat → List Leaf → List Leaf
  | 0, _, _ => []
  | _, _, [] => []
  | n + 1, room, l :: r =>
    let size := 8 + align8 l.key.length
    if size ≤ room then l :: takeFit n (room - size) r else []

/-- The keys of a LIST, in order: after its cursor and before its end. Each key of a discarded range is listed or left out: a free value (R49, R50, R95). -/
def State.listShown (s : State) (c : Cmd) (k : KeySpace) : List Leaf :=
  let e := c.entry
  let endKey := e.tailOf (c.payload.getD []) (e.arg 42 1)
  (k.tree.zipIdx.filter fun (l, i) =>
    (c.key.isEmpty || keyLt c.key l.key) && (endKey.isEmpty || keyLt l.key endKey) &&
      !(Config.free (s.freeCtr + i) % 2 == 0 && ((s.lookup e.ks l.key).bind fun x => (s.infoAt x.loc).map fun i => s.inWindow e.ks l.key i.2.1 i.2.2).getD false)).map fun x => x.1

/-- The node of a level under which a key stands: the last that does not begin behind it, or the first. -/
def nodeUnder (nodes : List (List Leaf)) (key : Bytes) : Nat := (nodes.filter fun n => n.head?.any fun l => !keyLt key l.key).length - 1

/-- The written nodes that a LIST page needs, root and inner nodes with them: those on the way to its keys, or, of an empty page, to its cursor. -/
def State.pageNodes (s : State) (k : KeySpace) (cursor : Bytes) (page : List Leaf) : List (Nat × Nat) :=
  let keys := if page.isEmpty then [cursor] else page.map fun l => l.key
  ((treeLevels k.tree).zipIdx.reverse.flatMap fun lv =>
    (dedup (keys.map (nodeUnder lv.1))).filterMap fun i => lv.1[i]?.bind fun n => s.savedNode k.ks lv.2 n)

/-- Those that the node cache does not hold; a dirty node is always held (R180). -/
def State.nodesDue (s : State) (k : KeySpace) (cursor : Bytes) (page : List Leaf) : List (Nat × Nat) :=
  (s.pageNodes k cursor page).filter fun x => !s.prism.nodeCache.contains x

/-- Use again the nodes of a LIST page. -/
def State.useNodes (s : State) (k : KeySpace) (cursor : Bytes) (page : List Leaf) : State := (s.pageNodes k cursor page).foldl (fun s x => s.cacheNode x.1 x.2) s

/-- Read nodes for a LIST, one page each; once they are read it goes on (R180). -/
def State.readNodes (s : State) (c : Cmd) (due : List (Nat × Nat)) : State :=
  let s := (s.setMbx fun m => m.drop c.adm).setCmd c.adm fun c => { c with st := .checking }
  (due.foldl (fun s x =>
    s.addRead { id := 0, why := .check c.adm, seg := x.1, off := x.2, ks := c.entry.ks, key := c.key, pages := 0 } (pagesFrom x.2 1)) s).pumpReads c.adm

/-- LIST past the common checks (R49, R50, R95, R96). In an unordered key space ST_INVALID goes before ST_BUFFER_SHORT, an order the spec does not
give (DESIGN CHOICE, log 72). -/
def State.listKeys (s : State) (c : Cmd) : State :=
  let e := c.entry
  match s.spaceOf c with
  | none => s.fail c stKsUnknown
  | some k =>
    if !k.ordered then s.fail c stInvalid
    else if e.respLen < 256 then s.fail c stBufferShort
    else
      let shown := s.listShown c k
      let page := takeFit (e.arg 40 2) c.respRoom shown
      let body := page.flatMap listEntry
      let due := s.nodesDue k c.key page
      if !due.isEmpty then s.readNodes c due
      else
        let s := (s.useNodes k c.key page).freeSkip k.tree.length
        s.complete c stOk (page.length + 65536 * b2n (decide (page.length = shown.length))) body.length body

/-- The pages that a command's full-key checks or its ordered-index nodes needed have been read: it goes on (R172, R180). -/
def State.goOn (s : State) (c : Cmd) : State :=
  match c.entry.opcode with
  | 0x01 => s.putGate c
  | 0x02 => s.getKey c
  | 0x03 => s.deleteGate c
  | 0x04 => s.existsKey c
  | 0x07 => s.mget c
  | 0x06 => s.listKeys c
  | 0x08 => s.openGate c
  | _ => s

/-- LIST (R95). -/
def execList (cp : Fin 8) (s : State) : Host.Outcome State Fault Refusal :=
  .next (s.runFront cp.val 0x06 fun s c => if s.lacksPayload c then s else s.checked c State.listKeys)

-- FLUSH.

/-- Whether a command is a write a FLUSH covers: PUT, final PUT_PART, DELETE, DISCARD_RANGE (R69). -/
def Cmd.flushable (c : Cmd) : Bool :=
  isWrite c.entry.opcode && (c.entry.opcode != 0x08 || c.entry.isFinal) && c.src != .mirror

/-- FLUSH past the common checks: it records its scope and waits apart from the mailbox (R69, R101). -/
def State.flush (s : State) (c : Cmd) : State :=
  let scope := fun ks => c.entry.ks == 0xFF || ks == c.entry.ks
  let waiting := (s.cmds.filter fun x => decide (x.adm < c.adm) && x.flushable && x.undecided && scope x.entry.ks).map fun x => x.adm
  let held := (s.land.recs.filter fun r => !r.wt && !r.superseded && r.src != .mirror && decide (r.adm < c.adm) && scope r.ks &&
    (r.st == .visible || r.st == .draining)).map fun r => r.adm
  let acks := (s.mir.sendq.filter fun m => m.live && m.final && decide (m.adm < c.adm) && scope m.ks &&
    decide (s.mir.lapplied ≤ m.lseq) && s.policyAt m.ks m.adm == .sync).map fun m => m.adm
  if waiting.isEmpty && held.isEmpty && acks.isEmpty then s.ok c 0 0
  else ((s.leave c.adm fun c => { c with st := .flushing }).setKv fun k =>
    { k with flushes := k.flushes ++ [{ adm := c.adm, covered := waiting ++ held, acks := acks }] }).pumpDrain

/-- FLUSH (R101). -/
def execFlush (cp : Fin 8) (s : State) : Host.Outcome State Fault Refusal :=
  .next (s.runFront cp.val 0x09 fun s c => s.checked c State.flush)

/-- FLUSH_DONE: every write a FLUSH covers is done (R69). -/
def execFlushDone (adm : Nat) (s : State) : Host.Outcome State Fault Refusal :=
  .next (match s.cmd? adm, s.kv.flushes.find? fun f => f.adm == adm with
    | some c, some f =>
      if s.running && f.covered.isEmpty && f.acks.isEmpty then
        (s.setKv fun k => { k with flushes := k.flushes.filter fun x => x.adm != adm }).ok c 0 0
      else s
    | _, _ => s)

-- Cancelling: ABORT, service resets, ending queue pairs.

/-- Whether a command is before its commit point (R90). -/
def Cmd.cancellable (c : Cmd) : Bool :=
  !commitAtAdmission c.entry.opcode &&
    match c.st with
    | .posted | .waiting _ | .filling | .staged | .reading | .checking | .flushing | .signWait _ => true
    | _ => false

/-- Release what a command holds (R103): its record, its reads, its FLUSH, its place among the ATTESTs. A final part leaves
its assembly as if it had never been sent (R55). -/
def State.releaseHeld (s : State) (c : Cmd) : State :=
  let s : State := match c.rec_ with
    | none => s
    | some id =>
      match s.kv.assemblies.find? fun (a : Assembly) => a.rec_ == id with
      | some a =>
        if a.openAdm = c.adm then s.discardAsm a.id
        else (s.unplace id).setRec id fun r =>
          { r with val := r.val.take a.got, st := .filling, adm := a.openAdm, job := none, place := none }
      | none => s.cancelRec id
  let s := s.stopMove c.adm
  let s := s.setFlash fun f => { f with reads := f.reads.filterMap (fun (r : ReadOp) =>
    if r.serves c.adm then (if r.issued = 0 then none else some { r with why := .none_, pages := r.issued }) else some r) }
  let s := if c.entry.opcode = 0x38 then s.returnFor (.signing c.adm) else s
  let s := s.setSec fun x => { x with attestQ := x.attestQ.filter fun a => a != c.adm }
  s.setKv fun k => { k with flushes := k.flushes.filter fun f => f.adm != c.adm }

/-- Cancel a command before its commit point: it completes with ST_ABORTED (R103). -/
def State.cancel (s : State) (c : Cmd) : State := (s.releaseHeld c).fail c stAborted

/-- The completions of a source that have not been written (R157). -/
def State.unwritten (s : State) (src : Source) : List Completion :=
  match src with
  | .ferry u => ((s.tr.qps.find? fun q => q.uid == u).map fun q => q.cplWait).getD []
  | _ => []

/-- The assembly of a non-final part that a completion answers. -/
def State.partOf (s : State) (k : Completion) : Option Assembly := k.part.bind fun x => s.kv.assemblies.find? fun a => a.rec_ == x.1 && s.asmOpen a

/-- Whether a completion that is not written yet can still be cancelled: its writing is the commit point (R90), and the assembly of a
non-final part is still open. -/
def State.early (s : State) (k : Completion) : Bool := k.early && (k.part.isNone || (s.partOf k).isSome)

/-- A non-final part was never sent: its assembly stands as before it, and is discarded with its opening part (R55). -/
def State.undoPart (s : State) (k : Completion) : State :=
  match k.part, s.partOf k with
  | some (_, at_), some a =>
    if at_ = 0 then s.discardAsm a.id
    else (s.setKv fun kv => { kv with assemblies := kv.assemblies.map fun x => if x.id = a.id then { x with got := at_ } else x }).setRec a.rec_
      fun r => { r with val := r.val.take at_ }
  | _, _ => s

/-- A completion that becomes one with ST_ABORTED and no results (R86, R103). -/
def Completion.abort_ (k : Completion) : Completion :=
  { k with status := stAborted, result0 := 0, result1 := 0, early := false, part := none }

/-- Cancel the command of an unwritten completion of a queue pair. -/
def State.cancelUnwritten (s : State) (uid : Nat) (k : Completion) : State :=
  (s.undoPart k).setTr fun t => { t with qps := t.qps.map fun q =>
    if q.uid = uid then { q with cplWait := q.cplWait.map fun x => if x.adm = k.adm then x.abort_ else x } else q }

/-- Cancel every command of a queue pair whose completion is not written and whose commit point is its writing (R105, R162). -/
def State.cancelEarly (s : State) (uid : Nat) : State :=
  ((s.unwritten (.ferry uid)).filter fun k => s.early k).foldl (fun s k => s.cancelUnwritten uid k) s

/-- Decide an ABORT at one instant (R102, R103). A Ferry command whose completion is not written is still outstanding (R157). -/
def State.decideAbort (s : State) (c : Cmd) : State :=
  let tag := BitVec.ofNat 16 (c.entry.arg 40 2)
  let mine := s.cmds.filter fun x => x.src == c.src && x.entry.tag == tag && decide (x.adm < c.adm)
  let cpl := (s.unwritten c.src).filter fun k => k.tag == tag && decide (k.adm < c.adm)
  if tag = c.entry.tag || mine.any (fun x => x.entry.opcode == 0x0A) || cpl.any (fun k => k.abort) then s.fail c stInvalid
  else
    match mine.head?, cpl.head?, c.src with
    | some t, _, _ => if t.cancellable then (s.cancel t).ok c 0 0 else s.fail c stAlreadyDone
    | none, some k, .ferry u => if s.early k then (s.cancelUnwritten u k).ok c 0 0 else s.fail c stAlreadyDone
    | none, _, _ => s.fail c stAlreadyDone

/-- ABORT (R102-R104, R233): not ordered with the commands of the mailboxes. -/
def execAbort (adm : Nat) (s : State) : Host.Outcome State Fault Refusal :=
  .next (match s.cmd? adm with
    | some c => if c.entry.opcode == 0x0A && c.st == .posted && s.running && s.pwr.ps == 0 then s.checked c State.decideAbort else s
    | none => s)

-- Waiting writes and assemblies.

/-- WRITE_WAIT_RESUME: a waiting write tries its gate again (R26, R75 check 9). -/
def execWriteWaitResume (adm : Nat) (s : State) : Host.Outcome State Fault Refusal :=
  .next (match s.cmd? adm with
    | some c =>
      match c.st with
      | .waiting _ =>
        if !s.running then s
        else
          match c.entry.opcode with
          | 0x01 => s.putGate c
          | 0x08 => s.openGate c
          | 0x03 => s.deleteGate c
          | 0x05 => s.discardGate c
          | _ => s
      | _ => s
    | none => s)

/-- WRITE_WAIT_TIMEOUT: a write that has waited 100 ms at check 9 completes with ST_BUSY (R75); EV_INDEX_STASH_FULL when the
stash was full for its new key (R177). A replicated write waits without limit (R306). -/
def execWriteWaitTimeout (adm : Nat) (s : State) : Host.Outcome State Fault Refusal :=
  .next (match s.cmd? adm with
    | some c =>
      if s.waitedOut c && s.running && c.src != .mirror then
        let stash := (c.entry.opcode == 0x01 || c.entry.opcode == 0x08) && s.stashFull && (s.lookup c.entry.ks c.key).isNone
        let s := if stash then s.logEv evIndexStashFull uPrism c.entry.ks 0 else s
        s.fail c stBusy
      else s
    | none => s)

/-- ASSEMBLY_EXPIRY: an open assembly that has received no part for 30 s is discarded (R55). -/
def execAssemblyExpiry (asm : Nat) (s : State) : Host.Outcome State Fault Refusal :=
  .next (match s.kv.assemblies.find? fun a => a.id == asm with
    | some a => if s.past a.lastPart (30 * oneSec) && s.asmOpen a then s.discardAsm asm else s
    | none => s)

end Sys2Proof.Machine
end

