-- ==== Sys2Proof/Machine/Admission.lean ====
section
/-! DEFINITION. Admission (01 R22-R26, R490; 12 R407), and the credential checks of a HELLO or REQ (12 R398-R402). -/

namespace Sys2Proof.Machine

/-- The CP that serves a share of the digest space now: while one half of the CPs drains in step 4 or 5 of an activation, its
share moves to the other half (R26, R376). -/
def State.servingCp (s : State) (h : Nat) : Nat :=
  if (s.upd.state = 4 || s.upd.rollback) && ((s.upd.step = 4 && h < 4) || (s.upd.step = 5 && 4 ≤ h && h < 8)) then (h + 4) % 8 else h

/-- The mailbox of a command: a CP, 8 for the active SUP, 9 for none: ABORT, and an MGET whose first key is not known yet (R23, R25, R490). -/
def State.homeOf (s : State) (c : Cmd) : Nat :=
  let e := c.entry
  if e.opcode = 0x0A then 9
  else if supOp e.opcode then 8
  else if c.unplaced then 9
  else
    match e.opcode with
    | 0x09 => s.homeCp e.ks []
    | 0x07 =>
      let p := c.payload.getD []
      s.homeCp (fieldAt p 5 1) (slice p (fieldAt p 0 4) (fieldAt p 4 1))
    | _ => s.homeCp e.ks c.key

/-- Post a command behind those already in a mailbox (R23). -/
def Mailbox.post (m : Mailbox) (home adm : Nat) : Mailbox :=
  if home < 8 then { m with cp := modAt m.cp home fun l => l ++ [adm] }
  else if home = 8 then { m with sup := m.sup ++ [adm] }
  else m

/-- Post a command. One whose home CP drains is held until that CP's mailbox is empty, and then goes to the substitute (R26). -/
def State.postCmd (s : State) (c : Cmd) : State :=
  let h := s.homeOf c
  let sub := s.servingCp h
  let hold := sub != h && (!(s.mbx.cp.getD h []).isEmpty || s.mbx.moving.any fun x => x.1 == h)
  (s.setCmd c.adm fun c => { c with home := sub }).setMbx fun m =>
    if hold then { m with moving := m.moving ++ [(h, c.adm)] } else m.post sub c.adm

/-- Admission of FORMAT or SANITIZE records the operation in the configuration partition before it executes (R407). -/
def State.recordSanitize (s : State) (c : Cmd) : State :=
  if (c.entry.opcode = 0x18 || c.entry.opcode = 0x19) && (s.precheck c).isNone then
    let ordered := if c.entry.opcode = 0x18 then decide (c.entry.arg 40 1 = 1) else ((s.space? 0).map fun k => k.ordered).getD false
    s.setSec fun x => { x with san :=
      { mode := if c.entry.opcode = 0x18 then 4 else c.entry.arg 40 1, state := 1, ordered := ordered, adm := some c.adm } }
  else s

/-- Admit a command (R22): it takes the next admission sequence number and is posted to its mailbox. The credit it is charged
stays within the window of its source (R139). It wakes the module (R233). Its payload is asked for unless a check that needs no
transfer refuses it (R155, R163). One that no image of this release serves completes at once (R88 check a). -/
def State.admitCmd (s : State) (c : Cmd) : State :=
  let c := { c with adm := s.mbx.admNext, inSan := decide (s.sec.san.state = 1) }
  let c := { c with home := s.servingCp (s.homeOf c), noFetch := (s.admissionStatus c).isSome }
  let s := ((s.setCmds fun l => l ++ [c]).setMbx fun m => { m with admNext := m.admNext + 1 }).postCmd c
  let s := s.wake.setPwr fun p => { p with idleSince := none }
  let s := s.recordSanitize c
  if !opDefined c.entry.opcode then s.fail c stUnsupported
  else if c.unplaced then
    match s.precheck c with
    | some st => s.fail c st
    | none => s.pumpPay c.src
  else s.pumpPay c.src

/-- An IPv6 link-local address, formed from a MAC address as EUI-64 forms it (R126; the rule of the forming is PRESUMED, log 43). -/
def linkLocal (mac : BitVec 48) : Bytes :=
  let m := be 6 mac.toNat
  be 2 0xFE80 ++ be 6 0 ++ (m.headD 0 ^^^ 2) :: slice m 1 2 ++ be 2 0xFFFE ++ m.drop 3

/-- Whether an address is one of a port's own (R126): its IPv4 address unless that is all zero, its IPv6 global address unless that is,
and its link-local address. -/
def State.ownAddr (s : State) (p : Fin 2) (a : Bytes) : Bool :=
  let c := s.portCfg p
  let v4 := c.ipv4.1.toNat % 2 ^ 32
  let v6 := be 8 c.ipv6.1.toNat ++ be 8 c.ipv6.2.toNat
  (v4 != 0 && isV4 a && a.drop 12 == be 4 v4) || (!allZero v6 && a == v6) || a == linkLocal (if p = 0 then s.ident.mac0 else s.ident.mac1)

/-- A command as it comes from a source, before it is numbered. `part` is as much of its request payload as came with it. -/
def newCmd (src : Source) (role : Nat) (cf : Bool) (e : Entry) (part : Bytes) (maxResp : Nat) : Cmd :=
  { adm := 0, src := src, role := role, chainFerry := cf, entry := e,
    key := if hasKey e.opcode || e.opcode == 0x05 || e.opcode == 0x06 then part.take e.keyLen else [],
    payload := if part.length = e.reqLen then some part else none, maxResp := maxResp }

/-- Whether a source already has a command outstanding under a tag, a completion that waits for room in its queue included
(R124, R157). -/
def State.tagBusy (s : State) (src : Source) (tag : BitVec 16) : Bool :=
  (s.cmds.any fun c => c.src == src && c.entry.tag == tag) ||
    match src with
    | .ferry u => s.tr.qps.any fun q => q.uid == u && q.cplWait.any fun k => k.tag == tag
    | _ => false

/-- Whether the transport engines take requests: at and after the service instant, and not once admission has stopped
(R165, R431, R436, R222 step 1). -/
def State.accepting (s : State) : Bool := (s.life.phase == 9 || s.life.phase == 11) && !s.shutting

-- Credentials.

/-- What a credential check answers. -/
inductive Cred where
  | outOfRange
  | refused
  | granted (role : Nat)
  deriving DecidableEq, Repr

/-- The last four octets of an address, the first in bits [31:24] (R409). -/
def addrTail (a : Bytes) : Nat := unBe (a.drop 12)

/-- The key of a credential kind, from the commissioning secret (R399). -/
def roleKey (secret : Bytes) (kind : Nat) : Bytes :=
  hmac secret (ascii (match kind with | 1 => "polune-op" | 2 => "polune-adm" | _ => "polune-cf"))

/-- The roles a credential kind may request on a commissioned module (R400). -/
def kindGrants (kind role : Nat) : Bool :=
  match kind with
  | 1 => role == 0
  | 2 => decide (role ≤ 1)
  | 3 => role == 1
  | _ => false

/-- Whether an address is in a refusal period (R402). -/
def State.inRefusal (s : State) (addr : Bytes) : Bool :=
  s.sec.track.any fun t => t.addr == addr && t.refuseFrom.any fun f => decide (s.now < f + 60 * oneSec)

/-- Write EV_AUTH_FAIL (R402, R409). -/
def State.authEvent (s : State) (rx : Rx) (kind : Nat) (unchecked : Bool) : State :=
  s.logEv evAuthFail uCrypto (kind + 256 * rx.port.val + 512 * b2n unchecked) (addrTail rx.hostAddr)

/-- Count a failed check of an address; the eighth within 60 s starts a refusal period (R402). At most 256 addresses, the oldest
replaced. -/
def State.authFail (s : State) (rx : Rx) (kind : Nat) : State :=
  let old := (s.sec.track.find? fun t => t.addr == rx.hostAddr).getD { addr := rx.hostAddr }
  let fails := s.now :: old.fails.filter fun f => decide (s.now < f + 60 * oneSec)
  let t : AuthTrack := if 8 ≤ fails.length then { addr := rx.hostAddr, refuseFrom := some s.now } else { addr := rx.hostAddr, fails := fails }
  (s.setSec fun x => { x with track := (t :: x.track.filter fun y => y.addr != rx.hostAddr).take 256 }).authEvent rx kind false

/-- Set a measurement entry (R391). -/
def State.measure (s : State) (i : Nat) (version : Nat) (digest : Bytes) : State :=
  s.setSec fun x => { x with meas := modAt x.meas i fun _ => { valid := true, version := version, digest := digest } }

/-- The measurement of the security state: commissioned flag, media-salt generation, slot started at boot (R391). The bytes it is a digest of
are PRESUMED (log 25). -/
def State.measureSecurity (s : State) : State :=
  s.measure 7 0 (sha256 (le 1 (b2n s.sec.secret.isSome) ++ le 8 s.sec.salt ++ le 1 s.life.bootSlot))

/-- Check the credential of a HELLO or REQ (R398-R402). `lead` is HELLO body bytes 0-15 or REQ private data bytes 0-39, `udp`
the host UDP port or 0, `cred` the 48 credential bytes, `role` the role asked for. Commissioning stores the secret (R401). -/
def State.checkCred (s : State) (rx : Rx) (udp : Nat) (lead cred : Bytes) (role : Nat) : State × Cred :=
  let kind := fieldAt cred 0 1
  let proof := slice cred 16 32
  if 4 < kind || !allZero (slice cred 1 15) then (s, .outOfRange)
  else if s.inRefusal rx.hostAddr then (s.authEvent rx kind true, .refused)
  else
    match s.sec.secret with
    | none =>
      if kind ≠ 4 then (s, .granted role)
      else if allZero proof then (s, .outOfRange)
      else (((s.setSec fun x => { x with secret := some proof }).measureSecurity).logEv evCommissioned uCrypto rx.port.val (addrTail rx.hostAddr), .granted 1)
    | some secret =>
      let msg := s.ident.serial ++ rx.hostAddr ++ le 2 udp ++ lead ++ cred.take 16
      if kindGrants kind role && proof == hmac (roleKey secret kind) msg then (s, .granted role)
      else (s.authFail rx kind, .refused)

/-- AUTH_REFUSAL_END: a refusal period of 60 s has ended; counting starts afresh (R402). -/
def execAuthRefusalEnd (addr : Bytes) (s : State) : Host.Outcome State Fault Refusal :=
  .next (s.setSec fun x => { x with track := x.track.filter fun t =>
    !(t.addr == addr && t.refuseFrom.any fun f => decide (f + 60 * oneSec ≤ s.now)) })

end Sys2Proof.Machine
end

