-- ==== Sys2Proof/Machine/Skiff.lean ====
section
/-! DEFINITION. The Skiff engine: datagrams, sessions, sequence numbers, the hold pool and the duplicate window
(04 R127-R146). -/

namespace Sys2Proof.Machine

/-- A Skiff datagram's header as received (R128). -/
structure SkiffIn where
  typ : Nat
  sid : Nat
  flags : Nat
  seq : BitVec 32
  ack : BitVec 32
  cookie : BitVec 32
  deriving DecidableEq, Repr

/-- Read a header; none for a datagram that R130 discards: wrong magic, unknown version, too short, a type the host does not
send, a reserved field that is not zero. Fields that R128 gives one value in a direction are not tested: session_id and cookie of a HELLO, and
credit, frag_index, frag_count and reason of any host datagram are ignored (DESIGN CHOICE, log 75). -/
def parseSkiff (dg : Bytes) : Option SkiffIn :=
  let f := fieldAt dg
  if dg.length < 32 || f 0 2 ≠ 0xC5F1 || f 2 1 ≠ 1 || !([1, 3, 5, 6, 8].contains (f 3 1)) || f 6 2 / 16 ≠ 0 || f 26 6 ≠ 0 then none
  else some { typ := f 3 1, sid := f 4 2, flags := f 6 2, seq := BitVec.ofNat 32 (f 8 4), ack := BitVec.ofNat 32 (f 12 4),
              cookie := BitVec.ofNat 32 (f 20 4) }

/-- One more datagram discarded (R130). -/
def State.countDiscard (s : State) : State :=
  s.setTr fun t => { t with counters := { t.counters with dgramDiscard := (t.counters.dgramDiscard + 1) % 2 ^ 32 } }

/-- Change a session. -/
def State.setSession (s : State) (uid : Nat) (f : Session → Session) : State :=
  s.setTr fun t => { t with sessions := t.sessions.map fun x => if x.uid = uid then f x else x }

/-- A session by its unique number. -/
def State.session? (s : State) (uid : Nat) : Option Session := s.tr.sessions.find? fun x => x.uid == uid

/-- The session a datagram names by session_id and cookie and arrives from where it is bound (R130, R134). An expired session
is no longer open. -/
def State.sessionFor (s : State) (rx : Rx) (h : SkiffIn) : Option Session :=
  s.tr.sessions.find? fun x => x.sid == h.sid && x.cookie == h.cookie && x.st != .expired &&
    x.rx.port == rx.port && x.rx.hostAddr == rx.hostAddr && x.rx.hostUdp == rx.hostUdp && x.rx.localAddr == rx.localAddr &&
    x.rx.localUdp == rx.localUdp

/-- Take the ack field of a host datagram, and note that a valid datagram arrived: an idle period of `idle` seconds begins (R135, R138,
R144, R146). -/
def Session.takeAck (x : Session) (a : BitVec 32) (now idle : Nat) : Session :=
  let d := fwd 32 x.hostAck.toNat a.toNat
  let n := fwd 32 x.hostAck.toNat x.nextExpected.toNat
  let x := { x with lastRx := now, idleS := idle }
  if n < d then x
  else { x with hostAck := a, dup := x.dup.filter fun e => decide (d ≤ fwd 32 x.hostAck.toNat e.seq.toNat) }

/-- Handle a datagram of one type on an open session; malformed ones are counted, unknown sessions are rejected (R130). A
datagram of another type is another row's. The header of the REJECT echoes session_id, seq and cookie, with ack and credit 0, and bytes behind
the header of an ACK, KEEPALIVE or CLOSE are ignored (DESIGN CHOICE, logs 18 and 69). One for an address that is not the port's is no datagram
of the module's (R126). -/
def State.onSession (s : State) (rx : Rx) (dg : Bytes) (typ : Nat) (f : State → Session → SkiffIn → State) : State :=
  if !s.ownAddr rx.port rx.localAddr then s
  else match parseSkiff dg with
  | none => s.countDiscard
  | some h =>
    if h.typ ≠ typ then s
    else if !s.accepting || !s.portUsable rx.port then s.countDiscard
    else
      match s.sessionFor rx h with
      | none => s.reject rx h.sid h.seq.toNat 0 0 h.cookie.toNat 1
      | some x =>
        let x := x.takeAck h.ack s.now s.stored.skiffIdle
        f (s.setSession x.uid fun _ => x) x h

/-- Send an ACK on a session (R143). -/
def State.sendAck (s : State) (x : Session) (seq flags : Nat) : State := s.sendSkiff x.rx (x.hdr 5 flags seq 0 0 0)

/-- A REJECT on a session (R131). -/
def State.rejectOn (s : State) (x : Session) (seq reason : Nat) : State :=
  s.reject x.rx x.sid seq x.nextExpected.toNat x.credits.inUse x.cookie.toNat reason

-- Commands.

/-- Put a CMD into the hold pool, replacing a held copy of its seq; discard it where the pool or the session's share is full
(R137). Answers whether it is held. -/
def State.holdCmd (s : State) (uid : Nat) (seq : BitVec 32) (rx : Rx) (dg : Bytes) : State × Bool :=
  let new : Held := { uid := uid, seq := seq, rx := rx, dg := dg, since := s.now }
  let rest := s.tr.hold.filter fun h => !(h.uid == uid && h.seq == seq)
  if rest.length < s.tr.hold.length || (decide (rest.length < 2048) && decide ((rest.filter fun h => h.uid == uid).length < 32)) then
    (s.setTr fun t => { t with hold := rest ++ [new] }, true)
  else
    (s.setTr fun t => { t with counters := { t.counters with holdDiscard := (t.counters.holdDiscard + 1) % 2 ^ 32 } }, false)

/-- A CMD at next_expected: length, tag and credit, then admission (R136). Answers whether it was admitted. -/
def State.cmdNext (s : State) (x : Session) (seq : BitVec 32) (dg : Bytes) : State × Bool :=
  let e := parseEntry (slice dg 32 64)
  if dg.length ≠ 96 + e.reqLen || x.maxDgram < dg.length then (s.rejectOn x seq.toNat 5, false)
  else if s.tagBusy (.skiff x.uid) e.tag then (s.rejectOn x seq.toNat 4, false)
  else if x.credits.inUse ≤ x.cmds.outstanding then (s.rejectOn x seq.toNat 2, false)
  else
    let c := newCmd (.skiff x.uid) x.role (x.credKind == 3) e (dg.drop 96) (16 * (x.maxDgram - 64))
    let adm := s.mbx.admNext
    let s := s.setSession x.uid fun x =>
      { x with nextExpected := x.nextExpected + 1, cmds := x.cmds.admitOne, lastAdm := some adm, dup := x.dup ++ [{ seq := seq, adm := adm }] }
    (s.admitCmd { c with seq := seq.toNat }, true)

/-- Handle the held CMD at the new next_expected, again and again while one is found (R137). -/
def State.drainHeld : Nat → State → Nat → State
  | 0, s, _ => s
  | n + 1, s, uid =>
    match s.session? uid with
    | none => s
    | some x =>
      match s.tr.hold.find? fun h => h.uid == uid && h.seq == x.nextExpected with
      | none => s
      | some h =>
        if x.st != .opened || s.life.svc.isSome then s
        else
          let s := s.setTr fun t => { t with hold := t.hold.filter fun y => !(y.uid == uid && y.seq == h.seq) }
          let (s, ok) := s.cmdNext x h.seq h.dg
          if ok then State.drainHeld n s uid else s

/-- A retransmit inside the duplicate window (R136, R142, R143): the completion again, or a pending ACK at most once in 1 ms. That limit
also holds an ACK that ack_req asks for (DESIGN CHOICE, log 44). -/
def State.cmdAgain (s : State) (x : Session) (seq : BitVec 32) : State :=
  match x.dup.find? fun d => d.seq == seq with
  | none => s
  | some d =>
    match d.cpl with
    | some k =>
      (s.sendRsp x seq.toNat k (1 + 4 * b2n d.evicted)).setTr fun t =>
        { t with counters := { t.counters with resent := (t.counters.resent + 1) % 2 ^ 32 } }
    | none =>
      if d.lastPend.any fun t => decide (s.now < t + ms) then s
      else
        (s.sendAck x seq.toNat 2).setSession x.uid fun y =>
          { y with dup := y.dup.map fun e => if e.seq = seq then { e with lastPend := some s.now } else e }

/-- A CMD on its session, by where its seq falls (R136, R137, R143, R145). An outstanding command's retransmit gets the pending ACK alone,
whatever its ack_req (log 44). -/
def State.takeCmd (s : State) (rx : Rx) (dg : Bytes) (x : Session) (h : SkiffIn) : State :=
  let d := fwd 32 x.hostAck.toNat h.seq.toNat
  let n := fwd 32 x.hostAck.toNat x.nextExpected.toNat
  let acked := fun (s : State) => if h.flags / 8 % 2 = 1 then s.sendAck ((s.session? x.uid).getD x) h.seq.toNat 0 else s
  if 2 ^ 31 < d then s
  else if d < n then
    let pending := (x.dup.find? fun e => e.seq == h.seq).any fun e => e.cpl.isNone
    if pending then s.cmdAgain x h.seq else acked (s.cmdAgain x h.seq)
  else if x.st != .opened then s.countDiscard
  else if 256 ≤ d then acked (s.rejectOn x h.seq.toNat 3)
  else if d = n && s.life.svc.isNone then
    let (s, ok) := s.cmdNext x h.seq dg
    if ok then
      let s := s.setTr fun t => { t with hold := t.hold.filter fun y => !(y.uid == x.uid && y.seq == h.seq) }
      acked (s.drainHeld 256 x.uid)
    else acked s
  else
    let (s, held) := s.holdCmd x.uid h.seq rx dg
    if held then acked s else s

/-- CMD (R136). -/
def execCmd (rx : Rx) (dg : Bytes) (s : State) : Host.Outcome State Fault Refusal :=
  .next (s.onSession rx dg 3 fun s x h => s.takeCmd rx dg x h)

/-- ACK from the host (R135): its host_ack releases entries of the duplicate window. -/
def execAck (rx : Rx) (dg : Bytes) (s : State) : Host.Outcome State Fault Refusal := .next (s.onSession rx dg 5 fun s _ _ => s)

/-- KEEPALIVE: answered with an ACK (R143). -/
def execKeepalive (rx : Rx) (dg : Bytes) (s : State) : Host.Outcome State Fault Refusal :=
  .next (s.onSession rx dg 8 fun s x h => s.sendAck x h.seq.toNat 0)

/-- HELD_CMD_EXPIRY: a held CMD is discarded after 50 ms (R137). -/
def execHeldCmdExpiry (sid : Fin 512) (seq : BitVec 32) (s : State) : Host.Outcome State Fault Refusal :=
  .next (
    let due := fun (h : Held) => h.seq == seq && s.past h.since (50 * ms) && (s.session? h.uid).any fun x => x.sid == sid.val
    let n := (s.tr.hold.filter due).length
    s.setTr fun t => { t with hold := t.hold.filter fun h => !due h,
                              counters := { t.counters with holdDiscard := (t.counters.holdDiscard + n) % 2 ^ 32 } })

-- Opening and ending sessions.

/-- Discard the open assemblies of a source (R55). -/
def State.discardOf (s : State) (src : Source) : State := s.discardAsms fun a => a.src == src

/-- A session expires, or is closed by a new HELLO: nothing further is admitted; commands run on (R144). -/
def State.expireSession (s : State) (uid : Nat) : State :=
  ((s.setSession uid fun x => { x with st := .expired, since := s.now }).discardOf (.skiff uid)).settleSession uid

/-- The HELLO_ACK datagram of a session (R132). -/
def State.helloAck (s : State) (x : Session) : Bytes :=
  x.hdr 2 0 0 0 0 0 ++ le 2 x.window0 ++ le 2 x.maxDgram ++ le 1 x.role ++ le 3 0 ++ le 4 x.initialSeq.toNat ++ le 4 x.nonce.toNat ++
    le 4 s.stored.skiffIdle ++ le 4 0

/-- The lowest session_id that is free (DESIGN CHOICE, log 10). -/
def State.freeSid (s : State) : Option Nat := (List.range 512).find? fun n => s.tr.sessions.all fun x => x.sid != n

/-- Whether the fields of a HELLO body are in range (R131 reason 9, R132). Bytes beyond the 64 of the body are ignored (DESIGN CHOICE,
log 69). -/
def helloFieldsOk (b : Bytes) : Bool :=
  let f := fieldAt b
  decide (64 ≤ b.length) && decide (1 ≤ f 0 2) && decide (f 0 2 ≤ 256) && decide (1024 ≤ f 2 2) && decide (f 2 2 ≤ 8704) &&
    decide (f 4 1 ≤ 1) && f 5 3 == 0

/-- Open a session for a HELLO that has passed its checks (R133). A REJECT of a HELLO carries session_id 0xFFFF, and seq, cookie, ack and
credit 0 (DESIGN CHOICE, log 18). -/
def State.openSession (s : State) (rx : Rx) (b : Bytes) (role : Nat) : State :=
  let f := fieldAt b
  let no := fun reason => s.reject rx 0xFFFF 0 0 0 0 reason
  match s.freeSid with
  | none => no 7
  | some sid =>
    let free := s.freeCredits
    if free = 0 then no 8
    else
      let w := min (f 0 2) free
      let seq0 := BitVec.ofNat 32 (f 8 4)
      let x : Session :=
        { uid := s.tr.nextUid, sid := sid, rx := rx, cookie := BitVec.ofNat 32 (1 + s.freeVal % (2 ^ 32 - 1)), nonce := BitVec.ofNat 32 (f 12 4),
          role := role, credKind := f 16 1, reqWindow := f 0 2, window0 := w, maxDgram := f 2 2, initialSeq := seq0, nextExpected := seq0,
          hostAck := seq0, lastRx := s.now, idleS := s.stored.skiffIdle, credits := { granted := w, inUse := w }, since := s.now }
      let s := s.freeNext.setTr fun t => { t with sessions := t.sessions ++ [x], nextUid := t.nextUid + 1 }
      s.sendSkiff rx (s.helloAck x)

/-- A well-formed HELLO (R133); what a REJECT of it carries is the model's choice (log 18). -/
def State.takeHello (s : State) (rx : Rx) (b : Bytes) : State :=
  let here := fun (x : Session) => x.st == .opened && x.rx.hostAddr == rx.hostAddr && x.rx.hostUdp == rx.hostUdp
  let nonce := BitVec.ofNat 32 (fieldAt b 12 4)
  match s.tr.sessions.find? fun x => here x && x.nonce == nonce with
  | some x => s.sendSkiff x.rx (s.helloAck x)
  | none =>
    if !helloFieldsOk b then s.reject rx 0xFFFF 0 0 0 0 9
    else
      match s.checkCred rx rx.hostUdp (b.take 16) (slice b 16 48) (fieldAt b 4 1) with
      | (s, .outOfRange) => s.reject rx 0xFFFF 0 0 0 0 9
      | (s, .refused) => s.reject rx 0xFFFF 0 0 0 0 6
      | (s, .granted role) =>
        let s := (s.tr.sessions.filter here).foldl (fun s x => s.expireSession x.uid) s
        s.openSession rx b role

/-- HELLO (R133): at the Skiff UDP port in force, once the module accepts HELLOs. One for an address that is not the port's is no datagram of
the module's (R126). -/
def execHello (rx : Rx) (dg : Bytes) (s : State) : Host.Outcome State Fault Refusal :=
  .next (if !s.ownAddr rx.port rx.localAddr then s
    else match parseSkiff dg with
    | none => s.countDiscard
    | some h =>
      if h.typ ≠ 1 then s
      else if !s.accepting || !s.portUsable rx.port || rx.localUdp ≠ s.stored.skiffPort then s.countDiscard
      else s.takeHello rx (dg.drop 32))

/-- CLOSE: admission stops; a retransmitted CLOSE is answered once CLOSE_ACK has been sent (R145). -/
def execClose (rx : Rx) (dg : Bytes) (s : State) : Host.Outcome State Fault Refusal :=
  .next (s.onSession rx dg 6 fun s x _ =>
    match x.st with
    | .opened => (s.setSession x.uid fun y => { y with st := .closing, since := s.now }).discardOf (.skiff x.uid)
    | .closeAcked _ => s.sendSkiff x.rx (x.hdr 7 0 0 0 0 0)
    | _ => s)

/-- CLOSE_ACK: sent once every outstanding completion of a closing session has been sent (R145). -/
def execCloseAck (sid : Fin 512) (s : State) : Host.Outcome State Fault Refusal :=
  .next (match s.tr.sessions.find? fun x => x.sid == sid.val && x.st == .closing && x.cmds.outstanding == 0 with
    | some x => (s.sendSkiff x.rx (x.hdr 7 0 0 0 0 0)).setSession x.uid fun y => { y with st := .closeAcked s.now }
    | none => s)

/-- SESSION_FREE: 2 s after CLOSE_ACK the session is freed and its window returned (R145). -/
def execSessionFree (sid : Fin 512) (s : State) : Host.Outcome State Fault Refusal :=
  .next (match s.tr.sessions.find? fun x => x.sid == sid.val with
    | some x =>
      match x.st with
      | .closeAcked t => if s.past t (2 * oneSec) then s.freeSession x.uid else s
      | _ => s
    | none => s)

/-- SESSION_EXPIRY: no valid datagram for the SKIFF_IDLE seconds of the running idle period; a session that is closing expires too
(R144, R146). -/
def execSessionExpiry (sid : Fin 512) (s : State) : Host.Outcome State Fault Refusal :=
  .next (match s.tr.sessions.find? fun x => x.sid == sid.val && (x.st == .opened || x.st == .closing) with
    | some x => if s.past x.lastRx (x.idleS * oneSec) then s.expireSession x.uid else s
    | none => s)

-- Reassembly and the requests a port answers.

/-- One more reassembly or fragment discarded (R127). -/
def State.countReasm (s : State) (n : Nat) : State :=
  s.setTr fun t => { t with counters := { t.counters with reasmDiscard := (t.counters.reasmDiscard + n) % 2 ^ 32 } }

/-- Whether datagrams to a UDP port are Skiff's: the port in force, or one that a session still open was opened on (R127, R146). -/
def State.skiffUdp (s : State) (udp : Nat) : Bool :=
  udp == s.stored.skiffPort || s.tr.sessions.any fun x => x.st != .expired && x.rx.localUdp == udp

/-- Whether fragments cover a datagram from its first byte to its last (R127). -/
def covered : Nat → Nat → List Fragment → Bool
  | 0, _, _ => false
  | n + 1, at_, fs =>
    match fs.find? fun f => decide (f.offset ≤ at_) && (decide (at_ < f.offset + f.data.length) || (!f.more && f.offset + f.data.length == at_)) with
    | none => false
    | some f => !f.more || covered n (f.offset + f.data.length) fs

/-- IP_FRAGMENT (R127): a fragment joins its reassembly. A complete datagram leaves the pool and comes as its own row
(log 11). -/
def execIpFragment (f : Fragment) (s : State) : Host.Outcome State Fault Refusal :=
  .next (
    let mine := fun (r : Reasm) => r.port == f.port && r.srcAddr == f.srcAddr && r.ident == f.ident
    if !s.accepting || !s.portUsable f.port || !s.skiffUdp f.dstUdp || !s.ownAddr f.port f.dstAddr then s.countReasm 1
    else
      match s.tr.reasm.find? mine with
      | none =>
        if 1024 ≤ s.tr.reasm.length || 8712 < f.offset + f.data.length then s.countReasm 1
        else s.setTr fun t => { t with reasm := t.reasm ++ [{ port := f.port, srcAddr := f.srcAddr, ident := f.ident, frags := [f], since := s.now }] }
      | some r =>
        if 8712 < f.offset + f.data.length then (s.setTr fun t => { t with reasm := t.reasm.filter fun x => !mine x }).countReasm 1
        else
          let fs := r.frags ++ [f]
          if covered fs.length 0 fs then s.setTr fun t => { t with reasm := t.reasm.filter fun x => !mine x }
          else s.setTr fun t => { t with reasm := t.reasm.map fun x => if mine x then { x with frags := fs } else x })

/-- REASSEMBLY_TIMEOUT: an incomplete reassembly is discarded after 50 ms and counted (R127). -/
def execReassemblyTimeout (port : Fin 2) (srcAddr : Bytes) (ident : Nat) (s : State) : Host.Outcome State Fault Refusal :=
  .next (
    let due := fun (r : Reasm) => r.port == port && r.srcAddr == srcAddr && r.ident == ident && s.past r.since (50 * ms)
    let n := (s.tr.reasm.filter due).length
    (s.setTr fun t => { t with reasm := t.reasm.filter fun r => !due r }).countReasm n)

/-- Whether a port answers a request of this kind for an address: the address is its own, and of the request's IP version (R126). -/
def State.answers (s : State) (p : Fin 2) (k : EchoKind) (a : Bytes) : Bool :=
  s.ownAddr p a && isV4 a == match k with
    | .arp | .icmp4Echo => true
    | _ => false

/-- ARP_ND_ECHO_REQUEST: answered on a linked port, before the service instant too (R127, R436); it
wakes the module (R233). -/
def execArpNdEchoRequest (rx : Rx) (kind : EchoKind) (len : Nat) (s : State) : Host.Outcome State Fault Refusal :=
  .next (
    if s.portUsable rx.port && s.life.mainOn && (s.port rx.port).link && s.answers rx.port kind rx.localAddr then
      s.wake.sendIp rx.port rx.hostAddr (s.portCfg rx.port).txPcp 0 len (.echo kind rx.hostAddr len)
    else s)

end Sys2Proof.Machine
end

