-- ==== Sys2Proof/Machine/Ferry.lean ====
section
/-! DEFINITION. The Ferry engine: connections, doorbells, entry and payload fetch, completion queues and notification, and the
ways a queue pair ends (04 R147-R163). -/

namespace Sys2Proof.Machine

/-- Change a queue pair. -/
def State.setQp (s : State) (uid : Nat) (f : Qp → Qp) : State :=
  s.setTr fun t => { t with qps := t.qps.map fun (q : Qp) => if q.uid = uid then f q else q }

/-- A queue pair by its unique number. -/
def State.qpById (s : State) (uid : Nat) : Option Qp := s.tr.qps.find? fun q => q.uid == uid

/-- A queue pair by its number; a freed one no longer counts. -/
def State.qpOf (s : State) (n : Nat) : Option Qp :=
  s.tr.qps.find? fun q => q.qp == n && (match q.st with | .freed _ => false | _ => true)

/-- Whether fields of a REQ's private data are in range (R148). -/
def reqFieldsOk (b : Bytes) : Bool :=
  let f := fieldAt b
  decide (88 ≤ b.length) && f 0 1 == 1 && decide (f 1 1 ≤ 1) && decide (f 2 1 < 3) && f 3 1 == 0 &&
    decide (2 ≤ f 4 2) && decide (f 4 2 ≤ 4096) && decide (2 ≤ f 6 2) && decide (f 6 2 ≤ 4096) && f 8 8 % 4096 == 0 && f 24 8 % 4096 == 0 &&
    decide (1 ≤ f 32 2) && decide (f 32 2 ≤ f 4 2 - 1) && f 38 2 == 0 &&
    (f 2 1 != 2 || (decide (1 ≤ f 34 2) && decide (f 34 2 ≤ 256) && decide (f 36 2 ≤ 1000)))

/-- The lowest queue pair number that may be used: none of an open one, or of one freed less than 2 s ago (R162; DESIGN CHOICE,
log 10). While every number that is not open is in its 2 s, a REQ is refused with ST_BUSY (DESIGN CHOICE, log 10). -/
def State.freeQpNo (s : State) : Option Nat :=
  (List.range 1024).find? fun n => s.tr.qps.all fun q => q.qp != n || (match q.st with | .freed t => s.past t (2 * oneSec) | _ => false)

/-- Queue pairs that are open or ending. -/
def State.openQps (s : State) : List Qp := s.tr.qps.filter fun q => match q.st with | .freed _ => false | _ => true

/-- Whether a queue pair runs: one whose port has no link stops (R32). -/
def State.qpUp (s : State) (q : Qp) : Bool := (s.port q.rx.port).link

/-- Answer a REQ with a REJ (R149). -/
def State.rej (s : State) (rx : Rx) (st : Status) : State := s.sendRoce rx 0 (.rej st) 2

/-- Open a queue pair for a REQ that has passed its checks (R149). -/
def State.openQp (s : State) (rx : Rx) (b : Bytes) (role : Nat) : State :=
  let f := fieldAt b
  let free := s.freeCredits
  match s.freeQpNo with
  | none => s.rej rx stBusy
  | some n =>
    if 1024 ≤ s.openQps.length || free = 0 then s.rej rx stBusy
    else
      let w := min (f 32 2) free
      let q : Qp :=
        { uid := s.tr.nextUid, qp := n, rx := rx, role := role, credKind := f 40 1, notifyMode := f 2 1, sqEntries := f 4 2, cqEntries := f 6 2,
          sqAddr := f 8 8, sqRkey := f 16 4, cqRkey := f 20 4, cqAddr := f 24 8, reqCredits := f 32 2, notifyCount := f 34 2, notifyUs := f 36 2,
          dbRkey := BitVec.ofNat 32 s.freeVal, sentAt := s.now, credits := { granted := w, inUse := w }, since := s.now }
      let s := s.freeNext.setTr fun t => { t with qps := (t.qps.filter fun x => x.qp != n) ++ [q], nextUid := t.nextUid + 1 }
      let priv := le 1 1 ++ le 1 role ++ le 2 n ++ le 2 w ++ le 2 0 ++ le 8 (Config.doorbellBase + 64 * n) ++ le 4 q.dbRkey.toNat ++ le 4 0
      s.sendRoce rx n (.rep priv) 24

/-- CONNECTION_REQ (R148, R149, R398-R401). -/
def execConnectionReq (rx : Rx) (priv : Bytes) (s : State) : Host.Outcome State Fault Refusal :=
  .next (
    if !s.part.ta || !s.accepting || !s.portUsable rx.port || !s.ownAddr rx.port rx.localAddr then s
    else if !reqFieldsOk priv then s.rej rx stInvalid
    else
      match s.checkCred rx 0 (priv.take 40) (slice priv 40 48) (fieldAt priv 1 1) with
      | (s, .outOfRange) => s.rej rx stInvalid
      | (s, .refused) => s.rej rx stAuth
      | (s, .granted role) => s.openQp rx priv role)

-- Ending.

/-- Whether a command of a queue pair that ends is cancelled (R162): it is before its commit point, and no final part whose bytes have come
or can still come: that completes as a write (R55). Which of R55 and R162 decides a final part is the model's choice (log 45). -/
def Cmd.endsWithQp (c : Cmd) (deliver : Bool) : Bool :=
  c.cancellable &&
    !(c.entry.opcode == 0x08 && c.entry.isFinal && c.rec_.isSome && (deliver || c.payload.isSome))

/-- A queue pair ends (R162): fetching stops; commands before their commit points are cancelled; the rest run on, but for one whose payload
can come no more (log 45); completions that wait are counted, and written only while the connection accepts writes; open assemblies are
discarded. -/
def State.endConnection (s : State) (uid : Nat) (deliver : Bool) : State :=
  match s.qpById uid with
  | none => s
  | some q =>
    match q.st with
    | .freed _ => s
    | _ =>
      let s := (s.setQp uid fun q => { q with st := .ended deliver, reads := [], fetched := [], since := if q.st == .opened then s.now else q.since }).cancelEarly uid
      let s := if deliver then s else s.setQp uid fun q =>
        { q with cplWait := [], cmds := q.cplWait.foldl (fun l _ => l.finish) q.cmds, haltSlot := none, held := [], payReads := [], posted := [], rnr := false,
                 unNotified := 0 }
      let s := if deliver then s else (s.cmds.filter fun c => c.src == .ferry uid).foldl State.failMoves s
      let s := (s.cmds.filter fun c => c.src == .ferry uid && c.endsWithQp deliver).foldl (fun s c => s.cancel c) s
      let s := if deliver then s
        else (s.cmds.filter fun c => c.src == .ferry uid && c.payload.isNone).foldl (fun s c => (s.releaseHeld c).fail c stHostAccess) s
      (s.discardOf (.ferry uid)).settleQp uid

/-- The module halts a queue pair at a slot (R153, R162). -/
def State.haltQp (s : State) (uid slot : Nat) : State :=
  (s.setQp uid fun q => { q with haltSlot := some slot }).endConnection uid true

/-- HOST_DISCONNECT (R162). -/
def execHostDisconnect (qp : Fin 1024) (s : State) : Host.Outcome State Fault Refusal :=
  .next (match s.qpOf qp.val with
    | some q => s.endConnection q.uid false
    | none => s)

/-- CONNECTION_FAILURE: retry limit exceeded, a fatal NAK, or a port reset of its port (R162). -/
def execConnectionFailure (qp : Fin 1024) (s : State) : Host.Outcome State Fault Refusal :=
  .next (match s.qpOf qp.val with
    | some q => s.endConnection q.uid false
    | none => s)

/-- LOCAL_ACK_TIMEOUT: 67 ms after the connection's last operation or answer the operation is sent again; the eighth timeout exceeds the
retry limit of 7 and the connection fails (R147, R162). -/
def execLocalAckTimeout (qp : Fin 1024) (s : State) : Host.Outcome State Fault Refusal :=
  .next (match s.qpOf qp.val with
    | some q =>
      if !s.past q.sentAt (67 * ms) then s
      else if 7 ≤ q.retries then s.endConnection q.uid false
      else (s.setQp q.uid fun q => { q with retries := q.retries + 1, sentAt := s.now }).sendRoce q.rx q.qp .retransmit 0
    | none => s)

/-- The queue pair that a failed payload transfer of a command concerns: the command is outstanding, its completion waits to be written or is
written and not yet behind cq_head, or a read of its payload is still in flight (R163). -/
def State.qpOfTransfer (s : State) (adm : Nat) : Option Qp :=
  s.openQps.find? fun q => (s.cmd? adm).any (fun c => c.src == .ferry q.uid) || q.cplWait.any (fun k => k.adm == adm) || q.posted.contains adm ||
    q.payReads.contains adm

/-- An UPD_OFFER whose response was not taken has no effect (R84): the session it joined loses its source; one it opened that no other source has
joined gives way to what it found. -/
def Update.undoOffer (u : Update) (adm : Nat) : Update :=
  match u.undo with
  | none => u
  | some b =>
    if b.adm ≠ adm then u
    else if !b.opened then { u with sources := if b.sources.contains b.src then u.sources else u.sources.filter (fun x => x != b.src), undo := none }
    else if u.state = 1 && u.sources == [b.src] then
      let t := fun (x : Slot) (mine : Bool) => if mine then b.slot else x
      { u with state := b.state, result := b.result, sources := b.sources, header := b.header, held := b.held, partials := b.partials,
               slotA := t u.slotA (u.confirmed == 1), slotB := t u.slotB (u.confirmed == 0), badSigLast := b.badSigLast, autoUsed := b.autoUsed,
               fwd := b.fwd, undo := none }
    else { u with undo := none }

/-- The command of a failed transfer completes with ST_HOST_ACCESS and has no effect (R84): one in progress releases what it held, one whose
completion waits has that completion replaced. -/
def State.failTransfer (s : State) (uid adm : Nat) : State :=
  match s.cmd? adm with
  | some c => if c.cancellable || c.payload.isNone then ((s.failMoves c).releaseHeld c).fail c stHostAccess else s
  | none => (s.setUpd fun u => u.undoOffer adm).setQp uid fun q =>
      { q with cplWait := q.cplWait.map fun k =>
          if k.adm = adm then { k with status := stHostAccess, result0 := 0, result1 := 0, early := false, part := none } else k }

/-- A payload transfer fails: the command, whose request payload did not come or whose response was not taken, completes with ST_HOST_ACCESS,
counted and not delivered, and the connection ends; its open assemblies are discarded (R84, R162, R163). -/
def State.nakTransfer (s : State) (adm : Nat) : State :=
  match s.qpOfTransfer adm with
  | some q =>
    let s := (s.setQp q.uid fun q => { q with st := .ended false }).failTransfer q.uid adm
    (s.endConnection q.uid false).discardOf (.ferry q.uid)
  | none => s

/-- PAYLOAD_TRANSFER_NAK (R84, R163). -/
def execPayloadTransferNak (adm : Nat) (s : State) : Host.Outcome State Fault Refusal := .next (s.nakTransfer adm)

/-- QUEUE_PAIR_FREE: a queue pair with nothing outstanding returns its credits; 2 s later its number may be used again
(R162). -/
def execQueuePairFree (qp : Fin 1024) (s : State) : Host.Outcome State Fault Refusal :=
  .next (match s.qpOf qp.val with
    | some q => s.settleQp q.uid
    | none => s.setTr fun t => { t with qps := t.qps.filter fun q =>
        !(q.qp == qp.val && (match q.st with | .freed a => s.past a (2 * oneSec) | _ => false)) })

-- Fetch.

/-- Slots from the fetch position to sq_tail that no RDMA Read has asked for yet, within the free credits (R154). -/
def Qp.wanted (q : Qp) : Nat :=
  let asked := sumBy q.reads id
  let posted := (q.sqTail + q.sqEntries - q.fetchPos) % q.sqEntries
  min (posted - asked) (q.credits.inUse - q.cmds.outstanding - asked)

/-- Ask for entries: at most 32 in one RDMA Read, none across the end of the queue, at most 16 reads in flight, those of payloads with
them (R147, R154). -/
def State.fetchMore : Nat → State → Nat → State
  | 0, s, _ => s
  | n + 1, s, uid =>
    match s.qpById uid with
    | none => s
    | some q =>
      let at_ := (q.fetchPos + sumBy q.reads id) % q.sqEntries
      let k := min (min 32 q.wanted) (q.sqEntries - at_)
      if k = 0 || 16 ≤ q.reads.length + q.payReads.length || q.st != .opened || !s.qpUp q || s.life.svc.isSome || !s.accepting then s
      else
        State.fetchMore n ((s.setQp uid fun q => { q with reads := q.reads ++ [k], sentAt := s.now }).sendRoce q.rx q.qp (.readEntries at_ k) 16) uid

/-- cq_head moves: the completions before it have been consumed, so what was written before them has landed. -/
def Qp.moveHead (q : Qp) (head : Nat) : Qp := { q with cqHead := head, posted := q.posted.drop ((head + q.cqEntries - q.cqHead) % q.cqEntries) }

/-- A doorbell takes effect (R151-R153). On a queue pair that the module has halted only cq_head counts, so that the completions that wait
for room are still written (R162). -/
def State.ringDoorbell (s : State) (q : Qp) (offset : Nat) (data : Bytes) : State :=
  let tail := if offset = 0 then fieldAt data 0 2 else q.sqTail
  let head := if offset = 8 then fieldAt data 0 2 else if data.length = 16 then fieldAt data 8 2 else q.cqHead
  let dist := fun x => (x + q.cqEntries - q.cqHead) % q.cqEntries
  let bad := decide (q.cqEntries ≤ head) || decide (dist q.cqTail < dist head)
  match q.st with
  | .opened =>
    if q.sqEntries ≤ tail || bad then s.haltQp q.uid q.fetchPos
    else (s.setQp q.uid fun q => { q.moveHead head with sqTail := tail, retries := 0 }).fetchMore 128 q.uid
  | .ended true => if bad then s else s.setQp q.uid fun q => { q.moveHead head with retries := 0 }
  | _ => s

/-- DOORBELL (R151-R153): an RDMA Write to the slot of a connection. One received during a service reset takes effect when the reset ends
(R164). -/
def execDoorbell (qp : Fin 1024) (offset : Nat) (data : Bytes) (s : State) : Host.Outcome State Fault Refusal :=
  .next (match s.qpOf qp.val with
    | none => s
    | some q =>
      if q.st == .ended false || !s.qpUp q then s
      else if 64 < offset + data.length then s.sendRoce q.rx q.qp .nakAccess 0
      else if !((data.length == 8 && (offset == 0 || offset == 8)) || (data.length == 16 && offset == 0)) then
        s.setTr fun t => { t with counters := { t.counters with doorbellIgnored := (t.counters.doorbellIgnored + 1) % 2 ^ 32 } }
      else if s.life.svc.isSome then s.setQp q.uid fun q => { q with held := q.held ++ [(offset, data)] }
      else s.ringDoorbell q offset data)

/-- The doorbells that a queue pair received during a service reset take effect, oldest first (R164). -/
def State.ringHeld : List (Nat × Bytes) → State → Nat → State
  | [], s, _ => s
  | d :: l, s, uid =>
    match s.qpById uid with
    | some q => State.ringHeld l (s.ringDoorbell q d.1 d.2) uid
    | none => s

/-- Admit fetched entries in slot order; an outstanding tag halts the queue pair at its slot (R153, R154). -/
def State.admitEntries (s : State) (uid sqHead : Nat) : List (Nat × Bytes) → State
  | [] => s
  | (slot, b) :: rest =>
    match s.qpById uid with
    | none => s
    | some q =>
      let e := parseEntry (b.take 64)
      if q.st != .opened then s
      else if s.tagBusy (.ferry uid) e.tag then s.haltQp uid slot
      else
        let c := newCmd (.ferry uid) q.role (q.credKind == 3) e (b.drop 64) 67108864
        let adm := s.mbx.admNext
        let s := s.setQp uid fun q => { q with cmds := q.cmds.admitOne, lastAdm := some adm }
        (s.admitCmd { c with sqHead := sqHead }).admitEntries uid sqHead rest

/-- Admit the entries that one RDMA Read has brought: the fetch position moves past them (R154). -/
def State.admitFetched (s : State) (uid : Nat) (entries : List Bytes) : State :=
  match s.qpById uid with
  | none => s
  | some q =>
    let n := entries.length
    let pos := (q.fetchPos + n) % q.sqEntries
    let slots := (List.range n).map fun i => (q.fetchPos + i) % q.sqEntries
    (s.setQp uid fun q => { q with fetchPos := pos }).admitEntries uid pos (slots.zip entries)

/-- A queue pair resumes after a service reset, which its connection state has survived: what its reads have brought meanwhile is admitted, its
doorbells take effect, and it goes on fetching entries and payloads (R164; that order is the model's choice, log 74). -/
def State.resumeQp (s : State) (q : Qp) : State :=
  let s := q.fetched.foldl (fun s l => s.admitFetched q.uid l) (s.setQp q.uid fun q => { q with held := [], fetched := [] })
  ((s.ringHeld q.held q.uid).fetchMore 128 q.uid).pumpPay (.ferry q.uid)

/-- ENTRY_FETCH_RESPONSE (R154). Each operand is a 64-byte entry, followed by the key bytes the admission step reads from the
request payload (R23, log 12). What comes during a service reset is kept, and admitted when it ends (R164; the model's choice, log 74). -/
def execEntryFetchResponse (qp : Fin 1024) (entries : List Bytes) (s : State) : Host.Outcome State Fault Refusal :=
  .next (match s.qpOf qp.val with
    | none => s
    | some q =>
      match q.reads with
      | n :: rest =>
        if q.st != .opened || n ≠ entries.length || !s.qpUp q || !s.accepting then s
        else
          let s := s.setQp q.uid fun q => { q with reads := rest, retries := 0, sentAt := s.now }
          if s.life.svc.isSome then s.setQp q.uid fun q => { q with fetched := q.fetched ++ [entries] }
          else ((s.admitFetched q.uid entries).fetchMore 128 q.uid).pumpPay (.ferry q.uid)
      | [] => s)

/-- A command's request payload has come: an MGET is posted now that its first key is known (R25); a value begins to fill its record
(R182, R287). -/
def State.takePayload (s : State) (c : Cmd) (data : Bytes) : State :=
  let c' := { c with payload := some data }
  let s := s.setCmd c.adm fun x => { x with payload := some data }
  match c.st, c.rec_ with
  | .filling, some id =>
    if (if c.entry.opcode = 0x08 then c.entry.partLen else c.entry.valueLen) = 0 then s else s.fill id
  | _, _ => if c.unplaced then s.postCmd c' else s

/-- PAYLOAD_FETCH_RESPONSE: the oldest payload read of a connection has come back (R147, R155). One whose command has ended meanwhile is
dropped. -/
def execPayloadFetchResponse (adm : Nat) (data : Bytes) (s : State) : Host.Outcome State Fault Refusal :=
  .next (match s.openQps.find? fun q => q.payReads.head? == some adm with
    | none => s
    | some q =>
      if !s.qpUp q || (s.cmd? adm).any fun c => data.length != c.entry.reqLen then s
      else
        let s := s.setQp q.uid fun q => { q with payReads := q.payReads.drop 1, retries := 0, sentAt := s.now }
        let s := match s.cmd? adm with
          | some c => s.takePayload c data
          | none => s
        (s.fetchMore 128 q.uid).pumpPay (.ferry q.uid))

-- Completions.

/-- Whether the next completion is written with immediate (R159). -/
def Qp.notifies (q : Qp) (now : Nat) : Bool :=
  match q.notifyMode with
  | 1 => true
  | 2 => decide (q.notifyCount ≤ q.unNotified + 1) || (decide (0 < q.unNotified) && decide (q.oldestUn + q.notifyUs * 1000 ≤ now))
  | _ => false

/-- Immediate data of a notification (R159). -/
def Qp.imm (q : Qp) (tail : Nat) : BitVec 32 := BitVec.ofNat 32 (q.qp * 65536 + tail)

/-- Whether the completion queue has room: (cq_tail + 1) mod cq_entries differs from cq_head (R157). -/
def Qp.cqRoom (q : Qp) : Bool := (q.cqTail + 1) % q.cqEntries != q.cqHead

/-- An immediate has been sent: whether the host had a receive posted for it is a free value. Without one the module sends it again without
limit, and completions behind it wait (R147, R159). -/
def State.spendReceive (s : State) (uid : Nat) : State :=
  (s.setQp uid fun q => { q with rnr := s.freeVal % 2 == 1 }).freeNext

/-- COMPLETION_WRITE (R157, R159): the oldest completion that waits is written at cq_tail, unless the queue is full, the port has no link
(R32), or a notification waits for a receive: that is tried again first. Its command is then complete, and its credit is free. -/
def execCompletionWrite (qp : Fin 1024) (s : State) : Host.Outcome State Fault Refusal :=
  .next (match s.qpOf qp.val with
    | none => s
    | some q =>
      match q.cplWait with
      | [] => s
      | k :: rest =>
        if !q.cqRoom || !s.qpUp q then s
        else if q.rnr then (s.spendReceive q.uid).sendRoce q.rx q.qp .retransmit 0
        else
          let tail := (q.cqTail + 1) % q.cqEntries
          let note := q.notifies s.now
          let body := { k with def_ := q.defFlag }.entry q.phase
          let s := s.setQp q.uid fun q =>
            { q with cplWait := rest, posted := q.posted ++ [k.adm], cqTail := tail, phase := if tail = 0 then !q.phase else q.phase, defFlag := false,
                     unNotified := if note || q.notifyMode ≠ 2 then 0 else q.unNotified + 1,
                     oldestUn := if q.unNotified = 0 then s.now else q.oldestUn, cmds := q.cmds.finish, sentAt := s.now }
          let s := s.sendRoce q.rx q.qp (.writeCompletion (q.cqAddr + 32 * q.cqTail) body (if note then some (q.imm tail) else none)) 48
          let s := if note then s.spendReceive q.uid else s
          (s.fetchMore 128 q.uid).settleQp q.uid)

/-- NOTIFY_TIMER: notify_us has passed since the oldest un-notified entry and no entry is left to write (R159). A connection that has ended
takes no write (R162). -/
def execNotifyTimer (qp : Fin 1024) (s : State) : Host.Outcome State Fault Refusal :=
  .next (match s.qpOf qp.val with
    | some q =>
      if q.st != .ended false && s.qpUp q && q.notifyMode = 2 && 0 < q.unNotified && !q.rnr && s.past q.oldestUn (q.notifyUs * 1000) && (q.cplWait.isEmpty || !q.cqRoom) then
        ((s.setQp q.uid fun q => { q with unNotified := 0, sentAt := s.now }).sendRoce q.rx q.qp (.immediate (q.imm q.cqTail)) 0).spendReceive q.uid
      else s
    | none => s)

end Sys2Proof.Machine
end

