-- ==== Sys2Proof/Machine/Replay.lean ====
section
/-! DEFINITION. The durable index: what the latest checkpoint slices and the durable journal hold (05 R193-R196). -/

namespace Sys2Proof.Machine

/-- What a replay has built so far. -/
structure Replay where
  rows : List IdxRow := []
  ranges : List Range := []
  deriving DecidableEq, Repr

/-- Put a row, replacing the row of its key. -/
def Replay.put (p : Replay) (r : IdxRow) : Replay :=
  if p.rows.any fun x => x.ks == r.ks && x.key == r.key then
    { p with rows := p.rows.map fun x => if x.ks = r.ks && x.key = r.key then r else x }
  else { p with rows := p.rows ++ [r] }

/-- Remove the row of a key. -/
def Replay.remove (p : Replay) (ks : Nat) (key : Bytes) : Replay :=
  { p with rows := p.rows.filter fun x => !(x.ks == ks && x.key == key) }

/-- Replay effect of one journal record (R193). -/
def Replay.apply (p : Replay) (r : JRec) : Replay :=
  match r with
  | .mapSet ks key loc len adm ep => p.put { ks := ks, key := key, loc := loc, len := len, adm := adm, epoch := ep }
  | .mapDelete ks key _ => p.remove ks key
  | .mapReclaim ks key => p.remove ks key
  | .mapMove ks key old new =>
    { p with rows := p.rows.map fun x => if x.ks = ks && x.key = key && x.loc = old then { x with loc := new } else x }
  | .mapLost ks key index len adm ep =>
    { p with rows := p.rows.map fun x =>
        if x.ks = ks && x.key = key then { x with loc := .lost index, len := len, adm := adm, epoch := ep } else x }
  | .rangeDiscard id ks lo hi adm ep =>
    { p with ranges := (p.ranges.filter fun x => x.id != id) ++ [{ id := id, ks := ks, lo := lo, hi := hi, adm := adm, epoch := ep }] }
  | .rangeDone id _ => { p with ranges := p.ranges.filter fun x => x.id != id }
  | _ => p

/-- Whether a copy holds a durable record with a good CRC (R255). -/
def Journal.holds (j : Journal) (copy : Fin 2) (n : Nat) : Bool := j.log.any (fun r => r.1 == n) && !(j.torn.any fun t => t.1 == n && t.2 != copy)

/-- The records that replay takes: each from a copy whose CRC is good, up to the first number that neither copy holds so (R255). -/
def Journal.readable (j : Journal) : List (Nat × JRec) := j.log.takeWhile fun r => j.holds 0 r.1 || j.holds 1 r.1

/-- The state of the index as of the last durable record: the rows of the latest slices, then the journal in order from the
CKPT_BEGIN of the oldest of them (R196). -/
def Journal.replay (j : Journal) : Replay :=
  let newest := j.slices.foldl (fun (b : Nat × List Range) x => if b.1 ≤ x.beginJseq then (x.beginJseq, x.ranges) else b) (0, [])
  let oldest := if j.slices.length < 16 then 0 else j.slices.foldl (fun n x => min n x.beginJseq) j.jseqNext
  (j.readable.filter fun r => decide (oldest ≤ r.1)).foldl (fun p r => p.apply r.2)
    { rows := j.slices.flatMap fun x => x.rows, ranges := newest.2 }

/-- The slice of the bucket table a key lies in: one sixteenth of the table by its first-choice bucket (R195). -/
def State.sliceOf (s : State) (ks : Nat) (key : Bytes) : Nat :=
  bucket1 s.idxBits (s.digest ks key) / 2 ^ (s.idxBits - 4)

/-- The keys of each key space that a replay has found (R193). -/
def Replay.keyCounts (p : Replay) : List (Nat × Nat) :=
  (dedup (p.rows.map fun r => r.ks)).map fun ks => (ks, (p.rows.filter fun r => r.ks == ks).length)

/-- The stash image (R177, R193). -/
def Prism.stashImage (p : Prism) : List (BitVec 32 × Loc) := (p.entries.filter fun e => e.place == .stash).map fun e => (e.tag, e.loc)

/-- The contents of a slice whose CKPT_BEGIN has a number (R195). -/
def State.sliceAt (s : State) (k begin_ : Nat) : Slice :=
  let p := s.jrn.replay
  { slice := k, beginJseq := begin_, rows := p.rows.filter (fun r => s.sliceOf r.ks r.key == k), ranges := p.ranges,
    stash := s.prism.stashImage, keys := p.keyCounts }

/-- Bytes of one slice: a sixteenth of the buckets, 64 bytes each (R195). -/
def State.sliceBytes (s : State) : Nat := 64 * 2 ^ s.idxBits / 16

/-- A dirty node as the record that is to be written: of type 4, with the fields of key space 0 (R243). -/
def State.nodeRec (s : State) (id level : Nat) (n : List Leaf) : FRec :=
  let k := s.kv.spaces.find? fun k => k.ks == 0
  { off := 0, span := spanOf 0 16384, kind := .internal, ks := 0, key := [], epoch := s.life.bootEpoch, adm := id, len := 16384, val := encodeNode level n,
    digest := 0, tweak := (k.map fun k => k.tweak).getD 0, keyId := (k.map fun k => k.keyId).getD 0, src := .mbx }

/-- The dirty nodes of a checkpoint go to the relocation stream, with the tweaks that are next (R180, R195, R250, R396). -/
def State.queueNodes (s : State) : State :=
  let now := s.treeNodes
  let s := s.setPrism fun p => { p with nodes := p.nodes.filter fun n => now.contains (n.ks, n.level, n.leaves) && s.nodeStands n }
  let s := s.setFlash fun f => { f with nodeq := [] }
  (now.filter fun x => (s.savedNode x.1 x.2.1 x.2.2).isNone).foldl (fun s x =>
    let id := s.prism.nextNode
    let r := s.nodeRec id x.2.1 x.2.2
    let s := s.setPrism fun p => { p with nodes := p.nodes ++ [{ id := id, ks := x.1, level := x.2.1, leaves := x.2.2 }], nextNode := id + 1 }
    (s.setFlash fun f => { f with nodeq := f.nodeq ++ [r] }).setSpaces (fun k => k.ks == 0) fun k => k.useTweak r.span) s

/-- Whether every node of the checkpoint is programmed. -/
def State.nodesWritten (s : State) : Bool := s.flash.nodeq.isEmpty && s.prism.nodes.all fun n => n.place.isSome

/-- Begin the next slice in turn: CKPT_BEGIN is journalled, tokens are asked for one pSLC program unit in each copy at a time, and the dirty
ordered-index nodes are queued (R195, R211, R214, R257). -/
def State.beginSlice (s : State) : State :=
  let n := s.jrn.jseqNext
  let k := s.jrn.sliceNext
  let s := s.setJrn fun j => { j with writing := some { slice := k, beginJseq := n, rows := [], ranges := [] }, sliceNext := (k + 1) % 16,
                                      sealsSince := 0, bytesSince := 0 }
  ((s.journal (.ckptBegin k n) true).askTokens 0 12 .checkpoint).queueNodes

/-- The pages of the slice are programmed in both copies: CKPT_DONE is journalled, and the slice is complete when that is durable (R195). It
holds the index as it stood then; updates went on while it was written. -/
def State.endSlice (s : State) (x : Slice) : State :=
  let y := s.sliceAt x.slice x.beginJseq
  let s := ((s.copyHouse 7 s.sliceBytes x.slice).returnFor .checkpoint).metaProgram (2 * s.sliceBytes)
  let s := s.setJrn fun j => { j with writing := some y }
  s.journalThen (.ckptDone x.slice x.slice y.stash y.keys) (.slice x.slice) true

/-- Keep a complete slice in place of its predecessor; the journal before the oldest CKPT_BEGIN of the set is no longer needed (R195,
R257). -/
def Journal.keepSlice (j : Journal) (x : Slice) : Journal :=
  let sl := (j.slices.filter fun y => y.slice != x.slice) ++ [x]
  let oldest := if sl.length < 16 then 0 else sl.foldl (fun n y => min n y.beginJseq) x.beginJseq
  { j with slices := sl, log := j.log.filter fun r => decide (oldest ≤ r.1) }

/-- All 16 slices, written one after the other from the one durable index: a clean shutdown and the compact index change (R195, R199). Their
records are durable with them. -/
def State.writeAllSlices (s : State) : State :=
  let p := s.jrn.replay
  let n := s.jrn.jseqNext
  let all : List Slice := (List.range 16).map fun k =>
    { slice := k, beginJseq := n + 2 * k, rows := p.rows.filter (fun r => s.sliceOf r.ks r.key == k), ranges := p.ranges,
      stash := s.prism.stashImage, keys := p.keyCounts }
  let recs := all.flatMap fun x => [(x.beginJseq, JRec.ckptBegin x.slice x.beginJseq), (x.beginJseq + 1, .ckptDone x.slice x.slice x.stash x.keys)]
  s.under 12 .checkpoint fun s => (((s.copyHouse 7 (16 * s.sliceBytes) 0).setJrn fun j =>
    { j with slices := all, writing := none, log := recs, torn := [], jseqNext := n + 32, sliceNext := 0, sealsSince := 0, bytesSince := 0 })).metaProgram
      (32 * s.sliceBytes)

end Sys2Proof.Machine
end

