-- ==== Sys2Proof/Machine/Drain.lean ====
section
/-! DEFINITION. The drain, the journal and the index in the background: programmed rows, durable map records, write-through,
checkpoints, stash and reclaim (05 R177-R179, R188-R195; 07 R245-R247, R254-R257, R261, R266). -/

namespace Sys2Proof.Machine

/-- Change a program job. -/
def State.setJob (s : State) (id : Nat) (f : Job → Job) : State :=
  s.setFlash fun x => { x with jobs := x.jobs.map fun j => if j.id = id then f j else j }

/-- Drop a program job. -/
def State.dropJob (s : State) (id : Nat) : State := s.setFlash fun x => { x with jobs := x.jobs.filter fun j => j.id != id }

-- The relocation stream.

/-- The relocation stream's lane, opened where there is none and fewer than two segments are on their way. -/
def State.relocLane (s : State) : State × Option Segment :=
  match s.laneFor 2 with
  | some g => (s, some g)
  | none => if 2 ≤ s.laneCount 2 then (s, none) else ((s.openLane 2).1, (s.openLane 2).2.bind (s.openLane 2).1.seg?)

/-- Whether copies of a reason are held: for space, repacking or wear during the write pause, and repacking above 110 °C (R228, R271, R272). -/
def State.holdsCopies (s : State) (why : Nat) : Bool :=
  (s.thm.writePause && !(why == 2 || why == 3)) || (why == 4 && decide (110 < s.thm.t))

/-- Whether a copy is held. -/
def State.copyPaused (s : State) (c : Copy) : Bool :=
  (s.seg? c.seg).any fun g => match g.st with
    | .copying why => s.holdsCopies why
    | _ => false

/-- What waits to be placed in the relocation stream: ordered-index nodes, then the copies of a source that goes on (R250, R261). -/
def State.relocQueue (s : State) : List JobItem :=
  let moves := match s.flash.copy with
    | some c => if c.started && !s.copyPaused c then c.ready.map fun r => ({ rec_ := r, old := some (flashLoc c.seg r) } : JobItem) else []
    | none => []
  (s.flash.nodeq.map fun r => ({ rec_ := r } : JobItem)) ++ moves

/-- Whether a relocation unit that is not full starts now: a checkpoint waits for its nodes, or every live record of the source has been
read. -/
def State.relocForced (s : State) : Bool :=
  !s.nodesWritten || match s.flash.copy with
    | some c => c.listed && !s.copyPaused c && !(s.flash.reads.any fun r => r.why == .gc)
    | none => false

/-- Take what was placed out of the queue of the relocation stream; what was not stays in its order. -/
def State.setRelocQueue (s : State) (rest : List JobItem) : State :=
  let held := fun (r : FRec) (b : Bool) => rest.any fun i => i.rec_ == r && i.old.isSome == b
  s.setFlash fun x =>
    { x with nodeq := x.nodeq.filter (fun r => held r false)
             copy := x.copy.map fun c => if s.copyPaused c then c else { c with ready := c.ready.filter fun r => held r true } }

/-- Start a relocation unit: a full one, or a padded one that is forced (R250, R261); none where none may start. A unit beyond the first goes to the
stream's second lane. -/
def State.relocUnit (s : State) : Option State :=
  let q := s.relocQueue
  let lane := s.laneFor 2
  let have_ := (lane.map fun g => g.next - g.prog).getD 0
  let bytes := have_ + sumBy q fun i => i.rec_.span
  if bytes = 0 || !(s.relocForced || decide ((lane.map fun g => g.unitBytes).getD 1572864 ≤ bytes)) then none
  else
    let r := s.relocLane
    r.2.map fun g =>
      let p := placeItems g q
      let s := r.1.setRelocQueue p.2.1
      let g' : Segment := { p.1 with st := if p.2.2 then .full else p.1.st }
      if g'.next = g'.prog then (s.setSeg g.seg fun _ => g').pumpSummaries else s.startUnit g' .relocation

/-- Start the relocation units that may start, two lanes' worth (R250); none after the trip of a hold-up sequence or in a close (R263). -/
def State.pumpReloc (s : State) : State :=
  if s.shutting then s
  else match s.relocUnit with
    | none => s
    | some s' => (s'.relocUnit).getD s'

/-- Whether no record of a source is on its way through a program unit. -/
def State.noneMoving (s : State) (c : Copy) : Bool :=
  let ofSrc := fun (i : JobItem) => match i.old with
    | some (.flash g _ _) => g == c.seg
    | _ => false
  !(s.flash.jobs.any fun j => j.items.any ofSrc) && !(s.flash.segs.any fun g => g.tail.any ofSrc)

/-- Whether every live record of the running copy has moved (R261). -/
def State.copyFinished (s : State) (c : Copy) : Bool :=
  c.listed && c.ready.isEmpty && !(s.flash.reads.any fun r => r.why == .gc) && s.noneMoving c

/-- End the copy once every live record has moved: COPY_DONE is journalled (R261), but not after the hold-up trip (R263). -/
def State.finishCopy (s : State) : State :=
  match s.flash.copy with
  | none => s
  | some c =>
    if s.shutting || !s.copyFinished c then s
    else
      let g := s.seg? c.seg
      ((s.setFlash fun f => { f with copy := none }).setSeg c.seg fun g => { g with st := .copied }).journal
        (.copyDone c.seg ((g.map fun g => g.moved).getD 0) ((g.map fun g => g.deadFound).getD 0)) true

-- Program units.

/-- The records of a job and of its segment's tail go back to where they came from, for a unit that has no place in the segment any more:
Landing and staging records are placed anew, copies wait to be placed again. -/
def State.placeAnew (s : State) (j : Job) : State :=
  let items := j.items ++ ((s.seg? j.seg).map fun g => g.tail).getD []
  let back := fun (r : LRec) =>
    if items.any (fun i => i.land == some r.id) then
      { r with job := none, place := none, st := if r.wt then .valid else if r.superseded then .superseded else .visible }
    else r
  let s := s.setLand fun l => { l with recs := l.recs.map back }
  let s := s.setFlash fun f =>
    { f with copy := f.copy.map (fun c => { c with ready := c.ready ++ (items.filter fun i => i.old.isSome).map fun i => i.rec_ })
             nodeq := f.nodeq ++ (items.filter fun i => i.old.isNone && i.rec_.kind == .internal).map fun i => i.rec_ }
  (s.setSeg j.seg fun g => { g with tail := [], st := .full, prog := g.cap, next := g.cap }).dropJob j.id

/-- A failed unit is written again in its segment's next program unit, and the failed channels leave the channel set from that unit on; its
rows count as dead (R266). A smaller row may take one unit more. -/
def State.writeAgain (s : State) (j : Job) (g : Segment) : State :=
  let left := j.all.filter fun c => !j.failed.contains c
  let old := g.unitRows * 16384 * dataPages j.all.length
  let start := if j.kind == .summary then g.cap - (j.more + 1) * old else g.prog - old
  let g1 := { g.relay start (g.rowOf start + g.unitRows) (setOf left) with retireCh := g.retireCh ++ j.failed }
  let units := if j.kind == .summary then (g1.cap - start) / max g1.unitBytes 1 else ceilDiv old (max g1.unitBytes 1)
  let top := if j.kind == .summary then g1.cap else start + units * g1.unitBytes
  if g1.rowBytes = 0 || units = 0 || g1.cap < top then (s.setSeg j.seg fun _ => g1).placeAnew j
  else
    (s.setSeg j.seg fun _ => { g1 with prog := top, next := max g1.next top }).setJob j.id fun j =>
      { j with chans := left, all := left, failed := [], more := units - 1, queued := true }

/-- The next unit of the rows that end a segment, over the channels of the last one that are still live (R245, R276). -/
def State.nextUnit (s : State) (j : Job) (g : Segment) : State :=
  let live := j.all.filter fun c => (s.liveCh j.pos (segSlot j.seg)).contains c
  if live = j.all then s.setJob j.id fun j => { j with chans := j.all, more := j.more - 1, queued := true }
  else
    let start := g.cap - j.more * g.unitRows * 16384 * dataPages j.all.length
    let g1 := g.relay start (g.rowOf start) (setOf live)
    let units := (g1.cap - start) / max g1.unitBytes 1
    if g1.rowBytes = 0 || units = 0 then (s.setSeg j.seg fun _ => { g1 with prog := g1.cap }).dropJob j.id
    else (s.setSeg j.seg fun _ => { g1 with prog := g1.cap }).setJob j.id fun j => { j with chans := live, all := live, more := units - 1, queued := true }

/-- A job has no program running: its next unit, or a failed unit written again on the other channels, waits for its turn (R214), or it is left to
be journalled (R245, R247, R266). -/
def State.unitEnded (s : State) (j : Job) : State :=
  if !j.failed.isEmpty then
    match s.seg? j.seg with
    | some g => s.writeAgain j g
    | none => s.dropJob j.id
  else if 0 < j.more then
    match s.seg? j.seg with
    | some g => s.nextUnit j g
    | none => s.dropJob j.id
  else if j.items.isEmpty then s.dropJob j.id
  else s

/-- One program of a unit has ended on a die. -/
def State.programEnded (s : State) (j : Job) (ch : Nat) (ok : Bool) : State :=
  let s := s.returnFor (.program j.id ch)
  let s := if ok then s else s.logEv evProgramFail uFlash (ch + 256 * j.pos) (s.blockOf ch j.pos (segSlot j.seg))
  let s := if ok then s.setSeg j.seg fun g => { g with bands := g.bands ++ [(ch, s.bandOf ch j.pos)] } else s
  let j' := { j with chans := j.chans.filter (fun c => c != ch), failed := if ok then j.failed else j.failed ++ [ch] }
  let s := (s.setJob j.id fun _ => j').setFlash fun f =>
    { f with programmed := f.programmed + (if j.pslc then 32768 else 98304),
             dies := f.dies.map fun d => if d.ch = ch && d.pos = j.pos then { d with suspends := 0 } else d }
  if j'.chans.isEmpty then (s.unitEnded j').pumpQueued j.pos else s

/-- The job with a program running on a die that holds its grant (R209). -/
def State.jobOn (s : State) (ch pos : Nat) : Option Job :=
  s.flash.jobs.find? fun j => j.pos == pos && j.chans.contains ch && (s.grantFor (.program j.id ch)).isSome

/-- PROGRAM_UNIT_DONE: a program unit ends on a die and its tokens return (R247, R266). -/
def execProgramUnitDone (ch : Fin 18) (pos : Fin 4) (ok : Bool) (s : State) : Host.Outcome State Fault Refusal :=
  .next (match s.jobOn ch.val pos.val with
    | some j => ((s.programEnded j ch.val ok).pumpReloc).pumpDrain
    | none => s)

/-- DRAIN_PARTIAL_ROW_TIMER: a stream whose oldest record has waited 20 ms programs a padded partial row (R188). -/
def execDrainPartialRowTimer (st : Stream) (s : State) : Host.Outcome State Fault Refusal :=
  .next ((s.drainStream 8 (match st with | .small => 0 | .large => 1)).pumpSummaries)

/-- The map record of a drained item, and whether its Landing record is to be kept until it is durable (R190). -/
def State.mapRecord (s : State) (seg : Nat) (i : JobItem) : JRec :=
  let new := flashLoc seg i.rec_
  match i.land.bind s.rec? with
  | none => .mapDead i.rec_.ks new
  | some r =>
    match r.kind with
    | .value =>
      let named := !s.reclaiming r.loc && (s.lookup r.ks r.key).any fun e => e.loc == r.loc
      if !r.superseded && (r.wt || named) then .mapSet r.ks r.key new r.len r.adm r.epoch else .mapDead r.ks new
    | .tombstone => .mapDelete r.ks r.key r.adm
    | _ => .rangeDiscard (writeId r.adm r.epoch) r.ks r.key r.upper r.adm r.epoch

/-- An internal record is programmed: its node stands there now. No map record says so (R180, R193). -/
def State.nodeItem (s : State) (seg : Nat) (i : JobItem) : State :=
  match i.old with
  | some (.flash g o _) =>
    let live := s.nodeLive g o
    (if live then s.moveNode (g, o) (seg, i.rec_.off) else s).setSeg g fun x => { x with moved := x.moved + b2n live, deadFound := x.deadFound + b2n (!live) }
  | _ => s.placeNode i.rec_.adm seg i.rec_.off

/-- Journal the map records of a job's items in order; items whose key space is gone get none (R45), nor do ordered-index nodes. The headers
written enter the header cache (R175). Answers the items with their journal numbers. -/
def State.journalItems (s : State) (seg : Nat) : List JobItem → State × List JobItem
  | [] => (s, [])
  | i :: r =>
    if i.dropped then
      let s := match i.land with | some id => s.freeRec id | none => s
      s.journalItems seg r
    else if i.rec_.kind = .internal then (s.nodeItem seg i).journalItems seg r
    else
      let s := (s.touchBuckets i.rec_.ks i.rec_.key).cacheHeader seg i.rec_.off
      let n := s.jrn.jseqNext
      let m := match i.old with
        | some old =>
          if s.prism.entries.any fun e => e.loc == old then .mapMove i.rec_.ks i.rec_.key old (flashLoc seg i.rec_)
          else .mapDead i.rec_.ks (flashLoc seg i.rec_)
        | none => s.mapRecord seg i
      let (s, l) := (s.setJrn fun j => j.append s.now m true).journalItems seg r
      (s, { i with jseq := some n } :: l)

/-- Whether a record's map record is still to be journalled: it waits for a unit, or its unit is another job that is not journalled yet. -/
def State.mapDue (s : State) (r : LRec) (job : Nat) : Bool :=
  r.waits || r.job.any fun k => k != job && s.flash.jobs.any fun j => j.id == k && !j.journalled

/-- Whether an earlier write of a key that this job holds is still on its way to the journal: the map records of one key are journalled in
admission order, across streams and units (R188, R194). -/
def State.mapTooEarly (s : State) (j : Job) : Bool :=
  j.items.any fun i => i.old.isNone && s.land.recs.any fun r =>
    r.ks == i.rec_.ks && r.key == i.rec_.key && decide (r.adm < i.rec_.adm) && r.epoch == i.rec_.epoch && s.mapDue r j.id

/-- Journal a job whose programs have ended. -/
def State.journalJob (s : State) (j : Job) : State :=
  let (s, items) := s.journalItems j.seg j.items
  let s := if items.isEmpty then s.dropJob j.id else s.setJob j.id fun j => { j with items := items, journalled := true }
  s.pumpJournal

/-- DRAIN_ROW_PROGRAMMED: the records of a programmed unit are journalled (R190, R191, R194). -/
def execDrainRowProgrammed (job : Nat) (s : State) : Host.Outcome State Fault Refusal :=
  .next (match s.flash.jobs.find? fun j => j.id == job with
    | some j =>
      if j.chans.isEmpty && !j.journalled && (j.kind == .drain || j.kind == .writeThrough) && !s.mapTooEarly j then s.journalJob j else s
    | none => s)

/-- GC_ROW_PROGRAMMED: the MAP_MOVE and MAP_DEAD batch of a programmed relocation unit is journalled (R261); its locators move
when the batch is durable (R194). -/
def execGcRowProgrammed (job : Nat) (s : State) : Host.Outcome State Fault Refusal :=
  .next (match s.flash.jobs.find? fun j => j.id == job with
    | some j => if j.chans.isEmpty && !j.journalled && j.kind == .relocation && !s.shutting then ((s.journalJob j).finishCopy).pumpReloc else s
    | none => s)

/-- Take an item out of its job, and the job away when it was the last. -/
def State.itemDone (s : State) (j : Job) (n : Nat) : State :=
  let rest := j.items.filter fun i => i.jseq != some n
  if rest.isEmpty then s.dropJob j.id else s.setJob j.id fun j => { j with items := rest }

/-- The durable completions that waited on a record (R187, R190). -/
def State.wakeWaiters (s : State) (r : LRec) : State :=
  r.waiters.foldl (fun s a => (s.setCmd a fun c => { c with rec_ := none }).settleWrite a) s

/-- A record's map record is durable: Prism takes the flash locator if that record was a MAP_SET, the charge is released, the record is
drained (R182, R190). -/
def State.drained (s : State) (seg : Nat) (i : JobItem) (r : LRec) (set_ : Bool) : State :=
  let s := if set_ && r.kind == .value then (s.moveLoc r.loc (flashLoc seg i.rec_)).cacheValue seg i.rec_.off else s
  ((s.freeRec r.id).flushCovered r.adm).wakeWaiters r

/-- Whether a record whose MAP_SET has become durable was superseded meanwhile (R187, R190). -/
def State.overtaken (s : State) (r : LRec) : Bool := r.superseded || !(s.prism.entries.any fun e => e.loc == r.loc)

/-- The flash copy of an overtaken record is journalled as dead before the drain moves on: the record waits for that (R187, R190). -/
def State.journalDead (s : State) (j : Job) (i : JobItem) (ks : Nat) : State :=
  let n := s.jrn.jseqNext
  (s.setJob j.id fun j => { j with items := j.items.map fun x => if x.jseq = i.jseq then { x with jseq := some n } else x }).journal
    (.mapDead ks (flashLoc j.seg i.rec_)) true

/-- What the journal says at a number, durable records only. -/
def Journal.at_ (j : Journal) (n : Nat) : Option JRec := (j.log.find? fun r => r.1 == n).map fun r => r.2

/-- MAP_RECORD_DURABLE (R190, R261). A write-through record waits for WRITE_THROUGH_DONE. -/
def execMapRecordDurable (jseq : Nat) (s : State) : Host.Outcome State Fault Refusal :=
  .next (match s.flash.jobs.find? fun j => j.items.any fun i => i.jseq == some jseq with
    | none => s
    | some j =>
      match j.items.find? fun i => i.jseq == some jseq with
      | none => s
      | some i =>
        if !s.jDurable jseq then s
        else
          let set_ := (s.jrn.at_ jseq).any JRec.isMapSet
          match i.old with
          | some old =>
            let live := s.prism.entries.any fun e => e.loc == old
            let s := if live then (s.moveLoc old (flashLoc j.seg i.rec_)).cacheHeader j.seg i.rec_.off else s
            let s := match old with
              | .flash g _ _ => s.setSeg g fun x => { x with moved := x.moved + b2n live, deadFound := x.deadFound + b2n (!live) }
              | _ => s
            ((s.itemDone j jseq).finishCopy).pumpReloc
          | none =>
            match i.land.bind s.rec? with
            | none => s.itemDone j jseq
            | some r =>
              if r.wt then s
              else if set_ && s.overtaken r then s.journalDead j i r.ks
              else ((s.itemDone j jseq).drained j.seg i r set_).pumpDrain)

/-- WRITE_THROUGH_DONE: the map record of a write-through write is durable, so the write becomes visible and completes
(R191). -/
def execWriteThroughDone (adm : Nat) (s : State) : Host.Outcome State Fault Refusal :=
  .next (match s.land.recs.find? fun r => r.wt && r.adm == adm && r.epoch == s.life.bootEpoch with
    | none => s
    | some r =>
      match s.flash.jobs.find? fun j => j.items.any fun i => i.land == some r.id with
      | none => s
      | some j =>
        match (j.items.find? fun i => i.land == some r.id).bind fun i => i.jseq.map fun n => (i, n) with
        | none => s
        | some (i, n) =>
          if !s.jDurable n then s
          else
            let s := (s.itemDone j n).makeVisible r.id (flashLoc j.seg i.rec_) true
            let s := s.freeRec r.id
            (if r.kind == .value then s.cacheValue j.seg i.rec_.off else s).pumpDrain)

-- The journal.

/-- JOURNAL_PAGE_TIMER (R254). -/
def execJournalPageTimer (s : State) : Host.Outcome State Fault Refusal := .next s.pumpJournal

/-- CHECKPOINT_SLICE (R195, R257): after 8 sealed segments or 512 MiB of journal the next slice begins; once its tokens are held, its CKPT_BEGIN
is durable and the dirty nodes are written, its pages have been programmed. -/
def execCheckpointSlice (s : State) : Host.Outcome State Fault Refusal :=
  .next (match s.jrn.writing with
    | none => if s.serving && (8 ≤ s.jrn.sealsSince || 536870912 ≤ s.jrn.bytesSince) then (s.beginSlice).pumpReloc else s
    | some x => if (s.grantFor .checkpoint).isSome && s.jDurable x.beginJseq && s.nodesWritten then s.endSlice x else s)

/-- Whether a segment has a row on a retired die or channel (R260, R276). -/
def State.onRetired (s : State) (g : Segment) : Bool := (List.range 18).any fun c => g.usesCh c && !s.dieServes c (segPos g.seg)

/-- Segments still marked for rebuild. -/
def State.toRebuild (s : State) : Nat := (s.flash.segs.filter fun g => g.rebuild).length

/-- EV_REBUILD at the start of a rebuild (R276). -/
def State.noteRebuild (s : State) : State :=
  if s.toRebuild ≠ 0 && !s.flash.rebuildRun then (s.setFlash fun f => { f with rebuildRun := true }).logEv evRebuild uFlash 1 s.toRebuild else s

/-- SEGMENT_SEAL: the summary rows are programmed, SEG_SEAL is journalled (R245, R252). -/
def execSegmentSeal (seg : Nat) (s : State) : Host.Outcome State Fault Refusal :=
  .next (match s.seg? seg with
    | some g =>
      if g.st == .full && decide (g.cap ≤ g.prog) && g.tail.isEmpty && !(s.flash.jobs.any fun j => j.seg == seg && !j.chans.isEmpty) then
        let s := (s.setSeg seg fun g => { g with st := .sealed, sealedAt := s.now, rebuild := g.rebuild || s.onRetired g }).noteRebuild.journal
          (if g.short then .segSeal seg (g.rowOf g.next + g.lastUnits * g.unitRows - 1) (g.rowOf g.next) true
           else .segSeal seg (g.rows - 1) (g.rows - g.summaryRows g.recs.length) false) false
        s.setJrn fun j => { j with sealsSince := j.sealsSince + 1 }
      else s
    | none => s)

-- Prism in the background.

/-- Move an entry of the stash or the spill table into a bucket that has a free entry (R177, R201). -/
def State.reinsert (s : State) (e : IdxEntry) : State :=
  let b2 := otherBucket s.idxBits e.b1 e.tag.toNat
  let put := fun (b i : Nat) => ((s.touch e.b1).touch b2).setPrism fun p => { p with entries := p.entries.map fun x => if x = e then { x with place := .bucket b i } else x }
  match s.prism.freeSlot e.b1, s.prism.freeSlot b2 with
  | some i, _ => put e.b1 i
  | none, some i => put b2 i
  | none, none => s

/-- STASH_REINSERT (R177, R201). -/
def execStashReinsert (s : State) : Host.Outcome State Fault Refusal :=
  .next (
    if s.serving then
      (s.prism.entries.filter fun e => !e.place.inBucket).foldl (fun s e => s.reinsert e) s
    else s)

/-- The keys of a discarded range whose entries stand for earlier writes (R179). -/
def State.keysBefore (s : State) (r : Range) : List Bytes :=
  s.prism.entries.filterMap fun e =>
    match s.keyAt e.loc, s.infoAt e.loc with
    | some (ks, key), some (_, adm, ep) => if ks == r.ks && inRange r.lo r.hi key && writeBefore ep adm r.epoch r.adm then some key else none
    | _, _ => none

/-- Whether a value write waits only for reclaim (R65): its limit would be kept without the discards not yet reclaimed. -/
def State.waitsReclaim (s : State) (c : Cmd) : Bool :=
  (c.entry.opcode == 0x01 || c.entry.opcode == 0x08) && (match c.st with | .waiting _ => true | _ => false) &&
    (s.spaceOf c).any fun k => s.limitGate k c c.entry.valueLen == .wait

/-- Whether reclaim takes another key space's keys first: a write waits for those, and none for this key space's (R65). -/
def State.sweepBehind (s : State) (r : Range) : Bool :=
  !(s.cmds.any fun c => c.entry.ks == r.ks && s.waitsReclaim c) &&
    s.cmds.any fun c => c.entry.ks != r.ks && s.waitsReclaim c && s.kv.ranges.any fun x => x.ks == c.entry.ks

/-- Whether a range's RANGE_DONE stands in the journal and is not durable. -/
def State.rangeEnding (s : State) (range : Nat) : Bool := s.jrn.acts.any fun a => a.2 == .rangeDone range

/-- RECLAIM_SWEEP: a sweep over one discarded range journals the removal of the keys whose stored write came before it, and the range's end
behind them; index and range change when the records are durable (R179, R194). It runs once the range's own record is journalled (log 13),
behind the keys a write waits for (R65); in an unordered key space it reads summaries, with class 3 tokens of a page read (R211). -/
def execReclaimSweep (range : Nat) (s : State) : Host.Outcome State Fault Refusal :=
  .next (match s.kv.ranges.find? fun r => r.id == range with
    | none => s
    | some r =>
      if !s.serving || s.rangeEnding range || s.sweepBehind r || (s.land.recs.any fun x => x.kind == .range && writeId x.adm x.epoch == range) then s
      else if !s.orderedKs r.ks && (s.grantFor (.sweep range)).isNone then
        (if s.pwr.queue.any fun q => q.why == .sweep range then s else s.askTokens 3 4 (.sweep range))
      else
        let s := (s.keysBefore r).foldl (fun s key => s.reclaimKey r.ks r.adm key false) s
        (s.journalThen (.rangeDone range r.ks) (.rangeDone range) false).returnFor (.sweep range))

end Sys2Proof.Machine
end

