-- ==== Sys2Proof/Machine/Flash.lean ====
section
/-! DEFINITION. Flash media: the recovery ladder and lost keys (07 R264, R265, 02 R70-R73), retirement and capacity (07 R266,
R275-R278), garbage collection (07 R259-R262), scrub and repacking (07 R267-R271), wear (07 R279, R280). -/

namespace Sys2Proof.Machine

-- Repair.

/-- Whether a lost record may be fetched from the peer: its key space mirrors, the peer is connected, the key is not pending here
(R70, R321). -/
def State.repairable (s : State) (ks : Nat) (key : Bytes) : Bool :=
  s.mir.state == 2 && s.policyAt ks s.mbx.admNext != .off && (s.pendingStamp ks key).isNone

/-- The lost-table entry that a MAP_LOST not yet durable will make. -/
def JAct.lost? (a : JAct) : Option (Loc × LostEntry) :=
  match a with
  | .lose loc e _ _ => some (loc, e)
  | _ => none

/-- The lowest free index of the lost table; one beyond it where the table is full (R171, log 41). -/
def State.lostIndex (s : State) : Nat :=
  let used := (s.kv.lost ++ s.kv.lostOver ++ (s.jrn.acts.filterMap fun a => a.2.lost?).map fun x => x.2).map fun l => l.index
  ((List.range (used.length + 1)).find? fun i => !used.contains i).getD 0

/-- A record that the index names is lost: MAP_LOST is journalled, and the key is lost when that is durable (R70, R194, R264 step 6). -/
def State.loseKey (s : State) (e : IdxEntry) (f : FRec) (reason : Nat) : State :=
  if (s.jrn.acts.filterMap fun a => a.2.lost?).any fun x => x.1 == e.loc then s
  else
    let idx := s.lostIndex
    s.journalThen (.mapLost f.ks f.key idx f.len f.adm f.epoch)
      (.lose e.loc { index := idx, ks := f.ks, key := f.key, len := f.len, adm := f.adm, epoch := f.epoch } reason f.src) true

/-- A key becomes lost: its entry of the lost table, EV_MEDIA_LOST, a deferred error, DEF (R70-R73, R171). A full table sets read-only reason
bit 2. -/
def State.loseNow (s : State) (loc : Loc) (f : LostEntry) (reason : Nat) (src : Source) : State :=
  let full := decide (lostTable ≤ f.index)
  let s := s.setKv fun k => if full then { k with lostOver := k.lostOver ++ [f] } else { k with lost := k.lost ++ [f] }
  let s := s.moveLoc loc (.lost f.index)
  let s := s.setSpaces (fun k => k.ks == f.ks && k.deletedAt.isNone) fun k =>
    { k with bytes := k.bytes - f.len, tree := k.tree.map fun l => if l.key = f.key then { l with lost := true } else l }
  let seq := s.kv.defSeq % 65535 + 1
  let (s, gone) := s.setDef src
  let d : Deferred := { ks := f.ks, key := f.key, reason := reason, writerGone := gone, len := f.len, adm := f.adm, entrySeq := seq }
  let s := s.setKv fun k =>
    { k with defSeq := seq, deferred := (if 256 ≤ k.deferred.length then k.deferred.drop 1 else k.deferred) ++ [d],
             defOverflow := if 256 ≤ k.deferred.length then satAdd 32 k.defOverflow 1 else k.defOverflow }
  let s := s.logEv evMediaLost uFlash f.ks seq
  let s := if full then s.roBit 2 true else s
  s.reviewCapacity

/-- The index entry that names a flash record. -/
def State.namedBy (s : State) (seg off : Nat) : Option IdxEntry :=
  s.prism.entries.find? fun e => match e.loc with
    | .flash g o _ => g == seg && o == off
    | _ => false

-- Marks.

/-- The 7 read offsets of a block for a temperature band (R267). -/
def State.readRef (s : State) (ch pos slot band : Nat) : List Int :=
  ((s.flash.refs.find? fun r => r.1 == (ch, pos, slot, band)).map fun r => r.2).getD (Config.shippedOffsets ch pos (s.blockOf ch pos slot) band)

/-- The offsets a read of a block uses: the entry of the die's present band, corrected by the difference between that band and the band the
block's unit was programmed in (R267). -/
def State.readUses (s : State) (ch pos slot unit : Nat) : List Int :=
  let now := s.bandOf ch pos
  let then_ := (((s.seg? (7040 * pos + slot)).map fun g => ((g.bands.filter fun b => b.1 == ch).map fun b => b.2).getD unit now)).getD now
  (s.readRef ch pos slot now).map fun x => x + Config.bandShift now then_

/-- Replace the read references of a block for the die's present band: the new offsets are a free value (R265, R267). -/
def State.recalibrate (s : State) (ch pos slot : Nat) : State :=
  let k := (ch, pos, slot, s.bandOf ch pos)
  (s.setFlash fun f => { f with refs := (k, (Config.readOffsets s.freeCtr).take 7) :: f.refs.filter fun r => r.1 != k }).freeNext

/-- Mark a segment for refresh (R265). -/
def State.markRefresh (s : State) (seg : Nat) : State := s.setSeg seg fun g => { g with refresh := true }

/-- Ladder step of a read outcome (R264). -/
def ladderStep : ReadOutcome → Nat
  | .hard => 1 | .retry _ => 2 | .soft => 3 | .parity => 4 | .failed => 6

/-- What a read outcome does to the block and its segment (R265), with EV_READ_RECOVERED for steps 2 to 4. -/
def State.readMarks (s : State) (seg ch pos : Nat) (o : ReadOutcome) : State :=
  let s := match o with
    | .hard | .failed => s
    | _ => s.logEv evReadRecovered uFlash (ch + 256 * pos + 65536 * ladderStep o) seg
  match o with
  | .retry n => if 4 ≤ n then s.recalibrate ch pos (segSlot seg) else s
  | .soft | .parity => s.markRefresh seg
  | _ => s

/-- Page reads of a page itself that a ladder outcome stands for: the first read, the re-reads, and the three sensings of the soft read (R264; that each
counts as a page read is the model's reading, DESIGN CHOICE, log 82). -/
def readsOf : ReadOutcome → Nat
  | .hard => 1
  | .retry n => 1 + n
  | .soft | .parity | .failed => 11

/-- Count page reads on a block; read disturb marks the segment for refresh (R265). -/
def State.countRead (s : State) (seg ch k : Nat) : State :=
  s.setSeg seg fun g =>
    let n := ((g.pageReads.find? fun r => r.1 == ch).map fun r => r.2).getD 0 + k
    { g with pageReads := (ch, n) :: g.pageReads.filter (fun r => r.1 != ch),
             refresh := g.refresh || decide ((if g.pslc then 1000000 else 100000) ≤ n) }

-- Page reads.

/-- Power class of the page reads that serve no command: garbage collection 3, Mirror send 2 (R211). -/
def ReadWhy.cls (w : ReadWhy) : Option Nat :=
  match w with
  | .gc | .summary => some 3
  | .mirror => some 2
  | _ => none

/-- Whether a read belongs to the relocation copy. -/
def ReadWhy.ofCopy (w : ReadWhy) : Bool :=
  match w with
  | .gc | .summary => true
  | _ => false

/-- Ask tokens for the next page reads of garbage collection and Mirror, at most 12 in flight for each record. A copy that the write pause
holds reads no further (R228, R272). -/
def State.pumpGcReads (s : State) : State :=
  let held := s.flash.copy.any fun c => s.copyPaused c
  s.flash.reads.foldl (fun s r =>
    match r.why.cls with
    | none => s
    | some cls =>
      let n := min 12 r.pages - r.issued
      if n = 0 || (r.why.ofCopy && held) then s
      else
        let s := s.setFlash fun f => { f with reads := f.reads.map (fun x => if x.id = r.id then { x with issued := x.issued + n } else x) }
        (List.range n).foldl (fun s _ => s.askTokens cls 4 (.read r.id)) s) s

/-- Drop a read. -/
def State.dropRead (s : State) (id : Nat) : State := s.setFlash fun f => { f with reads := f.reads.filter fun r => r.id != id }

/-- Return every grant of a purpose, and withdraw its requests. -/
def State.returnAll (s : State) (why : Purpose) : State :=
  let s := s.setPwr fun p => { p with queue := p.queue.filter fun q => q.why != why }
  (s.pwr.grants.filter fun g => g.why == why).foldl (fun s g => s.returnGrant g.id) s

/-- A command's reads have all ended: it answers, or it goes on from its full-key checks (R92, R98, R172). -/
def State.readsEnded (s : State) (adm : Nat) : State :=
  if s.flash.reads.any fun r => r.serves adm then s.pumpReads adm
  else match s.cmd? adm with
    | some c =>
      match c.st with
      | .reading => s.answerGets c
      | .checking => s.goOn c
      | _ => s
    | none => s

/-- Ask the erase tokens of every segment whose ERASE_INTENT is durable and that no read holds any more: one block on each live channel
(R211, R262). -/
def State.pumpErases (s : State) : State :=
  (s.flash.segs.filter fun g => g.st == .erasing && !g.eraseAsked && s.jAllDurable (JRec.isEraseIntent g.seg) &&
      !(s.flash.reads.any fun r => r.seg == g.seg)).foldl (fun s g =>
    ((List.range 18).filter fun c => g.usesCh c && s.dieServes c (segPos g.seg)).foldl (fun s c => s.askTokens 3 6 (.erase g.seg c))
      (s.setSeg g.seg fun g => { g with eraseAsked := true })) s

/-- Put what an element found once more, from the index as it stands now. -/
def State.refind (s : State) (adm elem : Nat) (ks : Nat) (key : Bytes) : State :=
  match s.cmd? adm with
  | none => s
  | some c =>
    let e := s.lookup ks key
    let g : Got := match c.entry.opcode with
      | 0x02 => s.getOne c e
      | _ => match e.bind fun x => (s.infoAt x.loc).map fun i => (x, i) with
        | some (x, len, a, ep) => { status := if x.loc.isLost then stMediaLost else stOk, len := len, r1 := writeId a ep, data := s.valueAt x.loc }
        | none => { status := stNotFound }
    s.setCmd adm fun c => { c with gets := modAt c.gets elem fun _ => g }

/-- Whether a tombstone or range record still has to outlive an older copy on flash of what it removed (R261). -/
def State.outlives (s : State) (r : FRec) : Bool :=
  let older := fun (f : FRec) => f.kind == .value && f.ks == r.ks && writeBefore f.epoch f.adm r.epoch r.adm &&
    (if r.kind == .range then inRange r.key r.upper f.key else f.key == r.key)
  s.flash.segs.any fun g => g.recs.any older

/-- Live records of a segment, in record order: values that Prism names, tombstones and ranges that outlive older copies, and ordered-index
nodes that still stand as they were written (R261). -/
def State.liveRecs (s : State) (g : Segment) : List FRec :=
  g.recs.filter fun r => match r.kind with
    | .value => (s.namedBy g.seg r.off).isSome
    | .internal => s.nodeLive g.seg r.off
    | .tombstone | .range => s.outlives r

/-- The source's summary has been read: the live records among its entries are read (R245, R261). -/
def State.listSource (s : State) : State :=
  match s.flash.copy with
  | none => s
  | some c =>
    if c.listed then s
    else match s.seg? c.seg with
      | none => s
      | some g =>
        let s := s.setFlash fun f => { f with copy := some { c with listed := true } }
        let s := (s.liveRecs g).foldl (fun s r =>
          s.addRead { id := 0, why := .gc, seg := g.seg, off := r.off, ks := r.ks, key := r.key, pages := 0 } (r.readPlan 0 (r.span - 64 - align16 r.key.length) false)) s
        (s.pumpGcReads).finishCopy

/-- What waited for a read goes on without its record: a command answers from what the index now holds, a copy goes on. -/
def State.readGiven (s : State) (r : ReadOp) : State :=
  let s := s.dropRead r.id
  (match r.why with
   | .cmd adm => (s.refind adm r.elem r.ks r.key).readsEnded adm
   | .check adm => s.readsEnded adm
   | .summary => s.listSource
   | _ => (s.pumpReloc).finishCopy).pumpErases

/-- The channels whose pages carry the row of a byte: data and parity, not filler (R241). -/
def Segment.rowChans (g : Segment) (byte : Nat) : List Nat :=
  let l := chansOf (g.setAt byte).2.2
  let skip := skipChan g.seg (g.rowOf byte) l
  l.filter fun c => skip != some c

/-- Whether a row was already missing a page because of a retired die or channel (R264, R276). -/
def State.degraded (s : State) (seg off : Nat) : Bool :=
  (s.seg? seg).any fun g => (g.rowChans off).any fun c => !s.dieServes c (segPos seg)

/-- A read has failed steps 1 to 5 of the ladder: the record is lost if the index names it (R70, R264 step 6), and what waited for the read
goes on when MAP_LOST is durable. -/
def State.readLost (s : State) (r : ReadOp) : State :=
  match s.namedBy r.seg r.off, s.frec? r.seg r.off with
  | some e, some f =>
    (s.setFlash fun x => { x with reads := x.reads.map fun y => if y.id = r.id then { y with peerSince := none } else y }).loseKey e f
      (if s.degraded r.seg r.off then 2 else 1)
  | _, _ => ((if r.why == .summary then s else s.dropNode r.seg r.off).markRefresh r.seg).readGiven r

/-- The reads of a record that has become lost. -/
def State.readsLost (s : State) (loc : Loc) : State :=
  match loc with
  | .flash g o _ =>
    (s.flash.reads.filter fun r => r.seg == g && r.off == o && r.lostRead && r.pages == 0).foldl (fun s r => s.readGiven r) s
  | _ => s

/-- A record's pages have all been read. -/
def State.readEnded (s : State) (r : ReadOp) : State :=
  if r.lostRead then
    match s.namedBy r.seg r.off, s.frec? r.seg r.off with
    | some _, some f =>
      if s.repairable f.ks f.key then
        let s := s.mirrorQueue fun n =>
          { lseq := n, typ := 8, flags := 0, ks := f.ks, key := f.key, stamp := 0, body := mirrorBody (le 4 f.len) f.key [], live := false }
        s.setFlash fun x => { x with reads := x.reads.map fun y => if y.id = r.id then { y with peerSince := some s.now } else y }
      else s.readLost r
    | _, _ => s.readLost r
  else
    let s := s.dropRead r.id
    (match r.why with
     | .cmd adm =>
       (if (s.cmd? adm).any fun (c : Cmd) => c.entry.opcode == 0x04 then s.cacheHeader r.seg r.off else s.cacheValue r.seg r.off).readsEnded adm
     | .check adm => (s.cacheRead r.seg r.off).readsEnded adm
     | .gc =>
       let s := match s.flash.copy, s.frec? r.seg r.off with
         | some c, some f => (s.cacheRead r.seg r.off).setFlash fun x => { x with copy := some { c with ready := c.ready ++ [f] } }
         | _, _ => s
       (s.pumpReloc).finishCopy
     | .mirror => (s.cacheHeader r.seg r.off).setMir fun m => { m with staged := (r.seg, r.off) :: m.staged }
     | .summary => s.listSource
     | .scrub | .none_ => s).pumpErases

/-- Whether reads of a die wait: its running program has been suspended 4 times, or its erase 16 times (R248). -/
def State.suspendSpent (s : State) (ch pos : Nat) : Bool :=
  let n := ((s.flash.dies.find? fun d => d.ch == ch && d.pos == pos).map fun d => d.suspends).getD 0
  ((s.jobOn ch pos).isSome && decide (4 ≤ n)) ||
    (s.flash.segs.any fun g => g.st == .erasing && segPos g.seg == pos && (s.grantFor (.erase g.seg ch)).isSome && decide (16 ≤ n))

/-- Whether a die is programming or erasing. -/
def State.dieBusy (s : State) (ch pos : Nat) : Bool :=
  (s.jobOn ch pos).isSome || s.flash.segs.any fun g => g.st == .erasing && segPos g.seg == pos && (s.grantFor (.erase g.seg ch)).isSome

/-- A read on a die that is programming or erasing suspends the operation (R248). -/
def State.suspendDie (s : State) (ch pos : Nat) : State :=
  if s.dieBusy ch pos then
    s.setFlash fun f => { f with dies := f.dies.map fun d => if d.ch = ch && d.pos = pos then { d with suspends := d.suspends + 1 } else d }
  else s

/-- One page read of a record has ended: the next pages are asked for, or the record is complete. -/
def State.pageEnded (s : State) (r : ReadOp) (o : ReadOutcome) : State :=
  let r' := { r with pages := r.pages - 1, issued := r.issued - 1, done := r.done + 1, worst := max r.worst (ladderStep o),
                     lostRead := r.lostRead || o == .failed }
  let s := s.setFlash fun f => { f with reads := f.reads.map fun x => if x.id = r.id then r' else x }
  if r'.pages = 0 then s.readEnded r'
  else match r.why with
    | .cmd adm | .check adm => s.pumpReads adm
    | .gc | .summary | .mirror => s.pumpGcReads
    | .scrub | .none_ => s

-- Retirement and capacity.

/-- The maximum committed capacity of R277. -/
def State.maxCommittedNow (s : State) : Nat :=
  let w := fun p =>
    let n := ((List.range 18).filter fun c => s.dieServes c p).length
    if n < 9 then 0 else min 16 (n - 1)
  s.part.userCap * sumBy (List.range s.part.perCh) w / (16 * s.part.perCh) / 1000000000 * 1000000000

/-- The writable data capacity of R278: every openable slot with the data pages of its own channel set. -/
def State.writableCapacity (s : State) : Nat :=
  let page := 2304 * 16384
  sumBy (List.range s.part.perCh) fun p =>
    let n := ((List.range 18).filter fun c => s.dieServes c p).length
    let bad := dedup ((s.flash.badSlots.filter fun b => b.2.1 == p).map fun b => b.2.2)
    let of := fun n => if n < 9 then 0 else min 16 (n - 1) * page
    (7040 - bad.length) * of n + sumBy bad fun k => of (s.liveCh p k).length

/-- Size of one copy of each partition of the metadata region, MiB: checkpoint area, journal ring, lost table, segment table, read-reference
tables, event recorder flash ring, image slots, configuration. In compact index mode half the checkpoint area goes to the spill table
(R253). -/
def metaParts (p : Part) : List Nat :=
  match p with
  | .ta16 => [17408, 8192, 256, 64, 32, 8, 192, 16]
  | .ta08 | .sb08 => [8704, 4096, 256, 32, 16, 8, 192, 16]

/-- Blocks of 12 MiB that one copy of each partition takes (R239, R253). -/
def State.metaSizes (s : State) : List Nat := (metaParts s.part).map fun m => ceilDiv m 12

/-- Blocks of one copy of every partition of the metadata region (R253). -/
def State.metaNeed (s : State) : Nat := sumBy s.metaSizes id

/-- Metadata blocks that a channel can hold: those of its dies in service that are in use or free, with the spare blocks that may replace them, at most
one copy of everything (R240, R253, R275). -/
def State.metaRoom (s : State) (ch : Nat) : Nat :=
  let n := sumBy (s.flash.dies.filter fun d => d.ch == ch && s.dieServes d.ch d.pos) fun d => 72 + d.spare
  min (n - (s.flash.metaBad.filter fun b => b.1 == ch && s.dieServes b.1 b.2.1).length) s.metaNeed

/-- The channel that holds the k-th block of both copies, the first copy's blocks before the second's, channel by channel. No channel holds more than
one copy's blocks, so the two copies of a block lie on different channels (R253; the placement is the model's, DESIGN CHOICE, log 46). -/
def State.metaChannel (s : State) (k : Nat) : Option Nat :=
  ((List.range 18).foldl (fun (acc : Nat × Option Nat) c =>
    let room := s.metaRoom c
    (acc.1 + room, acc.2.or (if acc.1 ≤ k && decide (k < acc.1 + room) then some c else none))) (0, none)).2

/-- The channels of each copy of a partition, by the channels of its first and last block. -/
def State.metaCopies (s : State) (i : Nat) : List (Option Nat × Option Nat) :=
  let first := sumBy (s.metaSizes.take i) id
  let n := s.metaSizes.getD i 1
  [first, first + s.metaNeed].map fun k => (s.metaChannel k, s.metaChannel (k + n - 1))

/-- Metadata blocks of the module (R240). -/
def State.metaBlocks (s : State) : Nat := 72 * s.flash.dies.length

/-- Mean erase count of the metadata blocks: a pSLC block of 12 MiB is erased once for each time it is filled (R239, R279; DEDUCED, log
63), and by FORMAT and SANITIZE (R403). -/
def State.metaMean (s : State) : Nat := (s.flash.metaErases + s.flash.metaProg / (12 * 2 ^ 20)) / max s.metaBlocks 1

/-- Whether a partition keeps both copies: every block of both has a channel (R253). -/
def State.partKeeps (s : State) (i : Nat) : Bool := (s.metaCopies i).all fun c => c.1.isSome && c.2.isSome

/-- Whether the metadata region keeps two copies of every partition, on different channels (R253). That the partitions keep their copies as long as
they fit is part of that choice (DESIGN CHOICE, log 46). -/
def State.metaKeeps (s : State) : Bool := (List.range s.metaSizes.length).all s.partKeeps

/-- Metadata blocks in use that no partition needs (R253, R275). -/
def State.metaFree (s : State) : Nat :=
  sumBy (s.flash.dies.filter fun d => s.dieServes d.ch d.pos) (fun _ => 72) -
    (s.flash.metaBad.filter fun b => s.dieServes b.1 b.2.1).length - 2 * s.metaNeed

/-- Complete copies of the event recorder's flash ring, the partition behind five others (R253, R424). -/
def State.ringCopies (s : State) : Nat := ((s.metaCopies 5).filter fun c => c.1.isSome && c.2.isSome).length

/-- Take the maximum committed capacity anew, with EV_CAPACITY_MAX and the read-only bits it decides (R78, R253, R277, R278), and see whether the
flash ring keeps one copy only (R424, R429). -/
def State.reviewMedia (s : State) : State :=
  let s := s.setEvr fun r => { r with oneCopy := s.ringCopies == 1 }
  let m := s.maxCommittedNow
  let s := if m < s.kv.maxCommitted then
      (s.setKv fun k => { k with maxCommitted := m }).logEv evCapacityMax uFlash (m / 1000000000) 0
    else s
  let s := if s.capacityReduced then s.roBit 1 true else s
  let s := if 100 * s.writableCapacity < 103 * s.kv.maxCommitted then s.roBit 0 true else s
  if s.metaKeeps then s else s.roBit 2 true

/-- Mark every sealed segment with a row on a retired unit for rebuild; EV_REBUILD at its start (R276). -/
def State.startRebuild (s : State) (onUnit : Segment → Bool) : State :=
  (s.setFlash fun f => { f with segs := f.segs.map fun g => if g.st != .opened && onUnit g then { g with rebuild := true } else g }).noteRebuild

/-- Whether a segment still has rows on a channel that wait for a rebuild: it is marked, or will be when it is sealed (R276). -/
def Segment.degradedOn (g : Segment) (ch : Nat) : Bool := (g.rebuild || g.st == .opened || g.st == .full) && g.usesCh ch

/-- Mark each retired die and channel whose own segments are all rebuilt (R276). -/
def State.markRebuilt (s : State) : State :=
  let segs := s.flash.segs
  s.setFlash fun f =>
    { f with dies := f.dies.map (fun (d : Die) => if d.retired && !(segs.any fun g => segPos g.seg == d.pos && g.degradedOn d.ch) then { d with rebuilt := true } else d)
             channels := ((List.range f.channels.length).zip f.channels).map fun (x : Nat × Channel) =>
               if x.2.retired && !(segs.any fun g => g.degradedOn x.1) then { x.2 with rebuilt := true } else x.2 }

/-- EV_REBUILD at the end of a rebuild, once no segment is marked; a unit is rebuilt when no segment of its own is (R276). -/
def State.endRebuild (s : State) : State :=
  (if s.toRebuild = 0 && s.flash.rebuildRun then (s.setFlash fun f => { f with rebuildRun := false }).logEv evRebuild uFlash 0 0 else s).markRebuilt

/-- Programs running on a retired die fail, and units that wait leave it out: their rows are written again (R266). -/
def State.failPrograms (s : State) (ch pos : Nat) : State :=
  (s.flash.jobs.filter fun j => j.pos == pos && j.chans.contains ch).foldl (fun s j =>
    if j.queued then s.setJob j.id fun j => { j with chans := j.chans.filter (fun c => c != ch), failed := j.failed ++ [ch] }
    else s.programEnded j ch false) s

/-- Retire a die (R276). -/
def State.retireDie (s : State) (ch pos : Nat) : State :=
  if !(s.flash.dies.any fun d => d.ch == ch && d.pos == pos && !d.retired) then s
  else
    let s := (s.journal (.dieRetire ch pos) true).logEv evDieRetire uFlash (ch + 256 * pos) 0
    let s := s.setFlash fun f =>
      { f with dies := f.dies.map fun d => if d.ch = ch && d.pos = pos then { d with retired := true, rebuilt := false } else d }
    (((s.failPrograms ch pos).startRebuild fun g => segPos g.seg == pos && g.usesCh ch).endRebuild).reviewMedia

/-- Retire a channel (R276). -/
def State.retireChannel (s : State) (ch : Nat) : State :=
  if (s.flash.channels.getD ch {}).retired then s
  else
    let s := (s.journal (.channelRetire ch) true).logEv evChannelRetire uFlash ch 0
    let s := s.setFlash fun f => { f with channels := modAt f.channels ch fun c => { c with retired := true, rebuilt := false } }
    let s := (List.range s.part.perCh).foldl (fun s p => s.failPrograms ch p) s
    ((s.startRebuild fun g => g.usesCh ch).endRebuild).reviewMedia

/-- The next block of a die's spare pool; the pool lies behind the segment and metadata blocks and is taken in order (R240, R275;
DESIGN CHOICE, log 47). -/
def State.spareBlock (s : State) (ch pos : Nat) : Option Nat :=
  (s.flash.dies.find? fun d => d.ch == ch && d.pos == pos).bind fun d => if d.spare = 0 then none else some (7112 + (104 - d.spare))

/-- Retire the block of a slot: a spare replaces it in the segment table, or the slot leaves the channel out (R240, R275). `cause` 1 program,
2 erase failure. -/
def State.retireBlock (s : State) (ch pos slot cause : Nat) : State :=
  let spare := ((s.flash.dies.find? fun d => d.ch == ch && d.pos == pos).map fun d => d.spare).getD 0
  let new := s.spareBlock ch pos
  let s := s.journal (.blockRetire ch pos slot (s.blockOf ch pos slot) cause new) false
  let s := match new with
    | none => s.setFlash fun f => { f with badSlots := f.badSlots ++ [(ch, pos, slot)] }
    | some b => s.setFlash fun f =>
      { f with dies := f.dies.map (fun (d : Die) => if d.ch = ch && d.pos = pos then { d with spare := d.spare - 1 } else d)
               remap := ((ch, pos, slot), b, s.eraseCount (7040 * pos + slot) + 1) :: f.remap.filter fun m => m.1 != (ch, pos, slot)
               refs := f.refs.filter fun r => !(r.1.1 == ch && r.1.2.1 == pos && r.1.2.2.1 == slot) }
  (s.logEv evBlockRetire uFlash (ch + 256 * pos) (spare - 1)).reviewMedia

/-- Retire a metadata block: metadata pages that no partition uses replace it first, then its die's spare pool (R275). -/
def State.retireMeta (s : State) (ch pos block cause : Nat) : State :=
  if 0 < s.metaFree || (s.spareBlock ch pos).isNone then
    let spare := ((s.flash.dies.find? fun d => d.ch == ch && d.pos == pos).map fun d => d.spare).getD 0
    let s := (s.journal (.blockRetire ch pos block block cause none) false).setFlash fun f => { f with metaBad := f.metaBad ++ [(ch, pos, block)] }
    (s.logEv evBlockRetire uFlash (ch + 256 * pos) spare).reviewMedia
  else s.retireBlock ch pos block cause

/-- DIE_RESET_RETRY: a die that does not respond is reset, up to 3 times at 10 ms intervals (R266). -/
def execDieResetRetry (ch : Fin 18) (pos : Fin 4) (ok : Bool) (s : State) : Host.Outcome State Fault Refusal :=
  .next (match s.flash.dies.find? fun d => d.ch == ch.val && d.pos == pos.val && !d.retired with
    | none => s
    | some d =>
      let n := d.resetTries + 1
      let set := fun (s : State) (k : Nat) =>
        s.setFlash fun f => { f with dies := f.dies.map fun x => if x.ch = d.ch && x.pos = d.pos then { x with resetTries := k } else x }
      if ok then (set s 0).logEv evDieReset uFlash (d.ch + 256 * d.pos) n
      else if n < 3 then set s n
      else (set s 0).retireDie d.ch d.pos)

/-- CHANNEL_RETRAIN: a failing channel is retrained; after 3 failures it is retired (R266). -/
def execChannelRetrain (ch : Fin 18) (ok : Bool) (s : State) : Host.Outcome State Fault Refusal :=
  .next (
    let c := s.flash.channels.getD ch.val {}
    if c.retired then s
    else
      let n := c.retrains + 1
      let s := s.logEv evChannelRetrain uFlash ch.val n
      let set := fun (s : State) (k : Nat) => s.setFlash fun f => { f with channels := modAt f.channels ch.val fun x => { x with retrains := k } }
      if ok then set s 0 else if n < 3 then set s n else (set s 0).retireChannel ch.val)

-- Garbage collection.

/-- Live bytes of a segment (R258). -/
def State.liveBytes (s : State) (seg : Nat) : Nat :=
  sumBy s.prism.entries fun e => match e.loc with
    | .flash g _ n => if g = seg then 512 * n else 0
    | _ => 0

/-- Hours since sealing, at most 720, plus 1 (R260). A part of an hour does not count (DESIGN CHOICE, log 48). -/
def State.segAge (s : State) (g : Segment) : Nat := min 720 ((s.now - g.sealedAt) / (3600 * oneSec)) + 1

/-- Segment with the best rank under an order; the lower number wins a tie (R260). -/
def bestSeg (better : Segment → Segment → Bool) (l : List Segment) : Option Segment :=
  (sortBy (fun a b => decide (a.seg < b.seg)) l).foldl (fun b g => match b with
    | none => some g
    | some x => if better g x then some g else b) none

/-- The next source with its reason code (R260, R256), or none; a copy that a reset cut short, or that was held, goes first (R263). During the write
pause only refresh and rebuild go on (R272). -/
def State.gcSource (s : State) : Option (Segment × Nat) :=
  let sealed := s.flash.segs.filter fun g => g.st == .sealed
  let some1 := fun (l : List Segment) (better : Segment → Segment → Bool) (n : Nat) => (bestSeg better l).map fun g => (g, n)
  let no := fun (_ _ : Segment) => false
  let ratio := fun (a b : Segment) =>
    let la := s.liveBytes a.seg
    let lb := s.liveBytes b.seg
    decide ((b.cap - lb) * s.segAge b * (a.cap + la) < (a.cap - la) * s.segAge a * (b.cap + lb))
  let lowest := fun (a b : Segment) => decide (s.liveBytes a.seg * b.cap < s.liveBytes b.seg * a.cap)
  let spaceL := if s.thm.writePause || !s.spaceRuns then [] else sealed.filter fun g => !(s.flash.pslc && g.pslc)
  let repackL := if s.holdsCopies 4 || !s.flash.repacking then [] else sealed.filter fun g => g.pslc
  let counts := s.flash.erases.map fun e => s.meanErases e.1
  let lo := if s.flash.erases.length < s.part.segments then counts.foldl min (meanUnit * s.flash.eraseAll) else counts.foldl min (counts.headD 0)
  let wearL := if s.thm.writePause || counts.foldl max 0 ≤ lo + 200 * meanUnit then [] else sealed
  let again := s.flash.segs.findSome? fun g => match g.st with
    | .copying why => if s.holdsCopies why then none else some (g, why)
    | _ => none
  (again.or (some1 (sealed.filter fun g => g.rebuild) no 3)).or
    ((some1 (sealed.filter fun g => g.refresh) no 2).or
      ((some1 spaceL (if s.freeSegs < 24 then lowest else ratio) 1).or
        ((some1 repackL (fun a b => decide (a.sealedAt < b.sealedAt)) 4).or
          (some1 wearL (fun a b => decide (s.meanErases a.seg < s.meanErases b.seg)) 5))))

/-- Whether the running copy is held, with no record of it on its way: it may be set aside (R228, R271). -/
def State.copyIdle (s : State) : Bool := s.flash.copy.any fun c => s.copyPaused c && s.noneMoving c

/-- Set the running copy aside: its reads are given up, and its source is copied again from a new SEG_COPY_BEGIN. -/
def State.setAside (s : State) : State :=
  let mine := s.flash.reads.filter fun r => r.why.ofCopy
  let s := mine.foldl (fun s r => ((s.dropRead r.id).returnAll (.read r.id)).returnAll (.rebuild r.id)) s
  (s.setFlash fun f => { f with copy := none }).pumpErases

/-- Garbage-collection scheduling is not handed over to the image that takes charge: the copy under way is given up, and sources are chosen afresh (R374
class 9); scrub credits stand. -/
def State.gcAfresh (s : State) : State :=
  let s := match s.flash.copy with
    | some c => (s.setAside).setSeg c.seg fun g => { g with st := .sealed }
    | none => s
  (s.setFlash fun f => { f with gcSpace := false, repacking := false }).reviewSpace

/-- Begin the copy of a source (R261); the counts of one taken up again go on. -/
def State.startCopy (s : State) (g : Segment) (why : Nat) : State :=
  let again := match g.st with
    | .copying _ => true
    | _ => false
  let s := (s.setSeg g.seg fun g => { g with st := .copying why, moved := if again then g.moved else 0, deadFound := if again then g.deadFound else 0 }).setFlash fun f =>
    { f with copy := some { seg := g.seg } }
  s.journal (.segCopyBegin g.seg why) true

/-- GC_SOURCE_START (R259-R261): a source is chosen and SEG_COPY_BEGIN is journalled. A copy that heat holds gives way to refresh and rebuild, which
go on (R228, R272). -/
def execGcSourceStart (s : State) : Host.Outcome State Fault Refusal :=
  .next (
    if !s.serving || (s.flash.copy.isSome && !s.copyIdle) || s.sec.san.state = 1 then s
    else
      match s.gcSource with
      | none => s
      | some (g, why) => (if s.flash.copy.isSome then s.setAside else s).startCopy g why)

/-- SEG_COPY_BEGIN is durable: the summary of the source is read, in class 3 (R211, R245, R261). -/
def State.beginCopy (s : State) : State :=
  match s.flash.copy with
  | none => s
  | some c =>
    if c.started || !s.jAllDurable (JRec.isCopyBegin c.seg) then s
    else
      match s.seg? c.seg with
      | none => s
      | some g =>
        let s := s.setFlash fun f => { f with copy := some { c with started := true } }
        (s.addRead { id := 0, why := .summary, seg := g.seg, off := g.summaryPages.headD 0, ks := 0, key := [], pages := 0 } g.summaryPages).pumpGcReads

/-- COPY_DONE: the record is durable, so the caches drop the source's entries and ERASE_INTENT is journalled (R262); the erases ask their
tokens when that is durable and no read holds the source. -/
def execCopyDone (seg : Nat) (s : State) : Host.Outcome State Fault Refusal :=
  .next (match s.seg? seg with
    | some g =>
      if g.st != .copied || s.shutting || !(s.jAllDurable (JRec.isCopyDone seg)) then s
      else
        let s := s.setPrism fun p => { p with valueCache := p.valueCache.filter (fun x => x.1 != seg), headerCache := p.headerCache.filter (fun x => x.1 != seg)
                                              nodeCache := p.nodeCache.filter fun x => x.1 != seg }
        let s := s.setMir fun m => { m with staged := m.staged.filter fun x => x.1 != seg }
        (s.setSeg seg fun g => { g with st := .erasing, eraseAsked := false }).journal (.eraseIntent seg) true
    | none => s)

/-- Segment blocks in service: those of the dies in service, slots without a good block aside (R240, R275). -/
def State.segBlocks (s : State) : Nat :=
  7040 * (s.flash.dies.filter fun d => !d.retired && !(s.flash.channels.getD d.ch {}).retired).length -
    (s.flash.badSlots.filter fun b => s.dieServes b.1 b.2.1).length

/-- The erase counts of the segment blocks in service, each with the number of blocks that have it (R279): those of segments erased since the last
FORMAT, of replaced blocks, and of all others. -/
def State.blockCounts (s : State) : List (Nat × Nat) :=
  let listed := s.flash.erases.flatMap fun e => (s.liveCh (segPos e.1) (segSlot e.1)).map fun c => (s.blockErases c e.1, 1)
  let replaced := (s.flash.remap.filter fun m => decide (m.1.2.2 < 7040) && s.dieServes m.1.1 m.1.2.1 &&
    !(s.flash.erases.any fun e => e.1 == 7040 * m.1.2.1 + m.1.2.2)).map fun m => (s.flash.eraseAll - m.2.2, 1)
  let known := listed ++ replaced
  (if known.length < s.segBlocks then [(s.flash.eraseAll, s.segBlocks - known.length)] else []) ++ known

/-- The wear indicator of R280, with the mean of the TLC segment blocks' erase counts. -/
def State.percentUsed (s : State) : Nat :=
  max (100 * sumBy s.blockCounts (fun b => b.1 * b.2) / (3000 * max s.segBlocks 1)) (100 * (s.thm.hotMs / 60000) / 120000)

/-- The reporting step a wear indicator has reached (R280). -/
def wearStep (p : Nat) : Nat := if p < 50 then 0 else if p < 75 then 50 else if p < 90 then 75 else if p < 100 then 90 else p / 10 * 10

/-- Write EV_WEAR_LEVEL when the indicator has reached a further step (R280). -/
def State.reviewWear (s : State) : State :=
  let p := s.percentUsed
  if s.flash.wearSaid < wearStep p then (s.setFlash fun f => { f with wearSaid := wearStep p }).logEv evWearLevel uFlash p 0 else s

/-- A segment becomes free with one more erase on its blocks (R251, R262). -/
def State.freeSeg (s : State) (seg : Nat) : State :=
  let n := s.eraseCount seg - s.flash.eraseAll + 1
  (s.setFlash fun f => { f with segs := f.segs.filter (fun g => g.seg != seg), erases := (f.erases.filter fun e => e.1 != seg) ++ [(seg, n)] }).reviewSpace

/-- ERASE_DONE (R262, R266, R275): the erases have ended and no read holds the segment; failed blocks are retired, ERASE_DONE is
journalled, the segment is free. -/
def execEraseDone (seg : Nat) (failed : List (Fin 18)) (s : State) : Host.Outcome State Fault Refusal :=
  .next (match s.seg? seg with
    | some g =>
      let chs := (List.range 18).filter fun c => g.usesCh c && s.dieServes c (segPos seg)
      if g.st != .erasing || !g.eraseAsked || s.shutting || !(chs.all fun c => (s.grantFor (.erase seg c)).isSome) then s
      else
        let s := ((List.range 18).filter fun c => (s.grantFor (.erase seg c)).isSome).foldl (fun s c => s.returnFor (.erase seg c)) s
        let s := s.setFlash fun f => { f with dies := f.dies.map fun (d : Die) => if d.pos = segPos seg && chs.contains d.ch then { d with suspends := 0 } else d }
        let bad := dedup (g.retireCh.map (fun c => (c, 1)) ++ (failed.map fun c => (c.val, 2)))
        let s := bad.foldl (fun s b => s.retireBlock b.1 (segPos seg) (segSlot seg) b.2) s
        let s := s.freeSeg seg
        ((s.journal (.eraseDone seg (chs.map fun c => s.blockErases c seg)) false).endRebuild).reviewWear
    | none => s)

-- Scrub and repacking.

/-- Scrub credit a die accrues in 10 ms, in units of 1/120,960,000 (R268). -/
def scrubRate (t16 : Int) : Nat :=
  if t16 ≤ 1120 then 2 else if t16 ≤ 1360 then 7 else if t16 ≤ 1680 then 28 else if t16 ≤ 2000 then 168 else 1008

/-- SCRUB_CREDIT_TICK (R268): one interval of 10 ms. -/
def execScrubCreditTick (s : State) : Host.Outcome State Fault Refusal :=
  .next (s.setFlash fun f => { f with dies := f.dies.map fun d => { d with credit := d.credit + scrubRate d.temp16 } })

/-- Scrub credit of a block: what its die has accrued since the block's last scrub (R268). -/
def State.scrubCredit (s : State) (ch pos slot : Nat) : Nat :=
  let c := ((s.flash.dies.find? fun d => d.ch == ch && d.pos == pos).map fun d => d.credit).getD 0
  c - (((s.flash.scrubMarks.find? fun m => m.1 == (ch, pos, slot)).map fun m => m.2).getD 0)

/-- The live records that lie on the first sample page of a block. -/
def State.onFirstPage (s : State) (g : Segment) (ch : Nat) : List FRec :=
  (s.liveRecs g).filter fun r => (List.range (pagesOf r.off r.span)).any fun k => g.pageAt (r.off / 16384 * 16384 + 16384 * k) == (ch, 0)

/-- What the sample of a segment block shows: `o` is the worst ladder outcome, `highErrors` whether a sample page exceeded 60 % of the
correction limit. Its results replace the read references of the block (R267). The records on a sample page that fails and that the index
names are fetched from the peer, or lost (R70, log 14). -/
def State.scrubSeg (s : State) (g : Segment) (ch pos : Nat) (o : ReadOutcome) (highErrors : Bool) : State :=
  let s := s.countRead g.seg ch (17 + readsOf o)
  let s := (s.readMarks g.seg ch pos o).recalibrate ch pos (segSlot g.seg)
  let s := if highErrors then s.markRefresh g.seg else s
  if o != .failed then s
  else
    let s := s.markRefresh g.seg
    (s.onFirstPage g ch).foldl (fun s f => match s.namedBy g.seg f.off with
      | some _ =>
        let r : ReadOp := { id := s.flash.nextRead, why := .scrub, seg := g.seg, off := f.off, ks := f.ks, key := f.key, pages := 0, lostRead := true }
        (s.setFlash fun x => { x with reads := x.reads ++ [r], nextRead := x.nextRead + 1 }).readEnded r
      | none => s) s

/-- Whether a block holds data: a segment block of a segment that is not free, or a metadata block, numbered behind the slots (R240, R268). -/
def State.holdsData (s : State) (ch pos slot : Nat) : Bool :=
  if slot < 7040 then (s.seg? (7040 * pos + slot)).any fun g => g.usesCh ch else decide (slot < 7112) && !s.flash.metaBad.contains (ch, pos, slot)

/-- SCRUB_BLOCK (R268): the sample pages of a due block are read, both planes of a wordline in one multi-plane burst, under one grant after
the other (R211; the burst is the model's choice, log 49): the row asks for the tokens, and has read the sample when they are held. Its results
replace the read references of the block (R267). A metadata page that does not decode is served from its other copy (R264), and its block counts as
worn and is retired (R275; DESIGN CHOICE, log 83). -/
def execScrubBlock (ch : Fin 18) (pos : Fin 4) (slot : Nat) (o : ReadOutcome) (highErrors : Bool) (s : State) :
    Host.Outcome State Fault Refusal :=
  .next (
    let why := Purpose.scrub ch.val pos.val slot
    if !s.serving || s.scrubCredit ch.val pos.val slot < 120960000 || !s.holdsData ch.val pos.val slot || !s.dieServes ch.val pos.val ||
        s.suspendSpent ch.val pos.val then s
    else if (s.grantFor why).isNone then (if s.pwr.queue.any fun q => q.why == why then s else s.askTokens 3 8 why)
    else
      let k := (ch.val, pos.val, slot)
      let now := ((s.flash.dies.find? fun d => d.ch == ch.val && d.pos == pos.val).map fun d => d.credit).getD 0
      let s := ((s.suspendDie ch.val pos.val).returnFor why).setFlash fun f => { f with scrubMarks := (k, now) :: f.scrubMarks.filter fun m => m.1 != k }
      if slot < 7040 then
        match s.seg? (7040 * pos.val + slot) with
        | some g => s.scrubSeg g ch.val pos.val o highErrors
        | none => s
      else if o = .failed then s.retireMeta ch.val pos.val slot 3
      else s.recalibrate ch.val pos.val slot)

-- Durable journal records.

/-- What waited for a journal record is done: Prism and the tables change after the record is durable, and never before (R194, R195). -/
def State.runAct (s : State) (a : JAct) : State :=
  match a with
  | .reclaim ks adm key loc del =>
    let s := s.touchBuckets ks key
    let s := match s.lookup ks key with
      | some e =>
        if e.loc = loc || (s.infoAt e.loc).any (fun i => s.inWindow ks key i.2.1 i.2.2) then ((s.unsetKey ks adm key).1).reviewCapacity else s
      | none => s
    match del.bind s.cmd? with
    | some c => s.fail c stNotFound
    | none => s
  | .lose loc e reason src =>
    let s := s.touchBuckets e.ks e.key
    let s := if (s.lookup e.ks e.key).any fun x => x.loc == loc then s.loseNow loc e reason src else s
    s.readsLost loc
  | .rangeDone id => (s.setKv fun k => { k with ranges := k.ranges.filter fun x => x.id != id }).reviewCapacity
  | .slice k => s.setJrn fun j => match j.writing with
    | some x => if x.slice = k then { j.keepSlice x with writing := none } else j
    | none => j

/-- Do what waited for the records that are durable now, in their order. -/
def State.runActs (s : State) : State :=
  let due := s.jrn.acts.filter fun a => s.jDurable a.1
  due.foldl (fun s a => s.runAct a.2) (s.setJrn fun j => { j with acts := j.acts.filter fun a => !due.contains a })

/-- JOURNAL_PAGE_PROGRAMMED: both copies of the pages are programmed and their records are durable (R254). What waited for them is done, and
copies and erases that they allow go on (R261, R262). -/
def execJournalPageProgrammed (s : State) : Host.Outcome State Fault Refusal :=
  .next (
    if s.jrn.flying.isEmpty || (s.grantFor .journal).isNone then s
    else
      let s := s.setJrn fun j => { j with log := j.log ++ j.flying, flying := [], pagesDurable := j.pagesDurable + 1 }
      let s := ((s.metaProgram 65536).returnFor .journal).pumpJournal
      ((s.runActs).beginCopy).pumpErases)

/-- REPACK_START: T has stayed at or below 105 degC for 10 min (R271). -/
def execRepackStart (s : State) : Host.Outcome State Fault Refusal :=
  .next (
    if s.serving && s.flash.coolSince.any (fun t => s.past t (600 * oneSec)) && s.flash.segs.any (fun g => g.pslc) then
      s.setFlash fun f => { f with repacking := true }
    else s)

end Sys2Proof.Machine
end

