-- ==== Sys2Proof/Machine/MirrorOps.lean ====
section
/-! DEFINITION. Mirror below its rows: the link's sequence numbers (09 R298-R301), the handshake's proof (R297), the apply stage and
its internal commands (R305-R308), seeds and resynchronisation (R312, R317, R318), refused key spaces (R306), peer loss (R301, R311,
R314), and the end of a pairing (R310, R311). -/

namespace Sys2Proof.Machine

/-- The policy a key space has now. -/
def KeySpace.policyNow (k : KeySpace) : Policy := (k.policy.head?.map fun p => p.2).getD .off

/-- The key spaces that mirror. -/
def State.mirrored (s : State) : List KeySpace :=
  sortBy (fun a b => decide (a.ks < b.ks)) (s.kv.spaces.filter fun k => k.deletedAt.isNone && k.policyNow != .off)

/-- Policy codes of R309 and R324. -/
def Policy.code : Policy → Nat
  | .off => 0 | .async => 1 | .sync => 2

/-- The policy of a code. -/
def policyOf : Nat → Policy
  | 1 => .async | 2 => .sync | _ => .off

/-- A new key space (R42, R107, R313), with a key drawn for it (R394). -/
def State.newSpace (s : State) (ks adm : Nat) (ordered : Bool) (lim : Limits) (pol : Policy) (durable hidden : Bool) : State :=
  let k : KeySpace := { ks := ks, createdAt := some adm, ordered := ordered, limits := [(adm, lim)], limitsSaved := lim, policy := [(adm, pol)],
                        durable := [(adm, durable)], keyId := s.sec.keyNext, hidden := hidden }
  (s.setKv fun v => { v with spaces := v.spaces ++ [k] }).setSec fun x => { x with keyNext := x.keyNext + 1 }

/-- The new key table is written into the alternate block of each copy and the old block erased (R394, R397): key slots 0-63 the key spaces, 64
the metadata key, 65 the digest key. Programs and erases run under one class 0 grant (DESIGN CHOICE, log 81); the times of R397 are left out. -/
def State.writeKeys (s : State) : State :=
  let t := (s.kv.spaces.map fun k => (k.ks, k.keyId)) ++ [(64, s.sec.metaKey), (65, s.prism.digestKey.toNat)]
  s.under 12 .keyTable fun s => (s.setSec fun x => { x with keyTable := t, keyBlock := !x.keyBlock }).metaProgram 65536

/-- Put a policy in force at an admission position (R311). -/
def State.pushPolicy (s : State) (ks adm : Nat) (p : Policy) : State :=
  s.setSpace ks fun k => { k with policy := (adm, p) :: k.policy }

/-- Forget what the change log holds of a key space. -/
def State.dropLog (s : State) (ks : Nat) : State :=
  s.setMir fun m => { m with log := m.log.filter (fun e => e.ks != ks), logRanges := m.logRanges.filter (fun r => r.1 != ks),
                             fullKs := m.fullKs.filter fun k => k != ks }

/-- Drop what a seed or resynchronisation of a key space had still to send. -/
def State.dropSync (s : State) (ks : Nat) : State :=
  s.setMir fun m => { m with resyncq := m.resyncq.filter fun i => match i with
    | .mark k .. => k != ks
    | .key k .. => k != ks
    | .range k .. => k != ks }

/-- Enter a ks_state, with EV_MIRROR_SYNC (R324, R325). -/
def State.syncState (s : State) (ks st : Nat) : State :=
  let n := ((s.space? ks).map fun k => k.syncKeys).getD 0
  (s.setSpace ks fun k => { k with ksState := st }).logEv evMirrorSync uMirror (ks + 256 * st) n

/-- The same, where the key space is not in it yet. -/
def State.enterState (s : State) (ks st : Nat) : State := if (s.space? ks).any fun k => k.ksState != st then s.syncState ks st else s

/-- Replication of a key space stops (R312): its change log and what its seed had still to send go, and the copy stays as it is; one that a seed still
hid is no longer hidden (DESIGN CHOICE, log 86). -/
def State.stopMirroring (s : State) (ks : Nat) : State :=
  (((s.dropLog ks).dropSync ks).setSpace ks fun k => { k with cfgLseq := none, seedDue := false, probeLseq := none, seeding := false, hidden := false }).enterState ks 0

-- Seeds and resynchronisation at the sender.

/-- The keys of a key space that the index holds, in byte order. -/
def State.keysOf (s : State) (ks : Nat) : List Bytes :=
  sortBy keyLt (s.prism.entries.filterMap fun e => (s.keyAt e.loc).bind fun x => if x.1 = ks then some x.2 else none)

/-- Message flags of R298. -/
def fResync : Nat := 1
def fSeed : Nat := 2
def fUnknown : Nat := 4

/-- Whether a value that Mirror sends stands in DRAM: in the Landing, the value cache or read staging. One that is drained is read first, with
tokens in class 2 (R303, R211). Answers whether it does, and the read started where it does not. -/
def State.mirrorRead (s : State) (ks : Nat) (key : Bytes) (loc : Loc) : Bool × State :=
  match loc with
  | .flash g o _ =>
    if s.prism.valueCache.contains (g, o) then (true, s)
    else if s.mir.staged.contains (g, o) then (true, s.setMir fun m => { m with staged := m.staged.filter fun x => x != (g, o) })
    else if s.flash.reads.any fun r => r.why == .mirror && r.seg == g && r.off == o then (false, s)
    else
      match s.frec? g o with
      | some f =>
        (false, (s.addRead { id := 0, why := .mirror, seg := g, off := o, ks := ks, key := key, pages := 0 } (f.readPlan 0 f.len false)).pumpGcReads)
      | none => (true, s)
  | _ => (true, s)

/-- Send one item of a seed or resynchronisation, with the value the key has now. -/
def State.sendItem (s : State) (i : MSync) : State :=
  match i with
  | .mark ks b kind =>
    let n := ((s.space? ks).map fun k => k.syncKeys).getD 0
    s.mirrorQueue fun q =>
      { lseq := q, typ := 11, flags := 0, ks := ks, key := [], stamp := 0,
        body := fit 8 (le 1 (if b then 1 else 2) ++ le 1 kind) ++ le 8 n, live := false }
  | .range ks lo hi =>
    (s.mirrorQueue fun q =>
      { lseq := q, typ := 5, flags := fResync, ks := ks, key := lo, stamp := 0, body := mirrorBody (le 1 hi.length) lo hi, live := false }).setMir
        fun m => { m with logRanges := m.logRanges.filter fun r => r != (ks, lo, hi) }
  | .key ks key flags =>
    let ent := s.mir.log.find? fun e => e.ks == ks && e.key == key
    let stamp := (ent.map fun e => if e.unknown then 0 else e.stamp).getD 0
    let flags := if ent.all fun e => e.unknown then flags ||| fUnknown else flags
    let at_ := fun (s : State) (n : Nat) => s.setMir fun m => { m with log := m.log.map (fun (e : LogEntry) =>
      if e.ks = ks && e.key = key then { e with lseq := some n } else e) }
    match s.lookup ks key with
    | some e =>
      if e.loc.isLost then s.setMir fun m => { m with log := m.log.filter fun e => !(e.ks == ks && e.key == key) }
      else
        let v := s.valueAt e.loc
        let (s, n) := (s.copyMirror e.loc v.length 0).sendValue ks key v stamp flags 0 false
        (at_ s n).setSpace ks fun k => { k with syncDone := k.syncDone + v.length, syncKeys := k.syncKeys + 1 }
    | none =>
      if ent.isNone then s
      else
        let s := s.mirrorQueue fun q =>
          { lseq := q, typ := 4, flags := flags, ks := ks, key := key, stamp := stamp, body := mirrorBody [] key [], live := false }
        (at_ s (s.mir.lseqNext - 1)).setSpace ks fun k => { k with syncKeys := k.syncKeys + 1 }

/-- Whether the value of an item stands in DRAM, its read started where not. -/
def State.itemRead (s : State) (i : MSync) : Bool × State :=
  match i with
  | .key ks key _ =>
    match s.lookup ks key with
    | some e => s.mirrorRead ks key e.loc
    | none => (true, s)
  | _ => (true, s)

/-- Messages that an item takes: the parts of its value (R299). -/
def State.itemParts (s : State) (i : MSync) : Nat :=
  match i with
  | .key ks key _ => ((s.lookup ks key).map fun e => max 1 (ceilDiv (s.valueAt e.loc).length 8192)).getD 1
  | _ => 1

/-- Send what a seed or resynchronisation may send: behind every live write, an item only where all its messages leave at once within the 4,096 of
R300, so that none stands ahead of a later live write; each value once it is read (R303). -/
def State.pumpSync : Nat → State → State
  | 0, s => s
  | n + 1, s =>
    match s.mir.resyncq with
    | [] => s
    | i :: r =>
      if s.mir.state ≠ 2 || s.mir.lack + 4096 < s.mir.lseqNext + s.itemParts i || s.mir.sentTo < s.mir.lseqNext then s
      else
        let (ready, s) := s.itemRead i
        if ready then State.pumpSync n ((s.setMir fun m => { m with resyncq := r }).sendItem i) else s

/-- Queue the items of a synchronisation of one key space. -/
def State.queueSync (s : State) (ks kind : Nat) (items : List MSync) : State :=
  s.setMir fun m => { m with resyncq := m.resyncq ++ [.mark ks true kind] ++ items ++ [.mark ks false kind] }

/-- Start the seed of a key space at its source (R312, R313): its change log is covered by it. -/
def State.startSeed (s : State) (ks : Nat) : State :=
  let keys := s.keysOf ks
  let s := (s.dropLog ks).setSpace ks fun k =>
    { k with cfgLseq := none, seedDue := false, syncDone := 0, syncTotal := k.bytes, syncKeys := 0, refuseStatus := 0 }
  (s.syncState ks 7).queueSync ks 0 (keys.map fun b => .key ks b fSeed)

/-- Start a full resynchronisation at its source (R318). -/
def State.startFull (s : State) (ks : Nat) : State :=
  let keys := s.keysOf ks
  let s := (s.dropLog ks).setSpace ks fun k => { k with syncDone := 0, syncTotal := k.bytes, syncKeys := 0, refuseStatus := 0 }
  (s.syncState ks 5).queueSync ks 1 (keys.map fun b => .key ks b fResync)

/-- Queue the entries of unknown stamp: behind what the peer has sent of its own, so that only those are left for which it has no entry (R316). -/
def State.queueUnknown (s : State) (ks : Nat) : State :=
  s.setMir fun m => { m with resyncq := m.resyncq ++ (m.log.filter fun e => e.ks == ks && e.unknown).map fun e => .key ks e.key fResync }

/-- Start the delta resynchronisation of a key space (R317); entries of unknown stamp follow once the peer's SYNC_MARK end is applied (R316). -/
def State.startDelta (s : State) (ks : Nat) : State :=
  let mine := s.mir.log.filter fun e => e.ks == ks
  let rs := s.mir.logRanges.filter fun r => r.1 == ks
  let total := sumBy mine fun e => ((s.lookup ks e.key).bind fun x => (s.infoAt x.loc).map fun i => if x.loc.isLost then 0 else i.1).getD 0
  let s := s.setSpace ks fun k => { k with syncDone := 0, syncTotal := total, syncKeys := 0, refuseStatus := 0, probeLseq := none }
  let known := mine.filter fun e => !e.unknown
  let s := (s.syncState ks 4).queueSync ks 0 (rs.map (fun r => .range ks r.2.1 r.2.2) ++ known.map fun e => .key ks e.key fResync)
  if (s.space? ks).any fun k => k.endApplied then s.queueUnknown ks else s

/-- Ask the peer to be the source of a full resynchronisation: 2 as RESYNC names it, 3 as R318 chooses it (PRESUMED, log 19). -/
def State.askFull (s : State) (ks kind : Nat) : State :=
  s.mirrorQueue fun q => { lseq := q, typ := 11, flags := 0, ks := ks, key := [], stamp := 0, body := fit 8 (le 1 1 ++ le 1 kind) ++ le 8 0, live := false }

/-- Send KS_CFG for a key space (R299, R312, R313). -/
def State.sendCfg (s : State) (ks action : Nat) (ordered : Bool) (p : Policy) : State × Nat :=
  let s := s.mirrorQueue fun q => { lseq := q, typ := 10, flags := 0, ks := ks, key := [], stamp := 0,
                                    body := le 1 action ++ le 1 (b2n ordered) ++ le 1 p.code, live := false }
  (s, s.mir.lseqNext - 1)

/-- Ask the peer for the key space a seed is to fill; the seed follows its acknowledgement (R312, R313, R320). -/
def State.offerSeed (s : State) (ks : Nat) : State :=
  match s.space? ks with
  | none => s
  | some k =>
    let (s, n) := s.sendCfg ks 1 k.ordered k.policyNow
    (s.setSpace ks fun k => { k with cfgLseq := some n, seedDue := false }).enterState ks 3

/-- Resynchronise a key space (R313, R315, R317, R318): by a seed that is due, a full copy where it is marked for one, else by its change log. -/
def State.startSync (s : State) (k : KeySpace) : State :=
  if k.seeding then s
  else if k.seedDue then s.offerSeed k.ks
  else if s.mir.fullKs.contains k.ks then
    let s' := s.setMir fun m => { m with fullKs := m.fullKs.filter fun x => x != k.ks }
    if s.mir.interrupted then (s'.askFull k.ks 2).syncState k.ks 6
    else if (s.mir.pairing.any fun p => p.rank == 0) then s'.startFull k.ks
    else (s'.askFull k.ks 3).syncState k.ks 6
  else s.startDelta k.ks

/-- Whether something of a key space's synchronisation is still to be sent or applied. -/
def State.syncOpen (s : State) (ks : Nat) : Bool :=
  (s.mir.resyncq.any fun i => match i with | .mark k _ _ => k == ks | .key k _ _ => k == ks | .range k _ _ => k == ks) ||
    s.mir.sendq.any fun m => !m.live && m.ks == ks && [3, 4, 5, 11].contains m.typ

/-- A key space is in sync: EV_MIRROR_SYNC; with the last one the overflow flag goes, and what counts as an interruption begins anew (R317, R318,
R323). -/
def State.inSync (s : State) (ks : Nat) : State :=
  let s := (s.setSpace ks fun k => { k with endApplied := false }).syncState ks 1
  if s.mirrored.all fun k => k.ksState == 1 then s.setMir fun m => { m with overflow := false, interrupted := false } else s

/-- Bring the synchronisation states up to date (R312, R317, R318). -/
def State.checkSync (s : State) : State :=
  s.mirrored.foldl (fun s k =>
    if s.syncOpen k.ks then s
    else if k.ksState = 5 || k.ksState = 7 then s.inSync k.ks
    else if k.ksState = 4 && k.endApplied && !(s.mir.log.any fun e => e.ks == k.ks) then s.inSync k.ks
    else s) s

-- Refused key spaces.

/-- The refused state of a key space (R306): what its synchronisation had still to send is logged. -/
def State.refusedState (s : State) (ks : Nat) (st : BitVec 16) : State :=
  let left := s.mir.resyncq.filterMap fun i => match i with
    | .key k key _ => if k = ks then some key else none
    | _ => none
  let s := (s.dropSync ks).setMir fun m => { m with probeAt := (ks, s.now) :: m.probeAt.filter fun p => p.1 != ks }
  let s := left.foldl (fun s key => if s.mir.log.any fun e => e.ks == ks && e.key == key then s else s.logKey ks key 0 true) s
  ((s.setSpace ks fun k => { k with refuseStatus := st, probeLseq := none, cfgLseq := none, seedDue := false }).enterState ks 8).logEv
    evMirrorRefused uMirror ks st.toNat

/-- REFUSE names a message of this module (R306, R312, R320). -/
def State.takeRefuse (s : State) (lseq : Nat) (st : BitVec 16) : State :=
  let n := unwrap 32 s.mir.lapplied lseq
  match (s.mir.sendq ++ s.mir.covered).find? fun m => m.lseq == n with
  | none => s
  | some m =>
    if m.typ = 10 then
      match s.cmds.find? fun c => c.st == .mirrorWait && c.lseq == n && c.entry.arg 40 1 == 3 with
      | some c => (s.setSpace m.ks fun k => { k with cfgLseq := none }).fail c stInvalid
      | none => s.refusedState m.ks stInvalid
    else
      let s := if m.typ = 5 then s.logRange m.ks m.key (m.body.drop (8 + align8 m.key.length))
               else s.logKey m.ks m.key m.stamp (m.flags / 4 % 2 = 1)
      s.refusedState m.ks st

-- Acknowledgements.

/-- Commands that waited on the peer and whose message lapplied has passed (R302, R310-R312). -/
def State.wakeMirror (s : State) (lapp : Nat) : State :=
  (s.cmds.filter fun c => c.lseq ≠ 0 && c.src != .mirror && decide (c.lseq < lapp)).foldl (fun s c =>
    if c.st == .mirrorWait then
      if c.entry.arg 40 1 = 3 then
        let p := policyOf (fieldAt (c.payload.getD []) 56 1)
        let s := s.pushPolicy c.entry.ks c.adm p
        let s := if p == .off then s.stopMirroring c.entry.ks else s
        s.ok c 0 0
      else s.ok c 0 0
    else (s.setCmd c.adm fun c => { c with lseq := 0 }).settleWrite c.adm) s

/-- The pairing is forgotten (R310, R405): every field the link had goes with it. -/
def State.forgetPairing (s : State) : State :=
  let old := s.mir.state
  let s := s.setMir fun m => { stamp := m.stamp, stampStored := m.stampStored, conflicts := m.conflicts, stateAt := s.now }
  let s := (s.kv.spaces.filter fun k => k.deletedAt.isNone && k.ksState != 0).foldl (fun s k => s.syncState k.ks 0) s
  let s := s.setKv fun v => { v with spaces := v.spaces.map fun k => { k with ksState := 0, cfgLseq := none, seedDue := false, probeLseq := none } }
  if old = 0 then s else s.logEv evMirrorState uMirror old 0

/-- After UNPAIR: CLOSE is sent once lapplied covers every write admitted before it, or the peer is lost (R311). -/
def State.endUnpair (s : State) : State :=
  match s.mir.unpairAt with
  | none => s
  | some a =>
    let waits := s.mir.state == 2 && (!s.mir.sendq.isEmpty ||
      s.cmds.any fun c => decide (c.adm < a) && c.undecided && isWrite c.entry.opcode && s.policyAt c.entry.ks c.adm != .off)
    if waits then s else ((if s.mir.state = 2 then s.sendClose else s)).forgetPairing

/-- Take lack and lapplied of a received message (R298, R300): what it acknowledges is released. -/
def State.mirrorAcks (s : State) (m : MirrorMsg) : State :=
  let lack := unwrap 32 s.mir.lack m.lack
  let lapp := unwrap 32 s.mir.lapplied m.lapplied
  let s := if s.mir.lack < lack && lack ≤ s.mir.lseqNext then
      s.setMir fun x => { x with lack := lack, lackAt := s.now, resendMs := 1, sentTo := max x.sentTo lack }
    else s
  if lapp ≤ s.mir.lapplied || s.mir.lseqNext < lapp then s.mirrorPump
  else
    let cov := s.mir.sendq.filter fun x => decide (x.lseq < lapp)
    let s := s.setMir fun x =>
      { x with lapplied := lapp, sendq := x.sendq.filter (fun y => decide (lapp ≤ y.lseq)), covered := (cov ++ x.covered).take 4096
               log := x.log.filter fun e => e.lseq.all fun n => decide (lapp ≤ n) }
    let s := cov.foldl (fun s x => if x.live && x.final then s.flushAcked x.adm else s) s
    let seeds := (s.mirrored.filter fun k => k.cfgLseq.any fun n => decide (n < lapp)).map fun k => k.ks
    let newly := (s.kv.spaces.filter fun k => k.deletedAt.isNone && k.policyNow == .off && k.cfgLseq.any fun n => decide (n < lapp)).map fun k => k.ks
    let probed := (s.mirrored.filter fun k => k.probeLseq.any fun n => decide (n < lapp))
    let s := s.wakeMirror lapp
    let s := (seeds ++ newly).foldl (fun s k => s.startSeed k) s
    let s := probed.foldl State.startSync s
    (s.mirrorPump.checkSync).endUnpair

-- The apply stage.

/-- Post an internal command of the Mirror receiver (R305). -/
def State.internal (s : State) (lseqs : List Nat) (e : Entry) (payload : Bytes) (stamp : Nat) : State :=
  let a := s.mbx.admNext
  let s := s.setMir fun m => { m with applyq := m.applyq.map fun (r : MRecv) => if lseqs.contains r.lseq then { r with adm := some a } else r }
  let s := s.setTr fun t => { t with mirrorCmds := t.mirrorCmds.admitOne }
  s.admitCmd { newCmd .mirror 1 false e payload 0 with stamp := stamp }

/-- The payload of R82: a key, and what stands behind it. -/
def keyAnd (key tail : Bytes) : Bytes := if tail.isEmpty then key else fit (align8 key.length) key ++ tail

/-- The entry of a replicated write: landed, no tag (R305). -/
def writeEntry (op ks : Nat) (key tail : Bytes) : Entry :=
  let args := match op with
    | 0x01 => le 4 tail.length
    | 0x05 => le 1 tail.length
    | _ => []
  { opcode := op, durability := 1, ks := ks, keyLen := key.length, reqLen := (keyAnd key tail).length, args := fit 24 args }

/-- Mark a received message applied, with lapplied (R300). -/
def State.applied (s : State) (lseqs : List Nat) (st : BitVec 16) : State :=
  (s.setMir fun m => { m with applyq := m.applyq.map fun (r : MRecv) => if lseqs.contains r.lseq then { r with done := some st } else r }).mirrorAdvance

/-- What a target counts of a delivered key (R318, R324, R325): a full resynchronisation has delivered it, be it a conflict or not; `sync` tells the
traffic of a seed or resynchronisation from live writes, `wins` that the value is applied. -/
def State.countDelivered (s : State) (ks : Nat) (key val : Bytes) (sync wins : Bool) : State :=
  match s.space? ks with
  | none => s
  | some k =>
    let differs := k.ksState = 6 && wins && (s.lookup ks key).any fun e => s.valueAt e.loc != val
    let n := ((s.mir.removed.find? fun r => r.1 == ks).map fun r => r.2).getD 0
    let s := s.setSpace ks fun k =>
      { k with syncSeen := if k.ksState = 6 then k.syncSeen ++ [key] else k.syncSeen
               syncDone := if sync && (k.ksState = 4 || k.ksState = 6) then k.syncDone + val.length else k.syncDone
               syncKeys := if sync && (k.ksState = 4 || k.ksState = 6) then k.syncKeys + 1 else k.syncKeys }
    if differs then s.setMir fun m => { m with removed := (ks, n + 1) :: m.removed.filter fun r => r.1 != ks } else s

/-- The peer has an entry for a key: one of an unknown stamp here is not sent (R316). -/
def State.dropUnknown (s : State) (ks : Nat) (key : Bytes) : State :=
  s.setMir fun m => { m with log := m.log.filter fun e => !(e.ks == ks && e.key == key && e.unknown) }

/-- Apply a replicated write: the conflict rule of R308, then an internal command (R305). -/
def State.applyKey (s : State) (lseqs : List Nat) (m : MirrorMsg) (op : Nat) (key tail : Bytes) : State :=
  let ks := m.ks.toNat
  let stamp := if m.flags.getLsbD 2 then 0 else m.stamp.toNat
  let pend := if op = 0x05 then none else s.pendingStamp ks key
  let wins := pend.all fun p => decide (p < stamp)
  let s := if op = 0x01 then s.countDelivered ks key tail (m.flags.getLsbD 0 || m.flags.getLsbD 1) wins else s
  let s := if m.flags.getLsbD 0 && wins then s.dropUnknown ks key else s
  if !wins then
    (s.countConflict ks).applied lseqs stOk
  else s.internal lseqs (writeEntry op ks key tail) (keyAnd key tail) stamp

/-- Gather a part of a replicated value; the last one makes it a write (R299, R305). None where all 64 assemblies are in use. -/
def State.applyPart (s : State) (r : MRecv) : Option State :=
  let m := r.msg
  let ks := m.ks.toNat
  let off := fieldAt m.body 0 4
  let total := fieldAt m.body 4 4
  let data := m.body.drop (8 + align8 m.key.length)
  let mine := fun (a : MAsm) => a.ks == ks && a.key == m.key
  let have_ := if off = 0 then [] else ((s.mir.asms.find? mine).map fun a => a.val).getD []
  let rest := s.mir.asms.filter fun a => !mine a
  let val := have_ ++ data
  if off ≠ have_.length then some (s.applied [r.lseq] stSeq)
  else if total ≤ val.length then
    let parts := (s.mir.applyq.filter fun x => x.gathered && x.adm.isNone && x.msg.ks == m.ks && x.msg.key == m.key && decide (x.lseq < r.lseq)).map fun x => x.lseq
    some ((s.setMir fun x => { x with asms := rest }).applyKey (parts ++ [r.lseq]) m 0x01 m.key val)
  else if 64 ≤ rest.length then none
  else some (s.setMir fun x =>
    { x with asms := rest ++ [{ ks := ks, key := m.key, total := total, val := val, stamp := m.stamp.toNat }]
             applyq := x.applyq.map fun y => if y.lseq = r.lseq then { y with gathered := true } else y })

/-- KS_CFG at the receiver (R312, R313): a key space that is absent or empty takes the policy, a created one hidden until its seed
ends; any other is refused with ST_INVALID. The target of a seed that a loss cut short takes it again: it is emptied first (R312, R317; DESIGN CHOICE, log
86). -/
def State.applyCfg (s : State) (r : MRecv) : State :=
  let ks := r.msg.ks.toNat
  let action := fieldAt r.msg.body 0 1
  let ordered := fieldAt r.msg.body 1 1 % 2 == 1
  let pol := policyOf (fieldAt r.msg.body 2 1)
  if 63 < ks then s.applied [r.lseq] stInvalid
  else if action = 2 then
    s.internal [r.lseq] { opcode := 0x11, ks := ks, args := fit 24 [] } [] 0
  else if pol == .off then
    ((s.pushPolicy ks s.mbx.admNext .off).stopMirroring ks).applied [r.lseq] stOk
  else
    match s.space? ks with
    | none =>
      (((s.newSpace ks s.mbx.admNext ordered ⟨0, 0⟩ pol false true).setSpace ks fun k => { k with seeding := true }).enterState ks 6).writeKeys.applied [r.lseq] stOk
    | some k =>
      if action = 3 && k.policyNow != .off then (s.pushPolicy ks s.mbx.admNext pol).applied [r.lseq] stOk
      else if (k.keys ≠ 0 && !k.seeding) || k.ordered != ordered then ((s.mirrorRefuse ks (r.lseq % 2 ^ 32) stInvalid)).applied [r.lseq] stInvalid
      else
        let s := if k.seeding then (s.keysOf ks).foldl (fun s b => s.reclaimKey ks s.mbx.admNext b false) s else s
        (((s.pushPolicy ks s.mbx.admNext pol).setSpace ks fun k => { k with seeding := true, syncSeen := [], syncDone := 0, syncKeys := 0 }).enterState ks 6).applied
          [r.lseq] stOk

/-- The end of a full resynchronisation at its target: keys that the scan did not deliver are removed (R318). -/
def State.endFull (s : State) (ks : Nat) : State :=
  match s.space? ks with
  | none => s
  | some k =>
    let gone := (s.keysOf ks).filter fun b => !k.syncSeen.contains b
    let s := gone.foldl (fun s b => s.reclaimKey ks s.mbx.admNext b false) s
    let n := gone.length + ((s.mir.removed.find? fun r => r.1 == ks).map fun r => r.2).getD 0
    (s.setMir fun m => { m with removed := m.removed.filter fun r => r.1 != ks }).logEv evMirrorDiverged uMirror ks n

/-- SYNC_MARK at the receiver (R312, R317, R318). The begin of a delta makes this module resynchronise the key space too. -/
def State.applyMark (s : State) (r : MRecv) : State :=
  let ks := r.msg.ks.toNat
  let b := fieldAt r.msg.body 0 1
  let kind := fieldAt r.msg.body 1 1
  let st : Nat := ((s.space? ks).map fun k => k.ksState).getD 0
  let s :=
    if (s.space? ks).isNone then s
    else if kind = 2 then s.startFull ks
    else if kind = 3 then (if s.mir.interrupted then s.askFull ks 2 else s.startFull ks)
    else if b = 1 && kind = 1 then
      ((s.dropLog ks).setSpace ks fun k => { k with syncSeen := [], syncDone := 0, syncTotal := 0, syncKeys := 0 }).enterState ks 6
    else if b = 1 then
      if st = 6 then s.setSpace ks fun k => { k with syncSeen := [], syncDone := 0, syncTotal := 0, syncKeys := 0 }
      else match s.space? ks with
        | some k => if (st = 1 || st = 3) && k.cfgLseq.isNone && !k.seedDue && !s.mir.fullKs.contains ks then s.startSync k else s
        | none => s
    else if st = 6 then
      let s := if kind = 1 then s.endFull ks else s
      (s.setSpace ks fun k => { k with hidden := false, seeding := false, syncTotal := k.syncDone, syncSeen := [] }).inSync ks
    else
      let s := s.setSpace ks fun k => { k with endApplied := true }
      if st = 4 then s.queueUnknown ks else s
  (s.applied [r.lseq] stOk).checkSync

/-- Answer REPAIR_REQ, its value read (R321). -/
def State.answerRepair (s : State) (r : MRecv) : State :=
  let ks := r.msg.ks.toNat
  let key := r.msg.key
  let len := fieldAt r.msg.body 0 4
  let val := (s.lookup ks key).bind fun e => if e.loc.isLost then none else some (s.valueAt e.loc)
  let parts := fun (v : Bytes) => (List.range (max 1 (ceilDiv v.length 8192))).map fun i => (8192 * i, slice v (8192 * i) 8192)
  let send := fun (s : State) (off total : Nat) (d : Bytes) => s.mirrorQueue fun q =>
    { lseq := q, typ := 9, flags := 0, ks := ks, key := key, stamp := 0, body := mirrorBody (le 4 off ++ le 4 total) key d, live := false }
  match val with
  | some v =>
    if v.length = len && (s.pendingStamp ks key).isNone then
      (parts v).foldl (fun s p => send s p.1 v.length p.2) ((s.lookup ks key).elim s fun e => s.copyMirror e.loc v.length 0)
    else send s stNotFound.toNat 0 []
  | none => send s stNotFound.toNat 0 []

/-- A value from the peer replaces a lost one: it is rewritten through the Landing, or where that has no room its segment is marked for
refresh (R321). -/
def State.rewrite (s : State) (e : IdxEntry) (r : ReadOp) (f : FRec) (val : Bytes) : State :=
  if s.land.writeThrough || !s.land.admits (cellsFor f.len) then (s.markRefresh r.seg).setSeg r.seg fun g =>
    { g with recs := g.recs.map fun x => if x.off = r.off then { x with val := val } else x }
  else
    let a := s.reserveCells { id := 0, kind := .value, ks := f.ks, key := f.key, adm := f.adm, epoch := f.epoch, len := f.len, val := val,
                              st := .visible, visAt := s.now, visNo := s.land.nextVis, src := f.src, fromPeer := true } (cellsFor f.len)
    let t := a.1.setLand fun l => { l with nextVis := l.nextVis + 1 }
    match t.rec? a.2 with
    | some x => t.moveLoc e.loc x.loc
    | none => t

/-- A repaired record that collection reads is ready to move, if an entry still names it (R261). -/
def State.readyCopy (s : State) (r : ReadOp) (f : FRec) : State :=
  match s.flash.copy with
  | some c => if (s.namedBy r.seg r.off).isSome then s.setFlash fun x => { x with copy := some { c with ready := c.ready ++ [f] } } else s
  | none => s

/-- What waited for a read goes on with the repaired value (R70). -/
def State.readRepaired (s : State) (r : ReadOp) (f : FRec) : State :=
  match r.why with
  | .cmd adm | .check adm => s.readsEnded adm
  | .scrub | .summary | .none_ => s
  | .mirror => s.setMir fun m => { m with staged := (r.seg, r.off) :: m.staged }
  | .gc => ((s.readyCopy r f).pumpReloc).finishCopy

/-- A lost value has come from the peer: it is rewritten, and the reads that wait for it go on (R70, R321). -/
def State.repaired (s : State) (r : ReadOp) (val : Bytes) : State :=
  match s.namedBy r.seg r.off, s.frec? r.seg r.off with
  | some e, some f =>
    let ch := ((s.seg? r.seg).map fun g => (g.pageAt r.off).1).getD 0
    let s := (s.logEv evReadRecovered uFlash (ch + 256 * segPos r.seg + 65536 * 5) r.seg).logEv evMediaRepaired uFlash f.ks f.len
    (((s.rewrite e r f val).dropRead r.id).readRepaired r { f with val := val }).pumpErases.pumpDrain
  | _, _ => s.readLost r

/-- Take REPAIR_RSP (R321): the whole value, or a refusal. -/
def State.takeRepair (s : State) (r : MRecv) : State :=
  let ks := r.msg.ks.toNat
  let key := r.msg.key
  let off := fieldAt r.msg.body 0 4
  let total := fieldAt r.msg.body 4 4
  let data := r.msg.body.drop (8 + align8 key.length)
  let mine := fun (a : MAsm) => a.ks == ks && a.key == key
  let waiting := s.flash.reads.filter fun x => x.ks == ks && x.key == key && x.peerSince.isSome
  if total = 0 && off ≠ 0 then waiting.foldl (fun s x => s.readLost x) s
  else
    let val := (if off = 0 then [] else ((s.mir.repairAsm.find? mine).map fun a => a.val).getD []) ++ data
    let rest := s.mir.repairAsm.filter fun a => !mine a
    if total ≤ val.length then
      waiting.foldl (fun s x => if s.repairable ks key then s.repaired x val else s.readLost x) (s.setMir fun m => { m with repairAsm := rest })
    else s.setMir fun m => { m with repairAsm := rest ++ [{ ks := ks, key := key, total := total, val := val, stamp := 0 }] }

-- Loss and return.

/-- Counters and queues of a link that has ended. -/
def Mirror.cleared (m : Mirror) : Mirror :=
  { m with portInUse := none, linkLost := none, helloSent := none, lseqNext := 1, sendq := [], covered := [], resyncq := [], repairAsm := [],
           staged := [], sentTo := 1, lack := 1, lapplied := 1, resendMs := 1, rxNext := 1, applied := 1, applyq := [], asms := [], removed := [] }

/-- Seeds offered or under way are due again once the peer returns (R313). -/
def State.seedsDue (s : State) : State :=
  s.setKv fun v => { v with spaces := v.spaces.map fun k =>
    { k with seedDue := k.seedDue || (k.policyNow != .off && k.deletedAt.isNone && (k.cfgLseq.isSome || k.ksState == 7)) } }

/-- The peer is lost (R301, R311, R314): unapplied writes enter the change log, mirrored key spaces run solo, and commands that waited on
the peer go on without it. -/
def State.mirrorLoss (s : State) : State :=
  let old := s.mir.state
  let q := s.mir.sendq
  let s := (s.setMir fun m => { m.cleared with state := 3, stateAt := s.now }).logEv evMirrorState uMirror old 3
  let s := s.mirrored.foldl (fun s k => s.enterState k.ks 3) (s.seedsDue)
  let s := s.setKv fun v => { v with spaces := v.spaces.map fun k =>
    if k.deletedAt.isSome || k.policyNow == .off then { k with cfgLseq := none }
    else { k with cfgLseq := none, probeLseq := none, endApplied := false } }
  let s := s.setMir fun m => { m with log := m.log.map fun (e : LogEntry) => { e with lseq := none } }
  let s := q.foldl (fun s m =>
    match m.typ with
    | 3 | 4 => if m.live && m.final then s.logKey m.ks m.key m.stamp false else s
    | 5 => s.logRange m.ks m.key (m.body.drop (8 + align8 m.key.length))
    | 10 => if fieldAt m.body 0 1 = 2 then s.logDelete m.ks else s
    | _ => s) s
  let s := s.setKv fun v => { v with flushes := v.flushes.map fun f => { f with acks := [] } }
  let s := (s.cmds.filter fun c => c.lseq ≠ 0 && c.src != .mirror).foldl (fun s c =>
    if c.st == .mirrorWait then (if c.entry.arg 40 1 = 2 then s.ok c 0 0 else s.fail c stPeerUnreachable)
    else (s.setCmd c.adm fun c => { c with lseq := 0 }).settleWrite c.adm) s
  s.endUnpair

/-- Key spaces that were source of a full resynchronisation cut short go through it again (R318). -/
def State.markFullAgain (s : State) : State :=
  s.setMir fun m => { m with fullKs := dedup (m.fullKs ++ ((s.kv.spaces.filter fun k => k.ksState == 5).map fun k => k.ks)) }

/-- The loss of the peer at any point of a synchronisation. -/
def State.peerGone (s : State) : State := s.markFullAgain.mirrorLoss

-- Applying in turn.

/-- Apply one message of another type than a write. -/
def State.applyOther (s : State) (r : MRecv) : State :=
  match r.typ with
  | 8 => (s.answerRepair r).applied [r.lseq] stOk
  | 9 => (s.takeRepair r).applied [r.lseq] stOk
  | 10 => s.applyCfg r
  | 11 => s.applyMark r
  | 13 => s.peerGone
  | _ => s.applied [r.lseq] stOk

/-- The flash record whose value a REPAIR_REQ asks for. -/
def State.repairLoc (s : State) (r : MRecv) : Option Loc :=
  if r.typ = 8 then (s.lookup r.msg.ks.toNat r.msg.key).map fun e => e.loc else none

/-- Whether the value of a REPAIR_REQ has still to be read. -/
def State.repairReading (s : State) (r : MRecv) : Bool := (s.repairLoc r).any fun l => !(s.mirrorRead r.msg.ks.toNat r.msg.key l).1

/-- Take the value of a REPAIR_REQ that has been read, or start its read. -/
def State.repairRead (s : State) (r : MRecv) : State := (s.repairLoc r).elim s fun l => (s.mirrorRead r.msg.ks.toNat r.msg.key l).2

/-- Start the read of the REPAIR_REQ that is next in the apply stage. -/
def State.askRepair (s : State) : State :=
  match s.mir.applyq.find? fun r => r.adm.isNone && r.done.isNone && !r.gathered with
  | some r => if (s.mir.applyq.takeWhile fun x => x.lseq != r.lseq).all fun x => x.done.isSome then s.repairRead r else s
  | none => s

/-- Apply the next message of the apply stage that can be applied: writes while a receiver credit is free, others once every earlier
message is applied (R300, R305). -/
def State.applyNext (s : State) : Option State :=
  match s.mir.applyq.find? fun r => r.adm.isNone && r.done.isNone && !r.gathered with
  | none => none
  | some r =>
    if [3, 4, 5].contains r.typ then
      if 256 ≤ s.tr.mirrorCmds.outstanding then none
      else if r.typ = 3 then s.applyPart r
      else if r.typ = 4 then some (s.applyKey [r.lseq] r.msg 0x03 r.msg.key [])
      else some (s.applyKey [r.lseq] r.msg 0x05 r.msg.key (slice r.msg.body (8 + align8 r.msg.key.length) (fieldAt r.msg.body 0 1)))
    else if (s.mir.applyq.takeWhile fun x => x.lseq != r.lseq).all fun x => x.done.isSome then
      if s.repairReading r then none else some ((s.repairRead r).applyOther r)
    else none

/-- Apply what can be applied; the value a REPAIR_REQ names is read first. -/
def State.applyAll : Nat → State → State
  | 0, s => s
  | n + 1, s => match s.applyNext with
    | some s' => State.applyAll n s'
    | none => s.askRepair

/-- Whether the apply stage works: commands are admitted, no service reset runs. -/
def State.mirrorWorks (s : State) : Bool := s.serving && s.mir.pairing.isSome

/-- What the Mirror engine does whenever it is called: apply, send, and end an UNPAIR (R300, R303, R311). -/
def State.mirrorTurn (s : State) : State :=
  if !s.mirrorWorks then s
  else (((s.applyAll (s.mir.applyq.length + 1)).mirrorPump).pumpSync 4096).endUnpair

/-- What every message does on arrival: the time of the last message, its acknowledgements and its stamp are taken (R298, R300, R307). -/
def State.mirrorHeard (s : State) (m : MirrorMsg) : State :=
  ((s.setMir fun x => { x with lastRx := s.now }).mirrorAcks m).setMir fun x => x.toStamp (max x.stamp (m.stamp.toNat / 2))

/-- The next message in order is queued for application, and applied in its turn (R300). REFUSE has been taken already. -/
def State.mirrorNext (s : State) (n typ : Nat) (m : MirrorMsg) : State :=
  (s.setMir fun x => { x with rxNext := n + 1, applyq := x.applyq ++
    [{ lseq := n, typ := typ, msg := m, done := if typ = 12 then some 0 else none }] }).mirrorAdvance.mirrorTurn

/-- Receive a message with an lseq on the connected link, in lseq order (R298, R300). A repeated one is acknowledged again; one beyond the
next is discarded and sent again by the peer. -/
def State.mirrorReceive (s : State) (typ : Nat) (m : MirrorMsg) : State :=
  if s.mir.state ≠ 2 || !s.mirrorWorks then s
  else
    let n := unwrap 32 s.mir.rxNext m.lseq
    let inOrder := n == s.mir.rxNext && typ ≠ 6 && typ ≠ 7
    let s := (if inOrder && typ = 12 then s.takeRefuse (fieldAt m.body 4 4) (BitVec.ofNat 16 (fieldAt m.body 0 2)) else s).mirrorHeard m
    if s.mir.state ≠ 2 then s
    else if typ = 6 || typ = 7 then s.mirrorTurn
    else if !inOrder then (if n < s.mir.rxNext then s.mirrorPlain 6 0 [] [] else s)
    else s.mirrorNext n typ m

-- The handshake.

/-- The body of HELLO and HELLO_ACK: nonce, serial number, fw_active, rank, proof (R299). -/
def State.helloBody (s : State) (nonce proof : Bytes) (fw : Nat) : Bytes :=
  nonce ++ fit 24 s.ident.serial ++ le 8 fw ++ le 1 ((s.mir.pairing.map fun p => p.rank).getD 0) ++ fit 32 proof

/-- Version of the image that runs (R113 fw_active). -/
def State.fwActive (s : State) : Nat :=
  match s.upd.active with
  | 0 => s.upd.slotA.version
  | 1 => s.upd.slotB.version
  | _ => s.ident.fwRecovery

/-- The proof of R297: HMAC-SHA-256 under the pairing secret over both nonces and both serial numbers, the initiator's first. -/
def helloProof (secret n1 n2 s1 s2 : Bytes) : Bytes := hmac secret (n1 ++ n2 ++ s1 ++ s2)

/-- Send a HELLO on a port with a fresh nonce (R297). -/
def State.sendHello (s : State) (p : Fin 2) : State :=
  let nonce := le 16 s.freeVal
  let s := s.freeNext.setMir fun m => { m with nonce := nonce, helloSent := some s.now }
  let body := s.helloBody nonce [] s.fwActive
  s.mirrorTxOn p (s.mirrorDg 1 0 0 0 0 0 body)

/-- Open the link of a stored pairing: at PAIR and at each start-up (R295, R310). -/
def State.openLink (s : State) : State :=
  match s.mir.pairing with
  | none => s
  | some pr =>
    let old := s.mir.state
    let s := (s.setMir fun m => { m.cleared with state := 1, stateAt := s.now, lastRx := s.now, authFailed := false }).logEv evMirrorState uMirror old 1
    s.sendHello pr.port

-- The end of a page read.

/-- Power class of a read (R211). -/
def ReadWhy.powerClass (w : ReadWhy) : Nat := (w.cls).getD (match w with | .scrub => 3 | _ => 1)

/-- Step 4 of the ladder for a page on a channel: the row's other pages are read in parallel, with tokens of their own, suspending their dies, and count
on their blocks (R248, R264, R265). Answers none while one of them must wait. -/
def State.rebuildPage (s : State) (r : ReadOp) (g : Segment) (byte ch : Nat) : Option State :=
  let pos := segPos g.seg
  let others := (g.rowChans byte).filter fun c => c != ch && s.dieServes c pos
  let held := (s.pwr.grants.filter fun x => x.why == .rebuild r.id).length
  if held < others.length then
    some (if held ≠ 0 || s.pwr.queue.any fun q => q.why == .rebuild r.id then s
      else others.foldl (fun s _ => s.askTokens r.why.powerClass 4 (.rebuild r.id)) s)
  else if others.any fun c => s.suspendSpent c pos then some s
  else none

/-- The row's other pages have been read. -/
def State.rowRead (s : State) (r : ReadOp) (g : Segment) (byte ch : Nat) : State :=
  let pos := segPos g.seg
  let others := (g.rowChans byte).filter fun c => c != ch && s.dieServes c pos
  (others.foldl (fun s c => (s.suspendDie c pos).countRead g.seg c 1) s).returnAll (.rebuild r.id)

/-- The outcome that a page read can have: a page of a retired die is rebuilt from parity (R276), which fails where the row misses another page
(R264). -/
def State.outcomeAt (s : State) (g : Segment) (byte ch : Nat) (o : ReadOutcome) : ReadOutcome :=
  let pos := segPos g.seg
  let o := if !s.dieServes ch pos && o != .failed then .parity else o
  if o = .parity && (g.rowChans byte).any (fun c => c != ch && !s.dieServes c pos) then .failed else o

/-- PAGE_READ_DONE: the oldest page read of a record ends on the ladder (R264, R265, R491). A page of a retired die is rebuilt from parity
(R276); a page of the spill table that does not decode is served from the other copy (R201, R264). A read that goes on to step 4 ends once the row's
other pages are read. -/
def execPageReadDone (read : Nat) (o : ReadOutcome) (s : State) : Host.Outcome State Fault Refusal :=
  .next (match s.flash.reads.find? fun r => r.id == read, s.grantFor (.read read) with
    | some r, some gr =>
      if r.seg = spillSeg then (s.returnGrant gr.id).pageEnded r .hard
      else
        match s.seg? r.seg with
        | none => s
        | some g =>
          let pos := segPos r.seg
          let byte := r.plan.getD r.done r.off
          let ch := (g.pageAt byte).1
          let gone := !s.dieServes ch pos
          let o := s.outcomeAt g byte ch o
          let four := o == .parity || o == .failed
          if !gone && s.suspendSpent ch pos then s
          else match if four then s.rebuildPage r g byte ch else none with
            | some s' => s'
            | none =>
              let s := if gone then s else (s.suspendDie ch pos).countRead r.seg ch (readsOf o)
              let s := if four then s.rowRead r g byte ch else s
              (((s.returnGrant gr.id).readMarks r.seg ch pos o).pageEnded r o).mirrorTurn
    | _, _ => s)

end Sys2Proof.Machine
end

