-- ==== Sys2Proof/Machine/Mirror.lean ====
section
/-! DEFINITION. The rows of Mirror (09): the link, the apply stage, refused key spaces, loss and return, and the commands MIRROR_CFG and
MIRROR_STATE (09 R309-R313, R323, R324; 03 R118). -/

namespace Sys2Proof.Machine

-- The active SUP's mailbox.

/-- Whether an activation step holds the commands that the SUP serves: steps 2 and 3 (R376; that the hold lasts for the whole step is the
model's choice, log 53). -/
def State.supHeld (s : State) : Bool := (s.upd.state = 4 || s.upd.rollback) && (s.upd.step = 2 || s.upd.step = 3)

/-- The command at the front of the active SUP's mailbox, when its opcode is `op` and its payload has come (R23, R376, R490). -/
def State.supFront (s : State) (op : Nat) : Option Cmd :=
  match s.mbx.sup.head? with
  | none => none
  | some adm =>
    match s.cmd? adm with
    | none => none
    | some c =>
      if c.entry.opcode == op && s.running && s.pwr.ps == 0 && !s.supHeld && !(c.payload.isNone && (s.precheck c).isNone) then some c else none

/-- Execute the front command of the active SUP's mailbox past the common checks, or do nothing. -/
def State.runSup (s : State) (op : Nat) (f : State → Cmd → State) : State :=
  match s.supFront op with
  | some c => s.checked c f
  | none => s

/-- MIRROR_CFG with an action that `sel` selects (R309). -/
def State.runCfg (s : State) (sel : Nat → Bool) (f : State → Cmd → State) : State :=
  match s.supFront 0x40 with
  | some c => if sel (c.entry.arg 40 1) then s.checked c f else s
  | none => s

-- The handshake.

/-- Whether a datagram comes from the paired peer. -/
def State.fromPeerAt (s : State) (rx : Rx) : Bool :=
  s.mirrorWorks && !s.mir.authFailed && s.mir.unpairAt.isNone && s.mir.pairing.any fun p =>
    p.addr == rx.hostAddr && p.udp == rx.hostUdp && (p.port == rx.port || p.alt == some rx.port)

/-- MIRROR_HELLO (R297): answered with HELLO_ACK and this module's proof. On the port in use of a connected link that has carried
messages it says that the peer has started afresh: the link ends first. -/
def execMirrorHello (rx : Rx) (body : Bytes) (s : State) : Host.Outcome State Fault Refusal :=
  .next (
    if !s.fromPeerAt rx then s
    else match s.mir.pairing with
      | none => s
      | some pr =>
        let again := s.mir.state = 2 && s.mir.portInUse == some rx.port && (s.mir.rxNext ≠ 1 || s.mir.lack ≠ 1)
        let s := (if again then s.peerGone else s).setMir fun m => { m with peerPcp := some rx.pcp }
        let nonce := le 16 s.freeVal
        let s := s.freeNext
        let proof := helloProof pr.secret (body.take 16) nonce (slice body 16 24) (fit 24 s.ident.serial)
        let body' := s.helloBody nonce proof s.fwActive
        s.mirrorTxOn rx.port (s.mirrorDg 2 0 0 0 0 0 body'))

/-- MIRROR_HELLO_ACK (R297, R301): a peer that proves the secret is connected, or the link moves to the port that answered with its
numbering unbroken; a failed proof ends the exchange with EV_MIRROR_AUTH. -/
def execMirrorHelloAck (rx : Rx) (body : Bytes) (s : State) : Host.Outcome State Fault Refusal :=
  .next (
    if !s.fromPeerAt rx then s
    else match s.mir.pairing, s.mir.helloSent with
      | some pr, some t =>
        let serial := slice body 16 24
        if slice body 49 32 != helloProof pr.secret s.mir.nonce (body.take 16) (fit 24 s.ident.serial) serial then
          (s.setMir fun m => { m with authFailed := true, helloSent := none }).logEv evMirrorAuth uMirror rx.port.val 0
        else
          let old := s.mir.state
          let s := s.setMir fun m =>
            { m with state := 2, stateAt := if old = 2 then m.stateAt else s.now, portInUse := some rx.port, linkLost := none, helloSent := none,
                     peerPcp := m.peerPcp.or (some rx.pcp), peerSerial := serial, peerFw := fieldAt body 40 8, lastRx := s.now, rttUs := min ((s.now - t) / 1000) 65535 }
          (if old = 2 then s else s.logEv evMirrorState uMirror old 2).mirrorTurn
      | _, _ => s)

-- Messages.

/-- MIRROR_PUT (R299, R305). -/
def execMirrorPut (m : MirrorMsg) (s : State) : Host.Outcome State Fault Refusal := .next (s.mirrorReceive 3 m)

/-- MIRROR_DELETE (R299, R305). -/
def execMirrorDelete (m : MirrorMsg) (s : State) : Host.Outcome State Fault Refusal := .next (s.mirrorReceive 4 m)

/-- MIRROR_RANGE (R299, R305). -/
def execMirrorRange (m : MirrorMsg) (s : State) : Host.Outcome State Fault Refusal := .next (s.mirrorReceive 5 m)

/-- MIRROR_ACK (R300). -/
def execMirrorAck (m : MirrorMsg) (s : State) : Host.Outcome State Fault Refusal := .next (s.mirrorReceive 6 m)

/-- HEARTBEAT (R300). -/
def execHeartbeat (m : MirrorMsg) (s : State) : Host.Outcome State Fault Refusal := .next (s.mirrorReceive 7 m)

/-- REPAIR_REQ (R321). -/
def execRepairReq (m : MirrorMsg) (s : State) : Host.Outcome State Fault Refusal := .next (s.mirrorReceive 8 m)

/-- REPAIR_RSP (R321). -/
def execRepairRsp (m : MirrorMsg) (s : State) : Host.Outcome State Fault Refusal := .next (s.mirrorReceive 9 m)

/-- KS_CFG (R312, R313). -/
def execKsCfg (m : MirrorMsg) (s : State) : Host.Outcome State Fault Refusal := .next (s.mirrorReceive 10 m)

/-- SYNC_MARK (R312, R317, R318). -/
def execSyncMark (m : MirrorMsg) (s : State) : Host.Outcome State Fault Refusal := .next (s.mirrorReceive 11 m)

/-- REFUSE (R306). -/
def execRefuse (m : MirrorMsg) (s : State) : Host.Outcome State Fault Refusal := .next (s.mirrorReceive 12 m)

/-- MIRROR_CLOSE (R298, R310): in its turn, once every earlier message is applied, the link ends as at a loss. -/
def execMirrorClose (m : MirrorMsg) (s : State) : Host.Outcome State Fault Refusal := .next (s.mirrorReceive 13 m)

-- Timers.

/-- HEARTBEAT_SEND (R300): 50 ms without a message. While the peer is not connected, and on the alternate port while the port in use
has lost link, a HELLO goes out instead (R297, R301). -/
def execHeartbeatSend (s : State) : Host.Outcome State Fault Refusal :=
  .next (match s.mir.pairing with
    | none => s
    | some pr =>
      if !s.mirrorWorks || s.mir.authFailed then s
      else
        let s := s.mirrorTurn
        let helloDue := s.mir.helloSent.all fun t => s.past t (50 * ms)
        if s.mir.state = 1 || s.mir.state = 3 then (if helloDue && s.mir.unpairAt.isNone then s.sendHello pr.port else s)
        else if s.mir.state = 2 then
          let other := if s.mir.portInUse == some pr.port then pr.alt else some pr.port
          let s := match s.mir.linkLost, other with
            | some _, some p => if helloDue then s.sendHello p else s
            | _, _ => s
          if s.past s.mir.lastTx (50 * ms) then s.mirrorPlain 7 0 [] [] else s
        else s)

/-- MIRROR_RESEND_TIMER (R300). -/
def execMirrorResendTimer (s : State) : Host.Outcome State Fault Refusal :=
  .next (
    if s.mir.state = 2 && s.mirrorWorks && decide (s.mir.lack < s.mir.sentTo) && s.past s.mir.lackAt (s.mir.resendMs * ms) then
      (s.setMir fun m => { m with sentTo := m.lack, lackAt := s.now, resendMs := min 16 (2 * m.resendMs) }).mirrorPump
    else s)

/-- REPAIR_TIMEOUT (R321): after 500 ms the ladder proceeds to step 6. -/
def execRepairTimeout (read : Nat) (s : State) : Host.Outcome State Fault Refusal :=
  .next (match s.flash.reads.find? fun r => r.id == read with
    | some r => if r.peerSince.any fun t => s.past t (500 * ms) then s.readLost r else s
    | none => s)

/-- What a probe of a refused key space sends again: its oldest logged key that is not lost. Where the log holds none the model takes its first
logged range, and of a key space whose entries an overflow dropped its first key (R306, R315; DESIGN CHOICE, log 85). -/
def State.probeItem (s : State) (ks : Nat) : Option MSync :=
  let sends := fun (key : Bytes) => (s.lookup ks key).all fun e => !e.loc.isLost
  match s.mir.log.find? fun e => e.ks == ks && sends e.key, s.mir.logRanges.find? fun r => r.1 == ks with
  | some e, _ => some (.key ks e.key fResync)
  | none, some r => some (.range ks r.2.1 r.2.2)
  | none, none => if s.mir.fullKs.contains ks then ((s.keysOf ks).find? sends).map fun key => .key ks key fResync else none

/-- REFUSED_PROBE (R306): every 60 s the oldest logged key of a refused key space is sent again, its value read first (R303); with nothing to send
nothing happens. A key space whose seed was refused stays solo until the peer is replaced (R320). -/
def execRefusedProbe (ks : Fin 64) (s : State) : Host.Outcome State Fault Refusal :=
  .next (match s.space? ks.val with
    | none => s
    | some k =>
      let due := ((s.mir.probeAt.find? fun p => p.1 == ks.val).map fun p => p.2).all fun t => s.past t (60 * oneSec)
      if k.ksState ≠ 8 || k.refuseStatus = stInvalid || s.mir.state ≠ 2 || !s.mirrorWorks || !due then s
      else
        match s.probeItem ks.val with
        | none => s
        | some i =>
          let (ready, s) := s.itemRead i
          if !ready then s
          else
            let ranges := s.mir.logRanges
            let s := (s.setMir fun m => { m with probeAt := (ks.val, s.now) :: m.probeAt.filter fun p => p.1 != ks.val }).sendItem i
            (s.setMir fun m => { m with logRanges := ranges }).setSpace ks.val fun k => { k with probeLseq := some (s.mir.lseqNext - 1) })

/-- PEER_LOST (R301): no valid message for 500 ms, or the port in use without link for 500 ms. -/
def execPeerLost (s : State) : Host.Outcome State Fault Refusal :=
  .next (
    if (s.mir.state = 1 || s.mir.state = 2) && s.mirrorWorks &&
        (s.past s.mir.lastRx (500 * ms) || s.mir.linkLost.any fun t => s.past t (500 * ms)) then s.peerGone
    else s)

/-- Whether a journal record names a write of a mirrored key space that the peer has not applied, or may not have: the entries of a key space marked for full
resynchronisation were dropped (R315, R316). -/
def State.markBlocks (s : State) (r : JRec) : Bool :=
  let mirrors := fun ks => s.policyAt ks s.mbx.admNext != .off
  match r with
  | .mapSet ks key .. => mirrors ks && (s.mir.fullKs.contains ks || (s.pendingStamp ks key).isSome)
  | .mapDelete ks key _ => mirrors ks && (s.mir.fullKs.contains ks || (s.pendingStamp ks key).isSome)
  | .rangeDiscard _ ks lo hi .. => mirrors ks && (s.mir.fullKs.contains ks || s.mir.logRanges.contains (ks, lo, hi) ||
      s.mir.sendq.any fun m => m.typ == 5 && m.ks == ks && m.key == lo)
  | _ => false

/-- MIRROR_MARK_STORE (R316): every 1 s the mark is stored. -/
def execMirrorMarkStore (s : State) : Host.Outcome State Fault Refusal :=
  .next (
    if s.mir.pairing.isSome && s.serving && s.past s.mir.markAt oneSec then
      let last := s.jrn.jseqNext - 1 - s.jrn.page.length - s.jrn.flying.length
      let mark := ((s.jrn.log.find? fun r => s.markBlocks r.2).map fun r => r.1 - 1).getD last
      s.setMir fun m => { m with mark := some (max (m.mark.getD 0) mark), markAt := s.now }
    else s)

/-- DELTA_RESYNC_START (R317, R318, R313, R320): with the link open, the key-space deletions of the change log are sent, and every key
space out of sync starts its seed, its full or its delta resynchronisation, in ascending order. -/
def execDeltaResyncStart (s : State) : Host.Outcome State Fault Refusal :=
  .next (
    if s.mir.state ≠ 2 || !s.mirrorWorks then s
    else
      let gone := s.mir.fullKs.filter fun ks => (s.space? ks).isNone
      let dels := dedup (s.mir.logDeletes ++ gone)
      let s := dels.foldl (fun s ks => (s.sendCfg ks 2 false .off).1)
        (s.setMir fun m => { m with logDeletes := [], fullKs := m.fullKs.filter fun ks => !gone.contains ks })
      let todo := s.mirrored.filter fun k => k.ksState == 3 && k.cfgLseq.isNone
      (todo.foldl State.startSync s).mirrorTurn)

-- MIRROR_CFG.

/-- The configuration structure of R309, with the bytes that may be non-zero as (first byte, length). -/
def cfgClean (p : Bytes) (used : List (Nat × Nat)) : Bool :=
  p.length == 128 && fieldAt p 0 2 == 1 &&
    (List.range 126).all fun i => used.any (fun u => decide (u.1 ≤ i + 2) && decide (i + 2 < u.1 + u.2)) || p.getD (i + 2) 0 == 0

/-- PAIR past the common checks (R309, R310, R295, R320; a port that is retired is refused, R444); every action that is none of R310 ends here with ST_INVALID. -/
def State.pairCmd (s : State) (c : Cmd) : State :=
  let p := c.payload.getD []
  let port := fieldAt p 2 1
  let alt := fieldAt p 3 1
  let udp := fieldAt p 20 2
  if c.entry.arg 40 1 ≠ 1 || c.entry.ks ≠ 0 || !cfgClean p [(2, 20), (24, 32)] || 1 < port || !(alt == 0xFF || decide (alt ≤ 1)) || alt = port ||
      udp < 1024 || udp = 4791 || udp = s.stored.skiffPort || s.mir.state = 2 then s.fail c stInvalid
  else if !s.portUsable (Fin.ofNat 2 port) || (alt ≠ 0xFF && !s.portUsable (Fin.ofNat 2 alt)) then s.fail c stUnsupported
  else
    let addr := slice p 4 16
    let pr : Pairing := { port := Fin.ofNat 2 port, alt := if alt = 0xFF then none else some (Fin.ofNat 2 alt), addr := addr, udp := udp,
                          secret := slice p 24 32, rank := if s.ident.mac0.toNat < (Config.peerMac addr).toNat then 0 else 1 }
    let s := if s.mir.pairing.isSome then
        (s.setMir fun m => { m with log := [], logRanges := [], logDeletes := [], fullKs := [], mark := none }).setKv fun v =>
          { v with spaces := v.spaces.map fun k => if k.policyNow != .off && k.deletedAt.isNone then { k with ksState := 3, seedDue := true } else k }
      else s
    ((s.setMir fun m => { m with pairing := some pr, unpairAt := none }).openLink).ok c 0 0

/-- PAIR (R310). -/
def execPair (s : State) : Host.Outcome State Fault Refusal :=
  .next (s.runCfg (fun a => !(decide (2 ≤ a) && decide (a ≤ 5))) State.pairCmd)

/-- UNPAIR past the common checks (R310, R311): every policy off at both modules; CLOSE follows once earlier writes are applied. -/
def State.unpairCmd (s : State) (c : Cmd) : State :=
  if c.entry.ks ≠ 0 || !cfgClean (c.payload.getD []) [] || s.mir.pairing.isNone || s.mir.unpairAt.isSome then s.fail c stInvalid
  else
    let on := s.mirrored
    let s := if s.mir.state = 2 then on.foldl (fun s k => (s.sendCfg k.ks 3 k.ordered .off).1) s else s
    let n := if s.mir.state = 2 && !on.isEmpty then s.mir.lseqNext - 1 else 0
    let s := on.foldl (fun s k => (s.pushPolicy k.ks c.adm .off).stopMirroring k.ks) s
    let s := s.setMir fun m => { m with unpairAt := some c.adm, resyncq := [] }
    let s := if n = 0 then s.ok c 0 0 else s.leave c.adm fun c => { c with st := .mirrorWait, lseq := n }
    s.endUnpair

/-- UNPAIR (R310). -/
def execUnpair (s : State) : Host.Outcome State Fault Refusal := .next (s.runCfg (fun a => a == 2) State.unpairCmd)

/-- SET_POLICY past the common checks (R310-R312): it completes once the peer has recorded it. -/
def State.setPolicyCmd (s : State) (c : Cmd) : State :=
  let p := c.payload.getD []
  if !cfgClean p [(56, 1)] || 2 < fieldAt p 56 1 then s.fail c stInvalid
  else
    match s.spaceOf c with
    | none => s.fail c stKsUnknown
    | some k =>
      if s.mir.state ≠ 2 || s.mir.unpairAt.isSome then s.fail c stPeerUnreachable
      else
        let pol := policyOf (fieldAt p 56 1)
        let fresh := k.policyNow == .off && pol != .off
        let (s, n) := s.sendCfg k.ks 3 k.ordered pol
        let s := if fresh then s.setSpace k.ks fun k => { k with cfgLseq := some n } else s
        s.leave c.adm fun c => { c with st := .mirrorWait, lseq := n }

/-- SET_POLICY (R312). -/
def execSetPolicy (s : State) : Host.Outcome State Fault Refusal := .next (s.runCfg (fun a => a == 3) State.setPolicyCmd)

/-- SET_LAG past the common checks (R304, R310). -/
def State.setLagCmd (s : State) (c : Cmd) : State :=
  let p := c.payload.getD []
  let b := fieldAt p 64 8
  let t := fieldAt p 72 4
  if !cfgClean p [(64, 12)] then s.fail c stInvalid
  else if (s.spaceOf c).isNone then s.fail c stKsUnknown
  else if b < 1048576 || 1073741824 < b || t < 100 || 60000 < t then s.fail c stInvalid
  else (s.setSpaces (inSpace c.entry.ks c.adm) fun k => { k with lagBytes := b, lagMs := t }).ok c 0 0

/-- SET_LAG (R304). -/
def execSetLag (s : State) : Host.Outcome State Fault Refusal := .next (s.runCfg (fun a => a == 4) State.setLagCmd)

/-- RESYNC past the common checks (R310, R318). -/
def State.resyncCmd (s : State) (c : Cmd) : State :=
  let p := c.payload.getD []
  let src := fieldAt p 56 1
  let all := fieldAt p 57 1
  if !cfgClean p [(56, 2)] || 1 < src || 1 < all || (all = 1 && c.entry.ks ≠ 0) then s.fail c stInvalid
  else if s.mir.state ≠ 2 || s.mir.unpairAt.isSome then s.fail c stPeerUnreachable
  else if src = 1 && roRefuses s.kv.roReason 0x01 then s.fail c stReadOnly
  else
    let l := s.mirrored.filter fun k => !k.hidden && (all = 1 || k.ks == c.entry.ks)
    if l.isEmpty && all = 0 then s.fail c (if (s.spaceOf c).isNone then stKsUnknown else stInvalid)
    else
      let s := l.foldl (fun s k => if src = 0 then s.startFull k.ks else s.askFull k.ks 2) s
      (s.ok c 0 0).mirrorTurn

/-- RESYNC (R318). -/
def execResync (s : State) : Host.Outcome State Fault Refusal := .next (s.runCfg (fun a => a == 5) State.resyncCmd)

-- MIRROR_STATE.

/-- One key-space entry (R324). -/
def State.mirrorEntry (s : State) (ks : Nat) : Bytes :=
  match s.kv.spaces.find? fun k => k.ks == ks && k.deletedAt.isNone && !k.hidden with
  | none => fit 32 [0xFF]
  | some k =>
    let (b, t) := s.lag ks
    let age := match t with
      | some t => (s.now - t) / ms
      | none => 0
    let st := if k.ksState = 1 && k.policyNow == .async && (decide (k.lagBytes < b) || decide (k.lagMs < age)) then 2 else k.ksState
    le 1 k.policyNow.code ++ le 1 st ++ le 2 k.refuseStatus.toNat ++ le 4 (min age (2 ^ 32 - 1)) ++ le 8 b ++ le 8 k.syncDone ++ le 8 k.syncTotal

/-- The Mirror state structure (R323). -/
def State.mirrorStruct (s : State) : Bytes :=
  let m := s.mir
  match m.pairing with
  | none => fit 2112 (fit 40 (le 2 1 ++ le 1 0) ++ le 4 16777216)
  | some p =>
    let head := le 2 1 ++ le 1 m.state ++ le 1 p.rank ++ le 1 ((m.portInUse.map fun x => x.val).getD 0xFF) ++ le 1 0 ++ le 2 m.rttUs ++ fit 16 p.addr ++
      le 8 m.peerFw ++ le 4 (min ((s.now - m.stateAt) / ms) (2 ^ 32 - 1)) ++ le 4 (m.log.length + m.logRanges.length + m.logDeletes.length) ++
      le 4 16777216 ++ le 1 (b2n m.overflow) ++ le 3 0 ++ le 8 m.stamp ++ le 4 m.conflicts ++ le 4 0
    fit 64 head ++ (List.range 64).flatMap fun ks => s.mirrorEntry ks

/-- MIRROR_STATE past the common checks (R323). -/
def State.mirrorStateCmd (s : State) (c : Cmd) : State :=
  if c.respRoom < 2112 then s.complete c stBufferShort 2112 0 [] else s.complete c stOk 2112 0 s.mirrorStruct

/-- MIRROR_STATE (R323). -/
def execMirrorState (s : State) : Host.Outcome State Fault Refusal := .next (s.runSup 0x41 State.mirrorStateCmd)

end Sys2Proof.Machine
end

