-- ==== Sys2Proof/Machine/Recorder.lean ====
section
/-! DEFINITION. The event recorder: copies to flash, the Lens window, clearing, its own memory faults (13 R410-R424, R429). -/

namespace Sys2Proof.Machine

/-- The records held, oldest first: the flash ring, then what the on-die ring holds beyond it (R415, R416). -/
def Recorder.held (r : Recorder) : List EvRec :=
  match r.flash.getLast? with
  | none => r.ring
  | some l => r.flash ++ r.ring.filter fun e => decide (l.seq < e.seq)

/-- The record of a number, if it is held. -/
def Recorder.at_ (r : Recorder) (n : Nat) : Option EvRec := r.held.find? fun e => e.seq == n

/-- Records not yet copied to flash. -/
def Recorder.uncopied (r : Recorder) : List EvRec := r.ring.filter fun e => decide (r.copied ≤ e.seq)

/-- The flash ring keeps 262,144 records; it loses its oldest page of 512 when it is full (R416). -/
def keepFlash (l : List EvRec) : List EvRec :=
  if l.length ≤ 262144 then l else l.drop (alignTo 512 (l.length - 262144))

/-- The flash ring has overwritten records up to the cursor (R422). -/
def Recorder.moveCursor (r : Recorder) : Recorder :=
  if r.cursor < r.oldest then
    { r with cursor := r.oldest, skipped := BitVec.ofNat 32 (satAdd 32 r.skipped.toNat (r.oldest - r.cursor)), cursorLost := true,
             intStatus := r.intStatus ||| 4 }
  else r

/-- Copy every uncopied record to the flash ring; the open record closes (R414, R416). -/
def Recorder.copy (r : Recorder) : Recorder :=
  if !r.flashOk then r
  else
    let new := r.uncopied
    let r := { r with flash := keepFlash (r.flash ++ new), copied := r.next, uncopiedAt := none, openRec := false }
    { r with ring := if r.ondieOk then r.ring else [] }.moveCursor

/-- The flash programs of a copy that the model makes within one row, in both copies, under their class 0 grant (R209, R253, R279). -/
def State.copyEvents (s : State) : State :=
  let n := s.evr.uncopied.length
  if s.evr.flashOk && decide (n ≠ 0) then s.under 12 .evrCopy fun s => (s.copyHouse 7 (32 * n) 16).metaProgram (32768 * ((n + 511) / 512)) else s

/-- The copy that ends a boot epoch: its last page is the final page (R417). -/
def State.finalCopy (s : State) : State := (s.copyEvents).setEvr fun r => { r.copy with finalPage := r.flashOk }

/-- Whether a copy to the flash ring is due: 512 uncopied records, or 10 s since the oldest of them started (R416). -/
def State.evrCopyDue (s : State) : Bool :=
  s.evr.on && s.evr.flashOk && (decide (512 ≤ s.evr.uncopied.length) || s.evr.uncopiedAt.any fun t => s.past t (10 * oneSec))

/-- EVR_FLASH_COPY (R416): a copy that is due asks the flush-class tokens of both copies' page programs, and is made when they are held
(R209, R211). -/
def execEvrFlashCopy (s : State) : Host.Outcome State Fault Refusal :=
  .next (
    if !s.evrCopyDue then s
    else if (s.grantFor .evrCopy).isSome then
      let n := s.evr.uncopied.length
      (((s.copyHouse 7 (32 * n) 16).returnFor .evrCopy).metaProgram (32768 * ((n + 511) / 512))).setEvr Recorder.copy
    else if s.pwr.queue.any fun q => q.why == .evrCopy then s
    else s.askTokens 0 12 .evrCopy)

-- The Lens window.

/-- Start a fill: the window reads as zero until it ends (R420). -/
def Recorder.startFill (r : Recorder) : Recorder := { r with filling := true, ready := false, window := List.replicate 128 none }

/-- EVR_CURSOR_HI_WRITE (R421): both words take effect as one, held within the records there are. -/
def execEvrCursorHiWrite (v : Word) (s : State) : Host.Outcome State Fault Refusal :=
  .next (s.setEvr fun r =>
    let n := v.toNat * 2 ^ 32 + r.cursorLo.toNat
    { r with cursor := if n < r.oldest then r.oldest else if r.next < n then r.next else n, cursorLost := false }.startFill)

/-- EVR_CTRL.advance (R421). -/
def execEvrAdvance (s : State) : Host.Outcome State Fault Refusal :=
  .next (s.setEvr fun r => { r with cursor := r.cursor + min 128 (r.next - r.cursor) }.startFill)

/-- EVR_CTRL.refresh (R420). -/
def execEvrRefresh (s : State) : Host.Outcome State Fault Refusal := .next (s.setEvr Recorder.startFill)

/-- EVR_CTRL.to_oldest (R421). -/
def execEvrToOldest (s : State) : Host.Outcome State Fault Refusal :=
  .next (s.setEvr fun r => { r with cursor := r.oldest }.startFill)

/-- EVR_CTRL.to_newest (R421). -/
def execEvrToNewest (s : State) : Host.Outcome State Fault Refusal :=
  .next (s.setEvr fun r => { r with cursor := max r.oldest (r.next - 128) }.startFill)

/-- LENS_FILL_DONE (R420): slot i shows record cursor + i where it is held. -/
def execLensFillDone (s : State) : Host.Outcome State Fault Refusal :=
  .next (s.setEvr fun r =>
    if r.filling then { r with filling := false, ready := true, window := (List.range 128).map fun i => r.at_ (r.cursor + i) } else r)

/-- Clear log 1: both rings are emptied, the numbers go on, and EV_LOG_CLEARED is the first record after it (R419). -/
def State.clearLog1 (s : State) : State :=
  let n := s.evr.held.length
  (s.setEvr fun r => { r with ring := [], flash := [], copied := r.next, uncopiedAt := none, openRec := false }).logEv
    evLogCleared uEvr 1 (min n (2 ^ 32 - 1))

/-- EVR_CTRL.clear (R419). -/
def execEvrClear (s : State) : Host.Outcome State Fault Refusal := .next s.clearLog1

/-- EVR_SKIPPED_READ (R429): the count is returned and cleared. -/
def execEvrSkippedRead (s : State) : Host.Outcome State Fault Refusal :=
  .next ((s.setEvr fun r => { r with skipped := 0 }).setSb fun b => { b with data := [s.evr.skipped] })

/-- Newest sequence number: that of the last record started (R429). -/
def Recorder.newest (r : Recorder) : Nat := r.next - 1

/-- EVR_NEWEST_LO_READ (R429): the high word is latched with it. -/
def execEvrNewestLoRead (s : State) : Host.Outcome State Fault Refusal :=
  .next ((s.setEvr fun r => { r with newestHi := BitVec.ofNat 32 (r.newest / 2 ^ 32) }).setSb fun b =>
    { b with data := [BitVec.ofNat 32 s.evr.newest] })

/-- EVR_OLDEST_LO_READ (R429): the high word is latched with it. -/
def execEvrOldestLoRead (s : State) : Host.Outcome State Fault Refusal :=
  .next ((s.setEvr fun r => { r with oldestHi := BitVec.ofNat 32 (r.oldest / 2 ^ 32) }).setSb fun b =>
    { b with data := [BitVec.ofNat 32 s.evr.oldest] })

-- Memory faults.

/-- EVR_MEM_FAULT (R424): an on-die bank is retired with the records of it not yet copied, the ring failed below 4 banks; or the
flash ring is failed. -/
def execEvrMemFault (flashRing : Bool) (bank : Nat) (s : State) : Host.Outcome State Fault Refusal :=
  .next (
    let r := s.evr
    if flashRing then
      if !r.flashOk then s
      else
        let s := s.setEvr fun r => { r with flashOk := false, flash := [], intStatus := r.intStatus ||| 2, ring := if r.ondieOk then r.ring else [] }
        s.logEv evEvrMemFault uEvr 1 0
    else if !r.ondieOk || r.banks ≤ bank then s
    else
      let inBank := fun (e : EvRec) => e.seq / 64 % r.banks == bank
      let lost := (r.uncopied.filter inBank).length
      let s := s.setEvr fun r => { r with banks := r.banks - 1, ring := r.ring.filter (fun e => !inBank e), openRec := false, intStatus := r.intStatus ||| 2 }
      let s := if s.evr.banks < 4 then (s.copyEvents).setEvr fun r => { { r with ondieOk := false }.copy with ring := [] } else s
      s.logEv evEvrMemFault uEvr 0 lost)

end Sys2Proof.Machine
end

