-- ==== Sys2Proof/Machine/Ports.lean ====
section
/-! DEFINITION. The Ethernet ports (10 R326-R350, R357): links and rates, receive cells and lossless classes, pause and priority flow
control, transmit selection, time-aware gates, statistics. -/

namespace Sys2Proof.Machine

-- Statistics.

/-- Add to a counter: 32 bits, rolling over; crossing half range sets its half bit (R357). -/
def Port.count (q : Port) (i n : Nat) : Port :=
  let old := q.stats.getD i 0
  let new := (old + n) % 2 ^ 32
  { q with stats := modAt q.stats i fun _ => new
           half := if old < 2 ^ 31 && 2 ^ 31 ≤ new then q.half ||| BitVec.ofNat 44 (2 ^ i) else q.half }

/-- Add octets to an octet counter that counts whole 64-byte units (R357). -/
def Port.rxOctets (q : Port) (n : Nat) : Port :=
  let t := q.rxOctetRem + n
  { q with rxOctetRem := t % 64 }.count 1 (t / 64)

/-- The same for octets sent. -/
def Port.txOctets (q : Port) (n : Nat) : Port :=
  let t := q.txOctetRem + n
  { q with txOctetRem := t % 64 }.count 29 (t / 64)

-- Rates.

/-- Line rate of a rate code, bit/s (R326, R327). -/
def rateBps (r : Nat) : Nat := match r with | 0 => 1000000000 | 1 => 2500000000 | 2 => 5000000000 | _ => 10000000000

/-- One bit time of a rate code in 0.1 ns. -/
def bitTime (r : Nat) : Nat := match r with | 0 => 10 | 1 => 4 | 2 => 2 | _ => 1

/-- Rates both ends advertise, those dropped after training failures aside, highest first (R327, R358). -/
def State.commonRates (s : State) (p : Fin 2) : List Nat :=
  let q := s.port p
  [3, 2, 1, 0].filter fun r => (s.portCfg p).phy.getLsbD r && q.partnerAdv.getLsbD r && !q.dropped.getLsbD r

/-- Whether the standing grant of a rate is free (R210, R327); in PS1 to PS4 the tokens of PS0 count, to which a link change wakes (R233). -/
def State.grantFree (s : State) (p : Fin 2) (r : Nat) : Bool := decide ((phyTokens r : Int) - (s.port p).phyGrant ≤ s.freeAwake)

/-- The highest rate of a set whose added grant is free and that the port may train at now: one that it advertises and that has not been dropped
after training failures, within what a step-down advertises; 1000BASE-T alone in PS4 (R210, R234, R327, R333). -/
def State.bestRate (s : State) (p : Fin 2) (among : Nat → Bool) : Option Nat :=
  [3, 2, 1, 0].find? fun r => among r && (s.portCfg p).phy.getLsbD r && !(s.port p).dropped.getLsbD r && (s.pwr.ps != 4 || r == 0) &&
    ((s.port p).capRate.all fun c => decide (r ≤ c)) && s.grantFree p r

/-- The highest rate a port can train at now, its partner's still unknown (R210, R327). -/
def State.trainRate (s : State) (p : Fin 2) : Option Nat := s.bestRate p fun _ => true

/-- PHY standing grant of a port without link: 8, 0 where it is absent or retired (R210, R444). -/
def State.idleGrant (s : State) (p : Fin 2) : Nat := if s.portUsable p && !s.shutting then 8 else 0

/-- Change a PHY grant, with the token ledger (R210, R34). -/
def State.setPhyGrant (s : State) (p : Fin 2) (n : Nat) : State := ((s.setPort p fun q => { q with phyGrant := n }).settleTokens).arbitrate

/-- A port trains: it holds the grant of the rate it trains at (R210). A port that has lost its link trains again at once, until LINK_UP, or a
LINK_DOWN that says it finds no partner (log 50). -/
def State.train (s : State) (p : Fin 2) : State :=
  let s := s.setPort p fun q => { q with training := true }
  s.setPhyGrant p (((s.trainRate p).map phyTokens).getD (s.idleGrant p))

/-- The ports that train take the rate they may now (R210). -/
def State.retrain (s : State) : State :=
  let s := if (s.port 0).training then s.train 0 else s
  if (s.port 1).training then s.train 1 else s

/-- Tokens have freed up: a port that trains takes a higher rate than the one whose grant it holds (R210). -/
def State.raisePort (s : State) (p : Fin 2) : State :=
  if (s.port p).training && decide ((s.port p).phyGrant < ((s.trainRate p).map phyTokens).getD 0) then s.train p else s

/-- The queue pairs of a port fetch again once it is linked (R32, R154, R155). -/
def State.resumePort (s : State) (p : Fin 2) : State :=
  (s.tr.qps.filter fun q => q.rx.port == p && q.st == .opened).foldl (fun s q => (s.fetchMore 128 q.uid).pumpPay (.ferry q.uid)) s

/-- A port loses the time transmitters it heard; the PTP clock, where it used the port, holds over (R352). -/
def State.ptpPortGone (s : State) (p : Fin 2) : State :=
  let src := s.ptp.cfg.toNat % 8
  let uses := (src == 1 && p == 0) || (src == 2 && p == 1) || (src == 3 && s.ptp.port == decide (p.val = 1))
  let s := s.setPtp fun t => { t with masters := t.masters.filter fun m => m.port != p }
  if uses && (s.ptp.lastSample ≠ 0 || s.ptp.locked) then s.setPtp fun t => { t with holdover := true, goodSamples := 0 } else s

/-- The link of a port goes down (R329, R301, R352). -/
def State.dropLink (s : State) (p : Fin 2) : State :=
  if !(s.port p).link then s
  else
    let s := s.setPort p fun q =>
      { q with link := false, rate := 0, eee := false, txLpi := false, stepped := false, training := false, trainFails := [], dropped := 0, upSince := none, capRate := none,
               tx := q.tx.map fun c => { c with pausedUntil := none } }
    let s := (s.macInt p 0).logEv evLink (uMac p) p.val 0xFF
    let s := s.setMir fun m => if m.state = 2 && m.portInUse == some p && m.linkLost.isNone then { m with linkLost := some s.now } else m
    (s.ptpPortGone p).setPhyGrant p (s.idleGrant p)

/-- Remaining link-down budget of a port, ms (R332, R335): the last 30 days of powered time. -/
def State.stepBudgetMs (s : State) (p : Fin 2) : Int :=
  let spent := sumBy ((s.port p).spends.filter fun x => decide (s.now < x.1 + 2592000 * oneSec)) fun x => x.2
  (1000 * ((s.portCfg p).step1.toNat % 65536) : Int) - spent

/-- Drop a link to renegotiate it, up to a rate where it steps down (R333, R334); LINK_UP ends it. -/
def State.startNego (s : State) (p : Fin 2) (cause : Nat) (cap : Option Nat) : State :=
  let old := (s.port p).rate.val
  ((s.dropLink p).setPort p fun q => { q with nego := some (old, cause, s.now), capRate := cap }).train p

/-- The rate a step-up of a port would reach: the highest one both ends advertise whose grant is free (R334). -/
def State.upTarget (s : State) (p : Fin 2) : Option Nat :=
  (s.commonRates p).find? fun r => decide ((s.port p).rate.val < r) && s.grantFree p r

/-- Whether a link may come up on a port: at the highest rate that both ends advertise and whose grant is free (R327, R333, R334). -/
def State.linkOk (s : State) (p : Fin 2) (l : LinkInfo) : Bool :=
  s.portUsable p && !(s.port p).link && !s.shutting && s.life.mainOn && s.bestRate p (fun r => l.partnerAdv.getLsbD r) == some l.rate.val

/-- A renegotiation ends: EV_RATE_CHANGE and, but for an exit from PS4, its charge; after that exit P1 follows P0 (R334, R335). -/
def State.endNego (s : State) (p : Fin 2) : State :=
  match (s.port p).nego with
  | none => s
  | some (old, cause, t) =>
    let down := (s.now - t) / ms
    let s := s.setPort p fun q =>
      { q with nego := none, spends := if cause = 5 then q.spends else (s.now, down) :: q.spends }
    let s := (s.macInt p 1).logEv evRateChange (uMac p) (p.val + 256 * old + 65536 * (s.port p).rate.val + 2 ^ 24 * cause) down
    if cause = 5 && p = 0 && (s.port 1).link && (s.upTarget 1).isSome then s.startNego 1 5 none else s

/-- LINK_UP (R327, R210, R233): the port is linked at the highest common rate whose grant is free; another rate than that of its last link is a rate change
(R333). The link that ends the
renegotiation of PS4's entry is no wake event, since PS4 would end with it (DESIGN CHOICE, log 51); every other one is. -/
def execLinkUp (port : Fin 2) (l : LinkInfo) (s : State) : Host.Outcome State Fault Refusal :=
  .next (
    if !s.linkOk port l then s
    else
      let s := if (s.port port).ps4Nego then s else s.wake
      let s := s.setPort port fun q =>
        { q with link := true, rate := l.rate, eee := l.eee && (s.portCfg port).phy.getLsbD 4, training := false, partnerAdv := l.partnerAdv,
                 trainFails := [], upSince := some s.now, txIdleSince := s.now, ps4Nego := false, capRate := none, lastRate := some l.rate
                 lastChange := if q.lastRate.all (fun r => r == l.rate) then q.lastChange else some s.now }
      let s := s.setPort port fun q => { q with stepped := (s.commonRates port).any fun r => decide (l.rate.val < r) }
      let s := (s.macInt port 0).logEv evLink (uMac port) (port.val + 256) l.rate.val
      let s := s.setMir fun m => if m.portInUse == some port then { m with linkLost := none } else m
      ((s.setPhyGrant port (phyTokens l.rate.val)).endNego port).resumePort port)

/-- A port that trains finds no partner any more. -/
def State.stopTraining (s : State) (p : Fin 2) : State :=
  if (s.port p).training then (s.setPort p fun q => { q with training := false }).setPhyGrant p (s.idleGrant p) else s

/-- LINK_DOWN (R210, R329, R233): a port that loses its link trains again, holding the grant of the rate it trains at; a port that trains finds no
partner. -/
def execLinkDown (port : Fin 2) (s : State) : Host.Outcome State Fault Refusal :=
  .next (if (s.port port).link then ((s.dropLink port).train port).wake else (s.stopTraining port).wake)

/-- TRAINING_FAILURE (R327): after three in a row at one rate the port no longer advertises it until its next link loss. -/
def execTrainingFailure (port : Fin 2) (rate : Fin 4) (s : State) : Host.Outcome State Fault Refusal :=
  .next (
    if !s.portUsable port || (s.port port).link then s
    else
      let n := (((s.port port).trainFails.find? fun f => f.1 == rate.val).map fun f => f.2).getD 0 + 1
      if n < 3 then (s.setPort port fun q => { q with trainFails := [(rate.val, n)] }).train port
      else
        let s := (s.setPort port fun q => { q with trainFails := [], dropped := q.dropped ||| BitVec.ofNat 4 (2 ^ rate.val) }).train port
        let left := [3, 2, 1, 0].filter fun r => (s.portCfg port).phy.getLsbD r && !(s.port port).dropped.getLsbD r
        s.logEv evPortDownshift (uMac port) (port.val + 256 * rate.val) (left.headD 0))

/-- FAST_RETRAIN (R327): the link stays up. -/
def execFastRetrain (port : Fin 2) (s : State) : Host.Outcome State Fault Refusal :=
  .next (
    if (s.port port).link && (s.port port).rate ≠ 0 then
      (s.setPort port fun q => q.count 43 1).logEv evPortRetrain (uMac port) port.val 0
    else s)

-- Lossless classes.

/-- Headroom cells of a lossless class (R341). -/
def headroomOf (cable : Nat) : Nat := ceilDiv (46472 + 25 * cable) 168 + 1

/-- Flow-control mode of a port (R341, R358). -/
def PortCfg.fcMode (c : PortCfg) : Nat := c.fc.toNat % 4

/-- Priorities that are lossless, ascending; one class stands for all in mode 1 (R341). -/
def PortCfg.lossless (c : PortCfg) : List Nat :=
  match c.fcMode with
  | 1 => [0]
  | 2 => (List.range 8).filter fun i => c.fc.getLsbD (4 + i)
  | _ => []

/-- Headroom of each lossless class of a port. -/
def PortCfg.headroom (c : PortCfg) : Nat := headroomOf (c.fc.toNat / 4096 % 128)

/-- Shared receive cells (R342). -/
def PortCfg.sharedCells (c : PortCfg) : Nat := 768 - c.lossless.length * c.headroom

/-- Classes of a pause frame the module sends (R342): link pause, or PFC naming the lossless priorities. -/
def PortCfg.pauseOf (c : PortCfg) (quanta : BitVec 16) : PauseFrame :=
  if c.fcMode = 1 then .link quanta
  else .pfc (c.lossless.foldl (fun (b : BitVec 8) i => b ||| BitVec.ofNat 8 (2 ^ i)) 0) ((List.range 8).map fun i => if c.lossless.contains i then quanta else 0)

/-- Send XOFF once the free shared cells are 32 or fewer (R342, R343). -/
def State.checkXoff (s : State) (p : Fin 2) : State :=
  let c := s.portCfg p
  if (s.port p).rxShared ≤ 32 && !(s.port p).xoff && !c.lossless.isEmpty && c.fc.getLsbD 3 then
    s.setPort p fun q => { q with xoff := true, xoffAt := s.now, macCtl := some (c.pauseOf 0xFFFF) }
  else s

/-- Release the cells of the frames that the engines have consumed (R339, R342). -/
def Port.consumeRx (q : Port) : Port :=
  let shared := sumBy q.rx fun r => r.shared
  let used := sumBy q.rx fun r => r.shared + r.headroom
  { q with rx := [], rxShared := q.rxShared + shared, rxFree := q.rxFree + used, rxInUse := q.rxInUse - used
           rxHead := ((List.range q.rxHead.length).zip q.rxHead).map fun x =>
             x.2 + sumBy (q.rx.filter fun r => r.cls == some x.1) fun r => r.headroom }

-- Port reset.

/-- A port reset (R331, R433): the link drops, buffered frames and timestamps are discarded, the cell ledgers re-derived, queue pairs of the
port end, those included that the module has halted (R162, R164); a budget-change instant ends it (R40, R208). -/
def State.portReset (s : State) (p : Fin 2) : State :=
  let s := s.dropLink p
  let c := s.portCfg p
  let gone := sumBy (s.port p).tx (fun t => t.queue.length) + (s.port p).txWait.length + b2n (s.port p).line.isSome
  let s := s.setPort p fun q =>
    { q.count 41 gone with
      rx := [], rxFree := 768, rxInUse := 0, rxShared := c.sharedCells, rxHead := c.lossless.map (fun _ => c.headroom), xoff := false, cfgReject := false
      tx := List.replicate 8 {}, txFree := 384, txInUse := 0, txShared := 96, txWait := [], line := none, macCtl := none, txLpi := false
      training := false, stepped := false, capRate := none, tasCfgError := false, intStatus := 0, intEnable := 0, half := 0, halfEn := 0 }
  let s := s.setPtp fun t => { t with q := ((List.range 4).zip t.q).map fun x =>
    if x.1 / 2 = p.val then { x.2 with entries := [], gap := none } else x.2 }
  let s := (s.tr.qps.filter fun x => x.rx.port == p && (x.st == .opened || x.st == .ended true)).foldl (fun s x => s.endConnection x.uid false) s
  if s.life.mainOn && !s.shutting then s.resetEnds else s

/-- Retire a port (R442, R444). -/
def State.retirePort (s : State) (p : Fin 2) : State :=
  ((s.setPort p fun q => { q with retired := true, training := false }).logEv evPortRetire (uMac p) p.val 0).setPhyGrant p 0

/-- A port reset during a service reset is reported with it (R466). -/
def State.markSvcPort (s : State) (p : Fin 2) : State :=
  s.setLife fun l => { l with svcPort := if l.svc.isSome then l.svcPort ||| BitVec.ofNat 2 (2 ^ p.val) else l.svcPort }

/-- PORT_RESET (R331, R442): the third reset in a row whose PHY self-test fails retires the port. -/
def execPortReset (port : Fin 2) (selfTestOk : Bool) (s : State) : Host.Outcome State Fault Refusal :=
  .next (
    if !s.portUsable port || !s.life.mainOn then s
    else
      let s := (s.portReset port).setPort port fun q => { q with resetFails := if selfTestOk then 0 else q.resetFails + 1 }
      let s := (if selfTestOk then s.train port else s).markSvcPort port
      if 3 ≤ (s.port port).resetFails then s.retirePort port else s)

/-- STAT_SNAP (R357). -/
def execStatSnap (port : Fin 2) (s : State) : Host.Outcome State Fault Refusal := .next (s.setPort port fun q => { q with snap := q.stats })

/-- MACN_FC_CFG_WRITE (R341, R358): mode 3 and a cable length outside 1 to 100 are ignored, more than two lossless priorities refused; an
accepted write is stored and starts a port reset. -/
def execMacnFcCfgWrite (port : Fin 2) (v : Word) (s : State) : Host.Outcome State Fault Refusal :=
  .next (
    let cable := v.toNat / 4096 % 128
    let pri := ((List.range 8).filter fun i => v.getLsbD (4 + i)).length
    if !s.portUsable port || v.toNat % 4 = 3 || cable < 1 || 100 < cable then s
    else if v.toNat % 4 = 2 && 2 < pri then s.setPort port fun q => { q with cfgReject := true }
    else ((s.setStored fun c => { c with ports := modAt c.ports port.val fun x => { x with fc := v.setWidth 19 } }).portReset port).train port)

-- Rate changes.

/-- RENEGOTIATE (R334, R335): MACn_CTRL.renegotiate steps a linked port up; LINK_UP ends it with the charge. -/
def execRenegotiate (port : Fin 2) (s : State) : Host.Outcome State Fault Refusal :=
  .next (if s.portUsable port && (s.port port).link && (s.upTarget port).isSome then s.startNego port 4 none else s)

/-- Why a port steps up now: 2 traffic, 3 credit starvation (R334). -/
def State.upCause (s : State) (p : Fin 2) : Option Nat :=
  let q := s.port p
  let high := (s.portCfg p).step1.toNat / 65536 % 256
  if !q.link || (s.upTarget p).isNone then none
  else if 3 ≤ q.samples.length && (q.samples.take 3).all fun x => decide (high * rateBps q.rate.val < 100 * x) then some 2
  else if 3 ≤ q.starved then some 3
  else none

/-- The rate a step-down of a port would reach: the lowest one at or above its floor and below its rate that both ends advertise, and below
whose low share every sample of the dwell lies (R333). -/
def State.downTarget (s : State) (p : Fin 2) : Option Nat :=
  let q := s.port p
  let w := (s.portCfg p).step0.toNat
  let dwell := w / 65536 % 65536
  let quiet := fun r => decide (dwell ≤ q.samples.length) && (q.samples.take dwell).all fun x => decide (100 * x < w / 256 % 256 * rateBps r)
  (s.commonRates p).reverse.find? fun r => decide (w / 4 % 4 ≤ r) && decide (r < q.rate.val) && quiet r

/-- Whether a queue pair is bound to its port: until its number is free (R333, R162). -/
def Qp.bound (q : Qp) : Bool := match q.st with
  | .freed _ => false
  | _ => true

/-- Whether a port steps down now (R333). -/
def State.stepsDown (s : State) (p : Fin 2) : Bool :=
  let q := s.port p
  let o := s.port (1 - p)
  let w := (s.portCfg p).step0.toNat
  let dwell := w / 65536 % 65536
  let otherUp := o.link && o.nego.isNone && o.upSince.any fun t => decide (t + dwell * oneSec ≤ s.now)
  let named := s.mir.pairing.any fun pr => pr.port == p || pr.alt == some p
  w % 2 = 1 && q.link && decide (w / 4 % 4 < q.rate.val) && (s.downTarget p).isSome &&
    (w / 2 % 2 = 0 || otherUp) && !named && !(s.tr.qps.any fun x => x.rx.port == p && x.bound) &&
    decide (3000 ≤ s.stepBudgetMs p) && q.lastChange.all fun t => decide (t + dwell * oneSec ≤ s.now)

/-- Note one second of traffic on a port. -/
def Port.sample (q : Port) (t : TrafficSample) : Port :=
  { q with samples := (max t.rxBps t.txBps :: q.samples).take 65535, starved := if t.starved then q.starved + 1 else 0 }

/-- TRAFFIC_SAMPLE (R332-R334): one second of traffic, sampled once per second; at most one port renegotiates at a
time, P0 first. -/
def execTrafficSample (s0 s1 : TrafficSample) (s : State) : Host.Outcome State Fault Refusal :=
  .next (
    if !((s.port 0).sampledAt.all fun t => s.past t oneSec) then s
    else
    let s := (s.setPort 0 fun q => { q.sample s0 with sampledAt := some s.now }).setPort 1 fun q => { q.sample s1 with sampledAt := some s.now }
    if s.ports.any fun q => q.nego.isSome then s
    else match [0, 1].find? fun (p : Fin 2) => s.portUsable p && (s.upCause p).isSome with
    | some p => (s.startNego p ((s.upCause p).getD 2) none).setPort p fun q => { q with starved := 0 }
    | none =>
      if s.portUsable 0 && s.stepsDown 0 then s.startNego 0 1 (s.downTarget 0)
      else if s.portUsable 1 && s.stepsDown 1 then s.startNego 1 1 (s.downTarget 1)
      else s)

-- Receiving.

/-- MAC address of a port (R113). -/
def State.macOf (s : State) (p : Fin 2) : BitVec 48 := if p = 0 then s.ident.mac0 else s.ident.mac1

/-- The solicited-node MAC address for the low 24 bits of an IPv6 address. -/
def solicited (low24 : Nat) : BitVec 48 := BitVec.ofNat 48 (0x3333FF * 2 ^ 24 + low24 % 2 ^ 24)

/-- Whether a port accepts a destination address (R336). The own IPv6 addresses are the configured one and the link-local one formed from
the MAC address. -/
def State.acceptsDst (s : State) (p : Fin 2) (d : BitVec 48) : Bool :=
  let cfg := (s.portCfg p).ipv6
  let last3 := slice (le 8 cfg.2.toNat) 5 3
  d == s.macOf p || d == 0xFFFFFFFFFFFF || d == 0x333300000001 || d == solicited (s.macOf p).toNat ||
    (!(cfg.1 == 0 && cfg.2 == 0) && d == solicited (unBe last3)) || d == 0x011B19000000 || d == 0x0180C200000E || d == 0x0180C2000001

/-- Size bin of a received frame (R357). -/
def rxBin (n : Nat) : Nat :=
  if n ≤ 64 then 7 else if n ≤ 127 then 8 else if n ≤ 255 then 9 else if n ≤ 511 then 10 else if n ≤ 1023 then 11 else if n ≤ 1518 then 12 else 13

/-- Counters of a good frame (R357). -/
def Port.goodRx (q : Port) (f : RxFrame) : Port :=
  let k := if f.dst == 0xFFFFFFFFFFFF then 4 else if f.dst.getLsbD 40 then 3 else 2
  (((q.count 0 1).rxOctets f.len).count k 1).count (rxBin f.len) 1

/-- Whether a received frame passes the VLAN rules (R337). -/
def PortCfg.vlanOk (c : PortCfg) (tags : List VlanTag) : Bool :=
  let tagged := c.vlan.getLsbD 12
  match tags with
  | [] => !tagged
  | [t] => t.tpid == 0x8100 && (if tagged then t.vid == c.vlan.setWidth 12 else t.vid == 0)
  | _ => false

/-- Whether a unit of the module serves a protocol (R8, R336). -/
def State.served (s : State) (f : RxProto) : Bool :=
  match f with
  | .udp d => s.skiffUdp d || (s.part.ta && (d == 4791 || d == (s.mir.pairing.map fun p => p.udp).getD 47181)) || d == 319 || d == 320
  | .roce _ => s.part.ta
  | .unknown => false
  | _ => true

/-- Store a good frame in receive cells, with its receive class: MACn_PCP_MAP applied to its PCP, or to rx_default_pcp (R338, R339, R342). -/
def State.storeRx (s : State) (p : Fin 2) (f : RxFrame) : State :=
  let c := s.portCfg p
  let q := s.port p
  let n := ceilDiv f.len 256
  let pcp := match f.tags with
    | [t] => t.pcp.val
    | _ => c.vlan.toNat / 65536 % 8
  let cls := if c.fcMode = 1 then some 0 else c.lossless.findIdx? fun i => i == pcp
  match cls with
  | none =>
    if q.rxShared ≤ 32 || q.rxShared < n then s.setPort p fun q => q.count 22 1
    else (s.setPort p fun q =>
      { q with rx := q.rx ++ [{ proto := f.proto, tc := c.classOf pcp, cls := none, shared := n, headroom := 0 }], rxShared := q.rxShared - n, rxFree := q.rxFree - n,
               rxInUse := q.rxInUse + n }).checkXoff p
  | some k =>
    let sh := min q.rxShared n
    if q.rxHead.getD k 0 < n - sh then
      ((s.setPort p fun q => q.count 23 1).macInt p 5).checkXoff p
    else (s.setPort p fun q =>
      { q with rx := q.rx ++ [{ proto := f.proto, tc := c.classOf pcp, cls := some k, shared := sh, headroom := n - sh }], rxShared := q.rxShared - sh,
               rxHead := modAt q.rxHead k (fun h => h - (n - sh)), rxFree := q.rxFree - n, rxInUse := q.rxInUse + n }).checkXoff p

/-- Frame activity darkens the lit LED for 40 ms, at most 8 times a second (R330). -/
def State.activity (s : State) (p : Fin 2) : State :=
  if (s.port p).ledDarkAt.all fun t => s.past t (125 * ms) then s.setPort p fun q => { q with ledDarkAt := some s.now } else s

/-- LEDn0, with `low` false, and LEDn1 of a port (R330): by its rate while it is linked, blinking while it trains. -/
def State.led (s : State) (p : Fin 2) (low : Bool) : Led :=
  let q := s.port p
  if q.retired || !q.present then .dark
  else if q.link then
    if decide (q.rate.val < 2) == low && q.ledDarkAt.all (fun t => s.past t (40 * ms)) then .lit else .dark
  else if q.training then .blinking
  else .dark

/-- What a packet says to the port itself: the Ferry engine's answers and signals (R147), and the default router of IPv6 (R126). -/
def State.portTakes (s : State) (p : Fin 2) (f : RxProto) : State :=
  match f with
  | .roce m =>
    match m with
    | .readOrAtomic n => ((s.qpOf n.val).filter fun q => q.st == .opened).elim s fun q => s.sendRoce q.rx q.qp .nakInvalid 0
    | .ecnMarked n => ((s.qpOf n.val).filter fun q => q.st == .opened).elim s fun q => s.sendRoce q.rx q.qp .cnp 0
    | .cnp n => (s.qpOf n.val).elim s fun q => s.setQp q.uid fun q => { q with rateCuts := q.rateCuts + 1 }
  | .routerAdv r => s.setPort p fun q => { q with router6 := some r }
  | _ => s

/-- FRAME_RECEIVED (R330, R336-R339, R342, R357, R233): frame activity; checked, counted and stored; the engines' rows bring the datagram itself. Before the service
instant only what R127 answers is kept (R436). -/
def execFrameReceived (port : Fin 2) (f : RxFrame) (s : State) : Host.Outcome State Fault Refusal :=
  .next (
    let c := s.portCfg port
    if !s.portUsable port || !(s.port port).link then s
    else
    let s := s.activity port
    let s := if f.symbolErr then s.setPort port fun q => q.count 15 1 else s
    let one := fun i => s.setPort port fun q => q.count i 1
    if f.len < 64 then one (if f.fcsOk then 16 else 17)
    else if c.maxFrame.toNat < f.len then one (if f.fcsOk then 18 else 19)
    else if !f.fcsOk then one 14
    else if f.symbolErr then s
    else if !s.acceptsDst port f.dst then one 21
    else
      let s := s.setPort port fun q => q.goodRx f
      let s := if f.dst = s.macOf port then s.wake else s
      if f.proto == .macControl then s
      else if !c.vlanOk f.tags then s.setPort port fun q => q.count 20 1
      else if f.ipErr then s.setPort port fun q => q.count 25 1
      else if !s.served f.proto then s.setPort port fun q => q.count 24 1
      else
        let early := !(s.life.phase == 9 || s.life.phase == 11)
        let answered := f.proto == .arp || f.proto == .ndisc || f.proto == .echo
        if early && !answered then s.setTr fun t => { t with counters := { t.counters with dgramDiscard := (t.counters.dgramDiscard + 1) % 2 ^ 32 } }
        else (s.storeRx port f).portTakes port f.proto)

/-- XON (R342): sent once 96 shared cells are free after an XOFF. -/
def execXon (port : Fin 2) (s : State) : Host.Outcome State Fault Refusal :=
  .next (
    if (s.port port).xoff && 96 ≤ (s.port port).rxShared then
      s.setPort port fun q => { q with xoff := false, macCtl := some ((s.portCfg port).pauseOf 0) }
    else s)

/-- Time of `quanta` pause quanta at a rate, ns (R344). -/
def quantaNs (quanta rate : Nat) : Nat := quanta * 512 * bitTime rate / 10

/-- PAUSE_REFRESH (R343): at half of the pause time while the condition lasts. -/
def execPauseRefresh (port : Fin 2) (s : State) : Host.Outcome State Fault Refusal :=
  .next (
    let q := s.port port
    if q.xoff && q.link && s.past q.xoffAt (quantaNs 0xFFFF q.rate.val / 2) then
      s.setPort port fun q => { q with xoffAt := s.now, macCtl := some ((s.portCfg port).pauseOf 0xFFFF) }
    else s)

-- Received pause.

/-- Whether a class is paused now. -/
def TxClass.paused (c : TxClass) (now : Nat) : Bool := c.breakUntil.isNone && c.pausedUntil.any fun t => decide (now < t)

/-- A pause time for one class: it replaces what remains; 0 releases at once (R344). -/
def TxClass.pause (c : TxClass) (now ns : Nat) : TxClass :=
  if ns = 0 then { c with pausedUntil := none }
  else { c with pausedUntil := some (now + ns), pausedSince := if c.pausedUntil.any (fun t => decide (now ≤ t)) then c.pausedSince else now }

/-- PAUSE_FRAME_RECEIVED (R343-R345). -/
def execPauseFrameReceived (port : Fin 2) (f : PauseFrame) (s : State) : Host.Outcome State Fault Refusal :=
  .next (
    let q := s.port port
    let c := s.portCfg port
    if !s.portUsable port || !q.link then s
    else
      let honour := c.fc.getLsbD 2
      let s := s.setPort port fun q => q.count (match f with | .link _ => 5 | .pfc .. => 6) 1
      let ignored := s.setPort port fun q => q.count 27 1
      match f with
      | .link v =>
        if !honour || c.fcMode ≠ 1 || (q.tx.any fun t => t.breakUntil.isSome) then ignored
        else s.setPort port fun q => { q with tx := q.tx.map fun t => t.pause s.now (quantaNs v.toNat q.rate.val) }
      | .pfc en vs =>
        if !honour || c.fcMode ≠ 2 then ignored
        else
          (List.range 8).foldl (fun s i =>
            if !en.getLsbD i then s
            else
              let tc := c.classOf i
              if ((q.tx[tc]?).any fun t => t.breakUntil.isSome) then s.setPort port fun q => q.count 27 1
              else s.setPort port fun q =>
                { q with tx := modAt q.tx tc fun t => t.pause s.now (quantaNs (vs.getD i 0).toNat q.rate.val) }) s)

/-- PAUSE_EXPIRY (R344). -/
def execPauseExpiry (port : Fin 2) (tc : Fin 8) (s : State) : Host.Outcome State Fault Refusal :=
  .next (s.setPort port fun q => { q with tx := modAt q.tx tc.val (fun (t : TxClass) =>
    if t.pausedUntil.any (fun u => decide (u ≤ s.now)) then { t with pausedUntil := none } else t) })

/-- PAUSE_WDOG (R345): a break of PAUSE_WDOG ms for a class paused that long; in mode 1 it covers every class. -/
def execPauseWdog (port : Fin 2) (tc : Fin 8) (s : State) : Host.Outcome State Fault Refusal :=
  .next (
    let w := (s.portCfg port).pauseWdog.toNat
    let all := (s.portCfg port).fcMode == 1
    match (s.port port).tx[tc.val]? with
    | none => s
    | some c =>
      if w = 0 || !c.paused s.now || !s.past c.pausedSince (w * ms) then s
      else
        let brk := fun (t : TxClass) => { t with pausedUntil := none, breakUntil := some (s.now + w * ms) }
        let s := s.setPort port fun q => { q with tx := if all then q.tx.map brk else modAt q.tx tc.val brk }.count 42 1
        (s.macInt port 2).logEv evPauseWdog (uMac port) (port.val + 256 * (if all then 0xFF else tc.val)) ((s.port port).stats.getD 42 0))

/-- PAUSE_WDOG_BREAK_END (R345): the class starts unpaused. -/
def execPauseWdogBreakEnd (port : Fin 2) (tc : Fin 8) (s : State) : Host.Outcome State Fault Refusal :=
  .next (s.setPort port fun q => { q with tx := modAt q.tx tc.val (fun (t : TxClass) =>
    if t.breakUntil.any (fun u => decide (u ≤ s.now)) then { t with breakUntil := none, pausedUntil := none } else t) })

-- Time-aware gates.

/-- 2.5 ns units of one second. -/
def secUnits : Nat := 400000000

/-- The segments of one cycle: gates and length, the last extended and the list cut off at the cycle time (R347). -/
def cut : Nat → List (Word × Word) → List (BitVec 8 × Nat)
  | _, [] => []
  | room, [e] => [(e.1.setWidth 8, room)]
  | room, e :: r =>
    let n := min e.2.toNat room
    (e.1.setWidth 8, n) :: cut (room - n) r

/-- The segments of a gate list. -/
def GateList.segments (g : GateList) : List (BitVec 8 × Nat) := cut g.cycle.toNat (g.entries.take g.len.toNat)

/-- The entry in force `t` units into the cycle, with what remains of it: index, gates, units left. -/
def seek : Nat → Nat → List (BitVec 8 × Nat) → Nat × BitVec 8 × Nat
  | i, _, [] => (i, 0xFF, 0)
  | i, t, e :: r => if t < e.2 then (i, e.1, e.2 - t) else seek (i + 1) (t - e.2) r

/-- Units for which a class stays open along a run of segments, and whether it ever closes. -/
def openRun (tc : Nat) : List (BitVec 8 × Nat) → Nat × Bool
  | [] => (0, false)
  | e :: r =>
    if e.2 = 0 || e.1.getLsbD tc then
      let (n, c) := openRun tc r
      (e.2 + n, c)
    else (0, true)

/-- Position of the operational list in its cycle, in units (R348, R350). -/
def State.gatePos (s : State) (p : Fin 2) : Nat :=
  let q := s.port p
  (((s.ptp.time : Int) - q.operAt) % (max q.goper.cycle.toNat 1 : Int)).toNat

/-- Bring the entry and gates of a port up to its position (R347). -/
def State.setGates (s : State) (p : Fin 2) : State :=
  if !(s.port p).tasRunning then s.setPort p fun q => { q with gates := 0xFF, tasEntry := 0 }
  else
    let (i, g, _) := seek 0 (s.gatePos p) (s.port p).goper.segments
    s.setPort p fun q => { q with gates := g, tasEntry := i }

/-- Units a class's gate stays open from now, none for ever (R349). -/
def State.openFor (s : State) (p : Fin 2) (tc : Nat) : Option Nat :=
  let q := s.port p
  if !q.tasRunning then none
  else
    let segs := q.goper.segments
    let (i, g, left) := seek 0 (s.gatePos p) segs
    let (n, closes) := openRun tc ((g, left) :: segs.drop (i + 1) ++ segs)
    if closes then some n else none

/-- Longest continuous open time of a class, none for ever (R349). -/
def State.longestOpen (s : State) (p : Fin 2) (tc : Nat) : Option Nat :=
  let q := s.port p
  if !q.tasRunning then none
  else
    let segs := q.goper.segments
    let runs := (List.range segs.length).map fun i => openRun tc (segs.drop i ++ segs)
    if runs.any fun r => r.2 then some (runs.foldl (fun n r => max n r.1) 0) else none

/-- Whether a frame's transmission fits in so many open units (R349). -/
def fitsOpen (len rate : Nat) (avail : Option Nat) : Bool := avail.all fun n => decide ((len + 20) * 8 * bitTime rate ≤ 25 * n)

/-- A base time in 2.5 ns units. -/
def GateList.base (g : GateList) : Nat := g.baseSec.toNat * secUnits + ceilDiv (2 * g.baseNs.toNat) 5

/-- The first instant not passed of `start + N × cycle`. -/
def nextCycle (start cycle now : Nat) : Nat := if now ≤ start then start else start + ceilDiv (now - start) (max cycle 1) * cycle

/-- TAS_CONFIG_CHANGE (R348). -/
def execTasConfigChange (port : Fin 2) (s : State) : Host.Outcome State Fault Refusal :=
  .next (
    let q := s.port port
    let g := q.gadmin
    let bad := q.tasPending || decide (g.cycle.toNat < 400) || decide (g.len.toNat < 1) || decide (256 < g.len.toNat) ||
      (g.entries.take g.len.toNat).any fun e => e.2 == 0
    if !s.portUsable port then s
    else if bad then (s.setPort port fun q => { q with tasCfgError := true }).macInt port 4
    else
      let at_ := if q.tasRunning then nextCycle q.operAt q.goper.cycle.toNat (max g.base s.ptp.time) else nextCycle g.base g.cycle.toNat s.ptp.time
      s.setPort port fun q => { q with tasPending := true, tasCfgError := false, swapAt := at_ })

/-- Exchange the banks of entries at the swap instant; the admin cycle, length and base time stay as they were written (R348, R358). -/
def State.swapGates (s : State) (p : Fin 2) : State :=
  let s := s.setPort p fun q =>
    { q with gadmin := { q.gadmin with entries := q.goper.entries }, goper := q.gadmin, operAt := q.swapAt, tasPending := false, tasRunning := q.tasEnable, oversizeSaid := false }
  let ns := (s.port p).swapAt % secUnits * 5 / 2
  ((s.macInt p 3).logEv evTasSwap (uMac p) p.val ns).setGates p

/-- TAS_SWAP (R348): once the swap instant has come. -/
def execTasSwap (port : Fin 2) (s : State) : Host.Outcome State Fault Refusal :=
  .next (if (s.port port).tasPending && decide ((s.port port).swapAt ≤ s.ptp.time) then s.swapGates port else s)

/-- GATE_ENTRY_ADVANCE (R347). -/
def execGateEntryAdvance (port : Fin 2) (s : State) : Host.Outcome State Fault Refusal :=
  .next (if (s.port port).tasRunning then s.setGates port else s)

/-- TAS_ENABLE_WRITE (R346): clearing enable opens every gate at once; setting it runs an operational list that has been loaded. -/
def execTasEnableWrite (port : Fin 2) (v : Word) (s : State) : Host.Outcome State Fault Refusal :=
  .next (
    if !s.portUsable port then s
    else
      let on := v.getLsbD 0
      (s.setPort port fun q => { q with tasEnable := on, tasRunning := on && decide (q.goper.len.toNat ≠ 0) }).setGates port)

/-- What a step of the PTP clock does to the gates (R350). -/
def State.gatesStepped (s : State) : State :=
  [0, 1].foldl (fun s (p : Fin 2) =>
    if (s.port p).tasPending && decide ((s.port p).swapAt ≤ s.ptp.time) then s.swapGates p
    else if (s.port p).tasRunning then s.setGates p else s) s

-- Transmitting.

/-- End the frame on the line once its time is over: its cells are released (R340). -/
def State.endLine (s : State) (p : Fin 2) : State :=
  match (s.port p).line with
  | some f => if (s.port p).lineUntil ≤ 10 * s.now then
      s.setPort p fun q => { { q with line := none }.release f with txIdleSince := s.now }
    else s
  | none => s

/-- Counters of a frame sent: by destination, counter `k`, and by length (R357). -/
def Port.sent (q : Port) (k len : Nat) : Port :=
  (((q.count 28 1).txOctets len).count k 1).count (if len ≤ 127 then 35 else if len ≤ 1518 then 36 else 37) 1

/-- Counters of a frame of a class: PTP frames are multicast, the others go to one address (R357). -/
def Port.goodTx (q : Port) (f : TxFrame) : Port :=
  q.sent (match f.msg with
    | .delayReq .. | .pdelayResp _ | .pdelayFollowUp => 31
    | _ => 30) f.len

/-- A waiting frame as it goes out: with the tag of the mode now in force, and, a one-step message, its timestamp in it (R337, R354). -/
def State.onWire (s : State) (p : Fin 2) (f : TxFrame) : TxFrame :=
  let lat := signedOf 16 (s.ptp.lat.getD (2 * p.val) 0).toNat
  { f with len := f.len + (s.portCfg p).tagLen, tag := (s.portCfg p).tag
           stamp := match f.msg with
             | .pdelayResp true => some ((s.ptp.time : Int) + lat * 2 / 5).toNat
             | _ => none }

/-- Discard the head frames that no open time of their class can hold (R349). -/
def State.dropOversize : Nat → State → Fin 2 → Nat → State
  | 0, s, _, _ => s
  | n + 1, s, p, tc =>
    match ((s.port p).tx[tc]?).bind fun c => c.queue.head? with
    | none => s
    | some f =>
      if fitsOpen (s.onWire p f).len (s.port p).rate.val (s.longestOpen p tc) then s
      else
        let said := (s.port p).oversizeSaid
        let s := s.setPort p fun q => ({ q with tx := modAt q.tx tc (fun c => { c with queue := c.queue.drop 1 }), oversizeSaid := true }.count 39 1).release f
        let s := s.macInt p 4
        let s := if said then s else s.logEv evTasOversize (uMac p) p.val tc
        State.dropOversize n s p tc

/-- Whether a class may start its head frame now (R340, R349). -/
def State.mayStart (s : State) (p : Fin 2) (tc : Nat) : Bool :=
  match (s.port p).tx[tc]? with
  | none => false
  | some c => !c.paused s.now && c.queue.head?.any fun f => fitsOpen (s.onWire p f).len (s.port p).rate.val (s.openFor p tc)

/-- The wake time before the first frame after low-power idle, in 0.1 ns: 4.48 µs at 10GBASE-T and 16.5 µs at 1000BASE-T; those of the other two rates
are taken from their standard (R328; PRESUMED, log 87). -/
def wakeTime (r : Nat) : Nat := match r with | 0 => 165000 | 1 => 179200 | 2 => 89600 | _ => 44800

/-- Start a frame of a class. -/
def State.startFrame (s : State) (p : Fin 2) (tc : Nat) : State :=
  match ((s.port p).tx[tc]?).bind fun c => c.queue.head? with
  | none => s
  | some f =>
    let f := s.onWire p f
    (s.activity p).setPort p fun q =>
      { q.goodTx f with tx := modAt q.tx tc (fun c => { c with queue := c.queue.drop 1 }), line := some f, txLpi := false
                        lineUntil := 10 * s.now + (if q.txLpi then wakeTime q.rate.val else 0) + (f.len + 20) * 8 * bitTime q.rate.val }

/-- FRAME_TRANSMIT_START (R340, R349): a MAC Control frame ahead of every class, else the highest class that may start. -/
def execFrameTransmitStart (port : Fin 2) (s : State) : Host.Outcome State Fault Refusal :=
  .next (
    let s := s.endLine port
    if !(s.port port).link || (s.port port).line.isSome then s
    else
      match (s.port port).macCtl with
      | some f => (s.activity port).setPort port fun q =>
          { (q.sent 31 64).count (match f with | .link _ => 33 | .pfc .. => 34) 1 with macCtl := none, txLpi := false, txIdleSince := s.now }
      | none =>
        let s := (List.range 8).foldl (fun s tc => s.dropOversize ((((s.port port).tx[tc]?).map fun c => c.queue.length).getD 0) port tc) s
        match [7, 6, 5, 4, 3, 2, 1, 0].find? fun tc => s.mayStart port tc with
        | some tc => s.startFrame port tc
        | none => s)

/-- LOW_POWER_IDLE (R328): the transmit path has been idle for lpi_us; never while a gate schedule is operational. -/
def execLowPowerIdle (port : Fin 2) (s : State) : Host.Outcome State Fault Refusal :=
  .next (
    let s := s.endLine port
    let q := s.port port
    let idle := q.line.isNone && q.macCtl.isNone && q.txWait.isEmpty && q.tx.all fun c => c.queue.isEmpty
    let lpi := (s.portCfg port).phy.toNat / 65536
    if q.link && q.eee && !q.txLpi && idle && !q.tasRunning && s.past q.txIdleSince (1000 * lpi) then
      (s.setPort port fun q => { q with txLpi := true }).logEv evLpi (uMac port) port.val 0
    else s)

end Sys2Proof.Machine
end

