-- ==== Sys2Proof/Machine/PtpUnit.lean ====
section
/-! DEFINITION. The PTP unit (10 R351-R356, R359): the clock and its servo, timestamp queues, PPS pads, and its registers with a behaviour
of their own. -/

namespace Sys2Proof.Machine

/-- PTP_CFG fields (R359). -/
def Ptp.source (t : Ptp) : Nat := t.cfg.toNat % 8
def Ptp.domain (t : Ptp) : Nat := t.cfg.toNat / 256 % 128
def Ptp.transport (t : Ptp) (p : Fin 2) : Nat := t.cfg.toNat / (if p = 0 then 16 else 64) % 4
def Ptp.tc (t : Ptp) : Nat := t.cfg.toNat / 65536 % 8

/-- Nanoseconds and seconds of a time in 2.5 ns units. -/
def nsOf (t : Nat) : Nat := t % secUnits * 5 / 2
def secOf (t : Nat) : Nat := t / secUnits

/-- A time of seconds and nanoseconds in 2.5 ns units. -/
def unitsOf (sec ns : Nat) : Nat := sec * secUnits + 2 * ns / 5

/-- Set bits of PTP_INT_STATUS. -/
def State.ptpInt (s : State) (k : Nat) : State := s.setPtp fun t => { t with intStatus := t.intStatus ||| BitVec.ofNat 4 (2 ^ k) }

/-- Step the clock to a time: EV_TIME_STEP is stamped with the clock before the step (R423); the gates follow (R350). -/
def State.stepClock (s : State) (at_ : Nat) : State :=
  let d : Int := ((at_ : Int) - s.ptp.time) * 5 / 2
  let w := toField 64 d
  let s := s.logEv evTimeStep uPtp (w % 2 ^ 32) (w / 2 ^ 32)
  ((s.setPtp fun t => { t with time := at_, frac := 0 }).ptpInt 3).gatesStepped

/-- One sample of the servo (R352): lock, valid time, a step beyond 100 µs, else a slew within 500 ppm. -/
def State.servo (s : State) (o : Int) : State :=
  let a := o.natAbs
  let good := if a ≤ 1000 then s.ptp.goodSamples + 1 else 0
  let lock := if 10000 < a then false else s.ptp.locked || decide (16 ≤ good)
  let changed := lock != s.ptp.locked
  let f : Int := (s.freeVal % 256000001 : Int) - 128000000
  let s := s.freeNext.setPtp fun t =>
    { t with offset := max (-2147483648) (min 2147483647 o), lastSample := s.now, holdover := false, goodSamples := good, locked := lock,
             timeValid := t.timeValid || lock, freq := f }
  let s := if changed then s.ptpInt 1 else s
  if 100000 < a then s.stepClock (((s.ptp.time : Int) - o * 2 / 5).toNat) else s

/-- A message interval in ns (R351). -/
def intervalNs (i : Int) : Nat := if 0 ≤ i then 2 ^ (min i 10).toNat * oneSec else oneSec / 2 ^ (min (-i) 20).toNat

/-- Whether a time transmitter qualifies: two Announce messages within four of its intervals, the last not three intervals old (R351; the numbers are
the defaults of IEEE 1588: PRESUMED, log 89). -/
def Master.qualifies (m : Master) (now : Nat) : Bool :=
  m.prev.any (fun t => decide (m.last ≤ t + 4 * intervalNs m.logInterval)) && decide (now < m.last + 3 * intervalNs m.logInterval)

/-- What the default best time-transmitter algorithm compares, in order; the lower value is the better (R351). -/
def Master.rank (m : Master) : List Nat :=
  let a := m.data
  [a.prio1.toNat, a.clockClass.toNat, a.accuracy.toNat, a.variance.toNat, a.prio2.toNat, a.gm.toNat, a.steps.toNat, m.sender.toNat, m.port.val]

/-- Whether a list of numbers comes before another of its length. -/
def ranksBefore : List Nat → List Nat → Bool
  | a :: r, b :: q => decide (a < b) || (a == b && ranksBefore r q)
  | _, _ => false

/-- The best time transmitter: on the port that the source names, or across both ports (R351, R352). -/
def State.bestMaster (s : State) : Option Master :=
  let on := fun (p : Fin 2) => match s.ptp.source with
    | 1 => p == 0
    | 2 => p == 1
    | 3 => true
    | _ => false
  let all := s.ptp.masters.filter fun m => on m.port && m.qualifies s.now
  all.find? fun m => all.all fun x => !ranksBefore x.rank m.rank

/-- An Announce message is taken (R351). -/
def State.takeAnnounce (s : State) (m : PtpMsg) (a : Announce) : State :=
  let mine := fun (x : Master) => x.port == m.port && x.sender == m.sender
  let prev := (s.ptp.masters.find? mine).map fun x => x.last
  s.setPtp fun t => { t with masters := { port := m.port, sender := m.sender, data := a, logInterval := m.logInterval, last := s.now, prev := prev } ::
    (t.masters.filter fun x => !mine x && decide (s.now < x.last + 4 * intervalNs x.logInterval)) }

/-- Whether the servo takes samples of a port: the best time transmitter's (R351, R352). -/
def State.samplesFrom (s : State) (p : Fin 2) : Bool := s.bestMaster.any fun m => m.port == p

/-- Whether the servo pauses: step 3 of an activation or a hitless fallback (R376). -/
def State.servoPaused (s : State) : Bool := ((s.upd.state == 4 && !s.life.recovery) || s.upd.rollback) && s.upd.step == 3

-- Timestamp queues.

/-- A timestamp for a queue: stored, or lost and noted in the gap state (R354, R355). Answers whether it was stored. -/
def TsQueue.put (q : TsQueue) (e : TsEntry) (mt : BitVec 4) (dom : BitVec 8) (seq : BitVec 16) : TsQueue × Bool :=
  if q.entries.length < 64 then ({ q with entries := q.entries ++ [e] }, true)
  else
    let gap := match q.gap with
      | some (.gap m d f _ n) => some (.gap m d f seq (min (n + 1) 65535))
      | _ => some (.gap mt dom seq seq 1)
    ({ q with gap := gap, lost := min (q.lost + 1) 65535 }, false)

/-- Take the head of a queue; the gap marker goes into the freed slot (R355). -/
def TsQueue.pop (q : TsQueue) : TsQueue × Option TsEntry :=
  match q.entries with
  | [] => (q, none)
  | e :: r => ({ q with entries := r ++ q.gap.toList, gap := none, head := (e, true) }, some e)

/-- An entry as 16 bytes (R354). -/
def TsEntry.bytes : TsEntry → Bytes
  | .stamp m d sq ns sec => le 1 (m.toNat + 16) ++ le 1 d.toNat ++ le 2 sq.toNat ++ le 4 ns ++ le 6 sec ++ le 2 0
  | .gap m d f l n => le 1 (m.toNat + 32) ++ le 1 d.toNat ++ le 2 f.toNat ++ le 4 (l.toNat + 65536 * n) ++ le 6 0 ++ le 2 0

/-- Length of a PTP frame whose message is `n` bytes, FCS included, in a transport (R351). -/
def ptpLen (transport n : Nat) : Nat := max 64 (18 + n + (match transport with | 0 => 0 | 1 => 28 | _ => 48))

/-- Send a PTP message of a port (R338: ptp_tc is the traffic class itself). -/
def State.sendPtp (s : State) (p : Fin 2) (msg : Msg) (n : Nat) : State :=
  if !s.portUsable p || !(s.port p).link then s
  else
    let len := ptpLen (s.ptp.transport p) n
    s.setPort p fun q => q.enqueue [{ msg := msg, len := len, cells := ceilDiv len 256, pcp := Fin.ofNat 8 s.ptp.tc, tc := s.ptp.tc }]

/-- The timestamp of an event message goes into its queue; a message that finds the queue full is counted and raises bit 2 (R353, R355). A one-step
message that is sent gets none, nor does a general message. Answers whether no timestamp was lost. -/
def State.ptpStamp (s : State) (m : PtpMsg) : State × Bool :=
  if (m.sent && m.oneStep) || decide (4 ≤ m.msgType.toNat) then (s, true)
  else
    let qi := 2 * m.port.val + b2n (!m.sent)
    let lat := signedOf 16 (s.ptp.lat.getD qi 0).toNat
    let t := ((s.ptp.time : Int) + lat * 2 / 5).toNat
    let r := (s.ptp.q.getD qi {}).put (.stamp m.msgType m.domain m.seqId (nsOf t) (secOf t)) m.msgType m.domain m.seqId
    let s := s.setPtp fun x => { x with q := modAt x.q qi fun _ => r.1 }
    (if r.2 then s else (s.setPort m.port fun q => q.count (if m.sent then 40 else 26) 1).ptpInt 2, r.2)

/-- A received Pdelay_Req is answered, in one step, or in two with Pdelay_Resp_Follow_Up behind it (R351). -/
def State.ptpAnswer (s : State) (m : PtpMsg) : State :=
  if !m.sent && m.msgType == 2 && s.ptp.cfg.getLsbD 3 then
    let one := s.ptp.cfg.getLsbD 15
    let s := s.sendPtp m.port (.pdelayResp one) 54
    if one then s else s.sendPtp m.port .pdelayFollowUp 54
  else s

/-- A message that completes a sample of the source in use feeds the servo, unless it pauses (R352, R355, R376). -/
def State.ptpSample (s : State) (m : PtpMsg) : State :=
  match m.offset with
  | some o => if s.samplesFrom m.port && s.bestMaster.any (fun b => b.sender == m.sender) && !s.servoPaused then (s.setPtp fun x => { x with port := decide (m.port.val = 1) }).servo o else s
  | none => s

/-- The message interval that the time transmitter's Delay_Resp sets (R351). -/
def State.takeInterval (s : State) (m : PtpMsg) : State :=
  if !m.sent && m.msgType == 9 && s.bestMaster.any (fun b => b.sender == m.sender && b.port == m.port) then
    s.setPtp fun t => { t with logInterval := max (-7) (min m.logInterval 10) }
  else s

/-- PTP_EVENT_MESSAGE (R351-R355): a message of the configured transport and domain. An event message is timestamped; a received Pdelay_Req is
answered; a message that completes a sample feeds the servo, unless its timestamp is lost; an Announce enters the choice of the time
transmitter. -/
def execPtpEventMessage (m : PtpMsg) (s : State) : Host.Outcome State Fault Refusal :=
  .next (
    if m.domain.toNat ≠ s.ptp.domain || m.transport.val ≠ s.ptp.transport m.port || !s.portUsable m.port || s.pwr.ps = 4 then s
    else
      let (s, kept) := s.ptpStamp m
      let s := (s.ptpAnswer m).takeInterval m
      match m.announce with
      | some a => if m.sent then s else s.takeAnnounce m a
      | none => if kept then s.ptpSample m else s)

/-- PTP_HOLDOVER (R352, R356): 3 s without samples, or 2 s without an edge of PPS_IN with source 4. -/
def execPtpHoldover (s : State) : Host.Outcome State Fault Refusal :=
  .next (
    let limit := if s.ptp.source = 4 then 2 else 3
    if decide (1 ≤ s.ptp.source) && decide (s.ptp.source ≤ 4) && s.ptp.lastSample ≠ 0 && s.past s.ptp.lastSample (limit * oneSec) then
      s.setPtp fun t => { t with holdover := true, goodSamples := 0 }
    else s)

/-- PPS_IN_EDGE (R356): the clock is latched; with source 4 the edge is the second that PTP_SET_SEC names. -/
def execPpsInEdge (s : State) : Host.Outcome State Fault Refusal :=
  .next (
    let t := s.ptp.time
    let s := (s.setPtp fun x => { x with ppsInNs := BitVec.ofNat 30 (nsOf t), ppsInSec := BitVec.ofNat 48 (secOf t) }).ptpInt 0
    if s.ptp.source = 4 && !s.servoPaused then s.servo (((t : Int) - s.ptp.setSec.toNat * secUnits) * 5 / 2) else s)

/-- PPS_OUT_EDGE (R356): at a whole second plus the offset, while enabled. -/
def execPpsOutEdge (s : State) : Host.Outcome State Fault Refusal :=
  .next (
    let c := s.ptp.ppsCfg
    let at_ := (s.ptp.time + secUnits - unitsOf 0 s.ptp.ppsOffset.toNat % secUnits) % secUnits
    if c.getLsbD 20 && (s.ptp.timeValid || c.getLsbD 21) && at_ < 400 then
      s.setPtp fun t => { t with ppsOut := true, ppsRose := s.now }
    else s)

/-- PPS_OUT_FALL (R356): after width_us. -/
def execPpsOutFall (s : State) : Host.Outcome State Fault Refusal :=
  .next (
    if s.ptp.ppsOut && s.past s.ptp.ppsRose (1000 * (s.ptp.ppsCfg.toNat % 2 ^ 20)) then s.setPtp fun t => { t with ppsOut := false } else s)

/-- PTP_CTRL_STEP (R359): with source 5, PTP_SET is loaded now. -/
def execPtpCtrlStep (s : State) : Host.Outcome State Fault Refusal :=
  .next (if s.ptp.source = 5 then s.stepClock (unitsOf s.ptp.setSec.toNat s.ptp.setNs.toNat) else s)

/-- PTP_TIME_NS_READ (R359): the seconds are latched with it. -/
def execPtpTimeNsRead (s : State) : Host.Outcome State Fault Refusal :=
  .next ((s.setPtp fun t => { t with latchSec := BitVec.ofNat 48 (secOf t.time) }).setSb fun b => { b with data := [BitVec.ofNat 32 (nsOf s.ptp.time)] })

/-- PTP_PPS_IN_NS_READ (R359). -/
def execPtpPpsInNsRead (s : State) : Host.Outcome State Fault Refusal :=
  .next ((s.setPtp fun t => { t with ppsInLatch := t.ppsInSec }).setSb fun b => { b with data := [s.ptp.ppsInNs.setWidth 32] })

/-- PTP_TSQ_DATA0_READ (R355, R359): pops the head with source 5; 0 when the queue is empty or another source is set. -/
def execPtpTsqData0Read (q : Fin 4) (s : State) : Host.Outcome State Fault Refusal :=
  .next (
    let x := s.ptp.q.getD q.val {}
    let none_ := (s.setPtp fun t => { t with q := modAt t.q q.val fun y => { y with head := (y.head.1, false) } }).setSb fun b => { b with data := [0] }
    if s.ptp.source ≠ 5 then none_
    else match x.pop with
      | (_, none) => none_
      | (x', some e) => (s.setPtp fun t => { t with q := modAt t.q q.val fun _ => x' }).setSb fun b =>
          { b with data := [BitVec.ofNat 32 (fieldAt e.bytes 0 4)] })

/-- DELAY_REQ_TIMER (R351): the time-receiver asks at its message interval. -/
def execDelayReqTimer (port : Fin 2) (s : State) : Host.Outcome State Fault Refusal :=
  .next (
    if s.samplesFrom port && (s.port port).link && s.past s.ptp.lastReq (intervalNs s.ptp.logInterval) then
      let pd := s.ptp.cfg.getLsbD 3
      (s.sendPtp port (.delayReq pd s.ptp.reqSeq) (if pd then 54 else 44)).setPtp fun t => { t with reqSeq := t.reqSeq + 1, lastReq := s.now }
    else s)

/-- PTP_CFG_WRITE (R358, R359): sources 6 and 7 and transport 3 are ignored; a change of source to or from 5 empties the four queues
without counting losses. -/
def execPtpCfgWrite (v : Word) (s : State) : Host.Outcome State Fault Refusal :=
  .next (
    let new := v.toNat % 8
    if 5 < new || v.toNat / 16 % 4 = 3 || v.toNat / 64 % 4 = 3 then s
    else
      let hand := decide (new ≠ s.ptp.source) && (new == 5 || s.ptp.source == 5)
      s.setPtp fun t => { t with cfg := v.setWidth 19, goodSamples := if new = t.source then t.goodSamples else 0
                                 q := if hand then t.q.map fun x => { x with entries := [], gap := none } else t.q })

/-- The clock's advance over one tick of 1 µs: 400 cycles and the frequency adjustment (R352). In PS4 it stands (R230). -/
def Ptp.advance (t : Ptp) : Ptp :=
  let f : Int := if t.source = 5 then max (-256000000) (min 256000000 (signedOf 32 t.adj.toNat)) else if t.source = 0 then 0 else t.freq
  let x := t.frac + f
  if 640000000 ≤ x then { t with time := t.time + 401, frac := x - 640000000 }
  else if x ≤ -640000000 then { t with time := t.time + 399, frac := x + 640000000 }
  else { t with time := t.time + 400, frac := x }

end Sys2Proof.Machine
end

