-- ==== Sys2Proof/Machine/LifeOps.lean ====
section
/-! DEFINITION. What resets and power losses do: stopping admission (05 R198, 06 R222), the close (14 R431), the start instant of a
start-up with everything R433 keeps, the full reset request (14 R430, R441), and the service reset (14 R434). -/

namespace Sys2Proof.Machine

-- Stopping.

/-- Nothing outstanding is delivered any more: sessions and queue pairs end with their commands (R68, R164, R222 step 4). -/
def State.endSources (s : State) : State :=
  let s := s.setCmds fun _ => []
  let s := s.setMbx fun m => { m with cp := List.replicate 8 [], sup := [] }
  let s := s.setTr fun t => { t with sessions := [], hold := [], reasm := [], qps := [], ended := [] }
  let s := s.setUpd fun u => { u with waitAct := [], actAdm := none }
  let s := s.setSec fun x => { x with attestQ := [], signGrant := none }
  s.setKv fun k => { k with flushes := [] }

/-- Records in reserved or filling, and open assemblies, go to free (R198 step 2). -/
def State.freeUnfilled (s : State) : State :=
  let s := (s.land.recs.filter fun r => r.st == .reserved || r.st == .filling).foldl (fun s r => s.cancelRec r.id) s
  s.setKv fun k => { k with assemblies := [] }

/-- VIN has risen again: the elapsed time of an interrupted operation goes on, the restart qualification of 10 ms counted (R408). -/
def State.resumeElapsed (s : State) : State :=
  if s.sec.san.state = 1 && s.sec.san.stage = 1 then
    s.setSec fun x => { x with san := { x.san with elapsedNs := x.san.elapsedNs + 10 * ms, runFrom := some s.now } }
  else s

/-- FORMAT or SANITIZE is interrupted: its elapsed time stops (R408). -/
def State.pauseSanitize (s : State) : State :=
  s.setSec fun x => { x with san := { x.san with elapsedNs := x.san.elapsedNs + ((x.san.runFrom.map fun t => s.now - t).getD 0), runFrom := none } }

/-- Pause a channel for good, with the chain it runs in service (R288-R290): an idle one is paused at once, a running one when its reads are written,
which takes less than a tick; one that reads host memory waits for its RDMA Read's response. A halted channel stays so. -/
def DmaCh.park (c : DmaCh) (x : Option MChain) : DmaCh :=
  let c := { c with pause := true, active := if c.stopping then none else c.active.or (x.bind fun y => y.descs.head?.map fun d => d.desc) }
  if c.st = .halted || c.st = .paused then c
  else if x.any MChain.readsHost then { c with st := .running, draining := true, stopping := false }
  else { c with st := .paused, draining := false, stopping := false, intStatus := c.intStatus ||| 4 }

/-- The data mover's channels but DMA8-DMA11 and DMA15 pause and never go on (R290). -/
def State.pauseDma (s : State) : State :=
  s.setDma fun d => { d with ch := ((List.range 16).zip d.ch).map fun x =>
    if (8 ≤ x.1 && x.1 ≤ 11) || x.1 = 15 then x.2 else x.2.park (s.mover.busy.find? fun y => y.ch == x.1) }

/-- The key-space table, as it stands in force, is in configuration data in both copies, one pSLC program unit in each (R279); the KS_SET_LIMITs that
wait for it complete (R67). -/
def State.saveTable (s : State) : State :=
  let waits := s.kv.tableWaits
  let s := s.metaProgram 65536
  let s := s.setKv fun v => { v with tableAt := none, tableWaits := [], committedSaved := (v.committed.head?.map fun x => x.2).getD v.committedSaved
                                     spaces := v.spaces.map fun (k : KeySpace) => { k with limitsSaved := (k.limits.head?.map fun x => x.2).getD k.limitsSaved } }
  waits.foldl (fun s a => match s.cmd? a with | some c => s.ok c c.res0 c.res1 | none => s) s

/-- The key-space table is written at a close, if it has changed since its last write (R67, R222), under the grant of its programs. -/
def State.closeTable (s : State) : State := if s.kv.tableAt.isNone && s.kv.tableWaits.isEmpty then s else s.under 12 .table State.saveTable

/-- A change of the key-space table that is not in configuration data is lost with the power or at a reset without a close (R67). -/
def State.revertTable (s : State) : State :=
  if s.kv.tableAt.isNone then s
  else s.setKv fun v => { v with tableAt := none, tableWaits := [], committed := [(0, v.committedSaved)],
                                 spaces := v.spaces.map fun (k : KeySpace) => { k with limits := [(0, k.limitsSaved)] } }

/-- The PHYs are powered down and their links drop (R222 step 3). -/
def State.portsDown (s : State) : State :=
  [0, 1].foldl (fun s (p : Fin 2) => ((s.dropLink p).setPort p fun q => { q with training := false, phyGrant := 0 })) s

/-- Operations of classes 1 to 3 that hold no grant stop (R222 steps 3 and 4): their requests are withdrawn, and program units go on with the programs
that are granted alone. -/
def State.stopUngranted (s : State) : State :=
  let s := s.setPwr fun p => { p with queue := p.queue.filter fun q => q.cls == 0 }
  let cut := fun (j : Job) =>
    let runs := j.chans.filter fun c => (s.grantFor (.program j.id c)).isSome
    if j.kind.cls j.stream = 0 || j.chans.isEmpty then some j
    else if runs.isEmpty then none
    else some { j with chans := runs, more := 0 }
  s.setFlash fun f => { f with jobs := f.jobs.filterMap cut }

/-- Write-through writes whose map record is not journalled take no effect (R68, R191, R198): they have not reached step 6. What is programmed of them
is dead. -/
def State.dropWriteThrough (s : State) : State :=
  let noted := fun (r : LRec) => s.flash.jobs.any fun j => j.items.any fun i => i.land == some r.id && i.jseq.isSome
  (s.land.recs.filter fun r => r.wt && !noted r).foldl (fun s r => (s.unplace r.id).cancelRec r.id) s

/-- Steps 2 and 3 of the hold-up sequence, which a close runs too (R222, R431): admission stops, the budget is 800 tokens, and what the
Landing holds drains. `mark` says which sequence begins. -/
def State.beginSequence (s : State) (mark : Life → Life) : State :=
  let s := ((s.freeUnfilled).dropWriteThrough).stopUngranted
  let s := (s.endSources).pauseSanitize
  let s := (s.setLife fun l => { mark l with phase := 12, closeAt := s.now, svc := none }).pauseDma
  let s := s.setPwr fun p => { p with poolFree := 0, grants := p.grants.map fun g => { g with pool := false }, psBusy := false, ps := 0, psTarget := 0 }
  let s := (s.portsDown).budgetChange 6
  s.pumpDrain

/-- Whether the drain of a close or hold-up sequence has ended: every record is on flash with a durable map record (R222 step 5). -/
def State.drainEnded (s : State) : Bool := s.land.recs.isEmpty && !(s.flash.jobs.any fun j => j.items.any fun i => i.land.isSome)

/-- The journal pages that are not programmed yet are, one program unit after the other, and what waited for their records is done (R254). -/
def State.flushPages (s : State) : State :=
  let s := s.returnFor .journal
  let n := b2n (!s.jrn.flying.isEmpty) + s.pageUnits s.jrn.page.length s.jrn.page
  let all := fun (s : State) =>
    (s.setJrn fun j => { j with log := j.log ++ j.flying ++ j.page, flying := [], page := [], marks := [], pagesDurable := j.pagesDurable + n }).metaProgram (65536 * n)
  (if n = 0 then s else s.under 12 .journal all).runActs

/-- Close the journal (R222 step 6), every program under its class 0 grant (R209): what is written of it is durable and what waited for it is done;
the event ring and a key-space table changed since its last write are written (R67), and JRNL_CLOSE ends the journal with the position of its last
record (R193). The recovery image has none to close (R388). -/
def State.closeJournal (s : State) : State :=
  if s.life.recovery then (s.closeTable).finalCopy else
  let s := ((s.flushPages).closeTable).finalCopy
  let n := s.jrn.jseqNext
  s.under 12 .journal fun s => (s.setJrn fun j =>
    { j with log := j.log ++ [(n, .jrnlClose (n - 1))], jseqNext := n + 1, closed := true, pagesDurable := j.pagesDurable + 1 }).metaProgram 65536

-- What a power loss or reset leaves on flash.

/-- What a start finds of the page unit that was being programmed: its free value tells which copies hold it with a good CRC (R255). A unit that
neither copy holds ends the replay there; of one that one copy holds the records are taken from that copy. -/
def State.tearJournal (s : State) : State :=
  if s.jrn.flying.isEmpty then s
  else
    let n := s.freeVal % 4
    let s := s.freeNext
    if n = 0 then s
    else
      let one : List (Nat × Fin 2) := if n = 3 then [] else s.jrn.flying.map fun r => (r.1, Fin.ofNat 2 (n - 1))
      s.setJrn fun j => { j with log := j.log ++ j.flying, torn := j.torn ++ one, flying := [] }

/-- The reason of a segment's last durable SEG_COPY_BEGIN (R256). -/
def Journal.copyReason (j : Journal) (seg : Nat) : Nat :=
  ((j.log.reverse.findSome? fun r => match r.2 with
    | .segCopyBegin n why => if n = seg then some why else none
    | _ => none)).getD 1

/-- Segments as the last durable journal record about each leaves them, the journal pages that no copy holds being lost (R255, R263); the numbers of
lost records are given again, each one more than the last (R255). -/
def State.loseJournalTail (s : State) : State :=
  let s := s.tearJournal
  let gone := s.jrn.flying ++ s.jrn.page
  let lost := gone.map fun r => r.2
  let s := lost.reverse.foldl (fun s r => match r with
    | .copyDone seg .. => s.setSeg seg fun g => { g with st := .copying (s.jrn.copyReason seg) }
    | .eraseIntent seg => s.setSeg seg fun g => { g with st := .copied }
    | .segCopyBegin seg _ => s.setSeg seg fun g => { g with st := .sealed }
    | .segSeal seg .. => s.setSeg seg fun g => { g with st := .full }
    | .segOpen seg .. => s.setFlash fun f => { f with segs := f.segs.filter fun g => g.seg != seg }
    | .eraseDone seg _ => s.setFlash fun f => { f with segs := f.segs ++ [{ seg := seg, st := .erasing, stream := 2, chans := setOf (s.liveCh (segPos seg) (segSlot seg)) }] }
    | _ => s) s
  s.setJrn fun j => { j with flying := [], page := [], marks := [], acts := [], writing := none
                             jseqNext := (gone.head?.map fun r => r.1).getD j.jseqNext }

/-- Segments after a start: units that were in flight are not complete (R252), and no erase has been asked for. -/
def State.cutUnits (s : State) : State :=
  s.setFlash fun f => { f with segs := f.segs.map fun (g : Segment) => { g.cut f.jobs with eraseAsked := false } }

/-- The Landing of a mode, empty: the module's cells, no usable energy (R183, R196, R200, R218). -/
def emptyLanding (p : Part) (compact : Bool) : Landing :=
  let n := if !compact then 262144 else match p with | .ta16 => 131072 | _ => 65536
  { freeCells := n, cellTotal := n }

/-- The Mirror link ends at a full reset or power loss (R316, R318, R322, R445). -/
def State.mirrorCut (s : State) : State :=
  let m := s.mir
  if m.unpairAt.isSome || m.pairing.isNone then
    (s.setMir fun m => { stampStored := m.stampStored, conflicts := m.conflicts : Mirror }.resumeStamp).setKv fun v =>
      { v with spaces := v.spaces.map fun k => { k with ksState := 0, cfgLseq := none, seedDue := false, probeLseq := none } }
  else
    let cut := (s.mirrored.filter fun k => k.ksState == 5 || (k.ksState == 6 && !k.seeding)).map fun k => k.ks
    let s := s.setKv fun v => { v with spaces := v.spaces.map fun k =>
      if k.policyNow == .off then { k with cfgLseq := none }
      else { k with ksState := 3, seedDue := k.seedDue || k.cfgLseq.isSome || k.ksState == 7, cfgLseq := none, probeLseq := none, endApplied := false, syncSeen := [] } }
    s.setMir fun m => { m.cleared with state := 3, stateAt := s.now, authFailed := false, interrupted := true, log := [], logRanges := [],
                                       fullKs := dedup (m.fullKs ++ cut), probeAt := [] }.resumeStamp

-- The start instant.

/-- Statistics are zeroed at power-on, RESET#, soft reset and every start-up after power loss (R357, R433). -/
def zeroesStats (cause : Nat) : Bool := [1, 2, 3, 9, 10].contains cause

/-- A port at the start instant (R358, R433). -/
def State.freshPort (s : State) (p : Fin 2) (cause : Nat) : Port :=
  let q := s.port p
  let c := s.portCfg p
  let z := zeroesStats cause
  { present := q.present, retired := q.retired, resetFails := q.resetFails, phyGrant := if s.portUsable p then 8 else 0
    stats := if z then List.replicate 44 0 else q.stats
    rxOctetRem := if z then 0 else q.rxOctetRem
    spends := q.spends
    txOctetRem := if z then 0 else q.txOctetRem
    rxShared := c.sharedCells, rxHead := c.lossless.map (fun _ => c.headroom), txIdleSince := s.now }

/-- The PTP unit at the start instant: its stored settings stand, its clock restarts (R359, R433). -/
def Ptp.fresh (t : Ptp) (powerOn : Bool) : Ptp :=
  { cfg := t.cfg, ppsCfg := t.ppsCfg, ppsOffset := t.ppsOffset, lat := t.lat
    q := t.q.map fun x => { lost := if powerOn then 0 else x.lost } }

/-- The recorder at the start instant: the flash ring, its state and the dropped-event counter stand (R417, R429). -/
def Recorder.fresh (r : Recorder) (powerOn : Bool) : Recorder :=
  let n : Recorder := { flash := r.flash, next := r.next, copied := r.next, finalPage := r.finalPage, banks := r.banks, ondieOk := r.ondieOk,
                        flashOk := r.flashOk, oneCopy := r.oneCopy, dropped := if powerOn then 0 else r.dropped }
  { n with cursor := n.oldest, cursorLo := BitVec.ofNat 32 n.oldest }

/-- One more start of a cause, saturating at 255; the counts are zeroed at power-on (R432, R466). -/
def countCause (l : List Nat) (cause : Nat) : List Nat :=
  modAt (if cause = 1 then List.replicate 12 0 else l) (cause - 1) fun n => min 255 (n + 1)

/-- The AON island at the start instant (R17, R432, R466). The side-band settings return to reset only at power-on, RESET# and soft reset. Its
RW and W1C registers without a rule of their own, GLB_SCRATCH, GLB_INT_ENABLE, GLB_INT_STATUS and CLK_MEAS_SEL, reset at every full reset, as R433
has it and R452 does not; boot_fail stays until power-on (DESIGN CHOICE, log 71). -/
def Life.fresh (l : Life) (cause : Nat) (maint : Bool) (slot : Option Nat) : Life :=
  let rwl := cause ≤ 3
  { l with phase := 1, mainOn := true, aonOn := true, phaseEnded := false, cause := cause, counts := countCause l.counts cause
           bootEpoch := l.bootEpoch + 1, epochAt := l.clock, maint := maint, recovery := false, startSlot := slot
           closing := none, holdup := false, huThermal := false, huEnded := false, latched := none, svc := none, svcPort := 0
           ledgerFaults := if cause = 1 then 0 else l.ledgerFaults, lossCount := if cause = 1 then 0 else l.lossCount
           thermalOff := false, lockOk := false, refLost := !l.refOk, measSel := 0, measAt := none, measKhz := 0, measValid := false, scratch := 0
           intStatus := if cause = 1 then 0 else l.intStatus &&& 1, intEnable := 0, lastLedger := none
           supActive := if (l.sups.getD 0 {}).retired then 1 else 0
           i2cAddr := if rwl then BitVec.ofNat 7 (0x52 + l.straps.toNat % 4) else l.i2cAddr
           i2cEn := rwl || l.i2cEn, spiEn := rwl || l.spiEn, sbLock := !rwl && l.sbLock }

/-- FORMAT or SANITIZE at the start instant (R407, R408). -/
def Sanitize.fresh (x : Sanitize) (cause now : Nat) : Sanitize :=
  if x.state = 2 && cause = 1 then {}
  else { x with adm := none, runFrom := if x.state = 1 && x.stage = 1 then some now else none }

/-- The start instant of a start-up (R436): every unit at reset but for what R433 keeps. The budget is at its reset value until the first
budget-change instant (R37, log 7). -/
def State.startInstant (s : State) (cause : Nat) (maint : Bool) (slot : Option Nat) : State :=
  let on := cause == 1
  let s := ((((((s.endSources).pauseSanitize).loseJournalTail).cutUnits).revertTable).mirrorCut).dropUnplaced
  let cold := [1, 9, 10].contains cause
  let s := { s with
    life := s.life.fresh cause maint slot
    sb := {}
    mbx := {}
    tr := { counters := if on then {} else s.tr.counters, nextUid := s.tr.nextUid
            mirrorCredits := if s.part.ta then { granted := 256, inUse := 256 } else {} }
    kv := { s.kv with assemblies := [], spaces := s.kv.spaces.map (fun (k : KeySpace) =>
      { k with tweak := k.tweakStored + 2 ^ 24, tweakStored := k.tweakStored + 2 ^ 24 }) }
    land := emptyLanding s.part s.prism.compact
    prism := { s.prism with entries := [], cacheBuckets := [], valueCache := [], headerCache := [], nodeCache := [] }
    jrn := { s.jrn with pagesDurable := 0, closed := false }
    mover := {}
    flash := { s.flash with jobs := [], reads := [], copy := none, gcSpace := false, repacking := false, coolSince := none, pslc := false
                            dies := s.flash.dies.map (fun (d : Die) => { d with suspends := 0, resetTries := 0, credit := if cold then 181440000 else d.credit })
                            scrubMarks := if cold then [] else s.flash.scrubMarks }
    dram := { s.dram with mem := [], sram := [] }
    dma := {}
    pwr := { pads := s.pwr.pads, nextGrant := s.pwr.nextGrant }
    hold := { v10mV := s.hold.v10mV, commissionUf := s.hold.commissionUf, commissionDue := s.hold.commissionDue, chargeSince := s.now
              chargeFrom10mV := s.hold.v10mV, shortPending := s.hold.shortPending, shortJseq := s.hold.shortJseq }
    thm := { ctrl16 := s.thm.ctrl16, flash16 := s.thm.flash16, hotDie := s.thm.hotDie, t := s.thm.t, hotMs := s.thm.hotMs, lastSample := s.thm.lastSample }
    ports := [s.freshPort 0 cause, s.freshPort 1 cause]
    ptp := s.ptp.fresh on
    sec := { s.sec with quote := [], san := s.sec.san.fresh cause s.now }
    evr := s.evr.fresh on }
  (s.setPwr fun p => { p with cls := s.classInForce }).settleTokens

-- Full resets.

/-- A full reset takes effect (R430, R431): after its close, `ended` saying whether JRNL_CLOSE was written. While RESET# is held low the
module stays in reset. A reset latched during the close follows it (R441). RESET# chooses maintenance mode by STRAP3 (R464). -/
def State.fullReset (s : State) (r : FullReset) (ended : Bool) : State :=
  let s := if ended then s.closeJournal else s.setEvr fun e => { e with finalPage := false }
  let s := match s.life.latched with
    | some _ => s.setLife fun l => { l with counts := countCause l.counts r.cause }
    | none => s
  let r := s.life.latched.getD r
  if s.life.resetLow then
    let s := ((s.endSources).pauseSanitize).portsDown
    s.setLife fun l => { l with phase := 0, mainOn := false, closing := none, holdup := false, latched := some r, svc := none }
  else s.startInstant r.cause (if r.cause = 2 then s.life.straps[3] else r.maint) r.slot

/-- Request a full reset (R430, R440, R441): latched while a hold-up sequence or a close runs, with a close once a service instant has passed,
else at once. -/
def State.requestFull (s : State) (r : FullReset) : State :=
  if s.shutting then s.setLife fun l => { l with latched := some r }
  else if !s.life.mainOn then s
  else if s.canClose then s.beginSequence fun l => { l with closing := some r }
  else s.fullReset r false

/-- Maintenance mode after a full reset that does not choose it stays as it is (R464). -/
def State.fullOf (s : State) (cause : Nat) : FullReset := { cause := cause, maint := s.life.maint }

-- The charger.

/-- The charger starts under its standing grant, which never waits for tokens; in PS1 to PS4 its request is a wake event and the charge starts
in PS0 (R210, R217). -/
def State.startCharge (s : State) : State :=
  if s.hold.charging then s
  else if s.pwr.ps ≠ 0 then (s.setHold fun h => { h with chargeAsked := true }).wake
  else (s.setHold fun h => { h with charging := true, chargeGrant := some 0, chargeSince := s.now, chargeFrom10mV := h.v10mV }).settleTokens

/-- The charger stops, and its standing grant ends. -/
def State.stopCharge (s : State) : State :=
  ((s.setHold fun h => { h with charging := false, chargeGrant := none }).settleTokens).arbitrate

-- The index from flash.

/-- The rows that a rebuild puts into the index, those of the stash image last (R193, R196). -/
def State.indexRows (s : State) : List IdxRow :=
  let rows := s.jrn.replay.rows.filter fun r => s.kv.spaces.any fun k => k.ks == r.ks
  let stashed := fun (r : IdxRow) => s.jrn.slices.any fun x => x.stash.any fun e => e.2 == r.loc
  (rows.filter fun r => !stashed r) ++ rows.filter stashed

/-- Entries that a rebuild places in the bucket table: 95 % load of the compact table in compact index mode, else all (R200, R201). -/
def State.tableRoom (s : State) (rows : List IdxRow) : Nat :=
  if s.prism.compact then (if s.part = .ta16 then 637534208 else 318767104) else rows.length

/-- The lost-table entry of a row. -/
def IdxRow.lostEntry (r : IdxRow) : Option LostEntry :=
  match r.loc with
  | .lost i => some { index := i, ks := r.ks, key := r.key, len := r.len, adm := r.adm, epoch := r.epoch }
  | _ => none

/-- Put the rows of the durable index into the bucket table, with the lost table and the discarded ranges (R171, R193, R196). Keys marked lost
beyond a full table keep standing beside it (log 41). -/
def State.rebuildIndex (s : State) : State :=
  let rows := s.indexRows
  let lost := rows.filterMap IdxRow.lostEntry
  let ranges := s.jrn.replay.ranges.filter fun r => s.kv.spaces.any fun k => k.ks == r.ks
  let s := s.setPrism fun x => { x with entries := [], cacheBuckets := [] }
  let s := s.setKv fun k => { k with ranges := ranges, lost := lost.filter (fun l => decide (l.index < lostTable)),
                                     lostOver := lost.filter fun l => decide (lostTable ≤ l.index) }
  (rows.take (s.tableRoom rows)).foldl (fun s r => s.insertKey r.ks r.key r.loc) s

/-- Derive key counts, bytes and trees again from the index (R178, R180, R437 phase 7). -/
def State.recount (s : State) : State :=
  let rows := s.prism.entries.filterMap fun e => match s.keyAt e.loc, s.infoAt e.loc with
    | some (ks, key), some (len, _, _) => some (ks, { key := key, len := len, lost := e.loc.isLost : Leaf })
    | _, _ => none
  s.setKv fun v => { v with spaces := v.spaces.map fun k =>
    let mine := (rows.filter fun r => r.1 == k.ks).map fun r => r.2
    { k with keys := mine.length, bytes := sumBy mine fun l => if l.lost then 0 else l.len, keysReserved := 0, bytesReserved := 0
             tree := if k.ordered then mine.foldl (fun t l => setLeaf l t) [] else [] } }

/-- Entries beyond 95 % load of the compact table go to the spill table (R201). Which keys those are the spec does not say: those that stand
last in the order of the rebuilt rows (DESIGN CHOICE, log 52). -/
def State.spillOver (s : State) : State :=
  let rows := s.indexRows
  s.setPrism fun p => { p with entries := p.entries ++ (rows.drop (s.tableRoom rows)).map fun r => { s.newEntry r.ks r.key r.loc with place := .spill } }

/-- An open segment is closed short (R252): what its finished units hold stays, and its summary is programmed behind them and behind the padded rest of
a unit that was cut; SEG_SEAL follows with its short flag. -/
def State.closeShort (s : State) (g : Segment) : State :=
  let top := if g.st = .opened then g.prog else min g.next g.prog
  s.setSeg g.seg fun x => { x with st := .full, short := true, recs := g.recs.filter (fun r => decide (r.off + r.span ≤ top)), tail := [], prog := top, next := top }

/-- Close every segment short that has no SEG_SEAL. -/
def State.closeAllShort (s : State) : State :=
  ((s.flash.segs.filter fun g => g.st == .opened || g.st == .full).foldl (fun s g => s.closeShort g) s).pumpSummaries

/-- Whether a segment is still being closed short. -/
def State.closingShort (s : State) : Bool := s.flash.segs.any fun g => g.st == .full && g.short

-- Service resets.

/-- Step 2 of a service reset (R105, R434): outstanding ABORTs are decided, commands before their commit point end with ST_ABORTED. -/
def State.cancelAll (s : State) : State :=
  let s := (s.cmds.filter fun c => c.entry.opcode == 0x0A).foldl (fun s c => if (s.cmd? c.adm).isSome then s.checked c State.decideAbort else s) s
  let s := s.tr.qps.foldl (fun s q => s.cancelEarly q.uid) s
  (s.cmds.filter fun c => c.cancellable).foldl (fun s c => match s.cmd? c.adm with | some c => s.cancel c | none => s) s

/-- Program units not journalled yet are written again: their records drain afresh; page reads and the copies of a relocation are given up, the
source being copied again (R434, R445). -/
def State.dropUnits (s : State) : State :=
  let gone := s.flash.jobs.filter fun j => !j.journalled
  let tails := s.flash.segs.flatMap fun g => g.tail
  let back := (gone.flatMap fun j => j.items) ++ tails
  let s := s.setLand fun l => { l with recs := l.recs.map (fun (r : LRec) =>
    if back.any (fun i => i.land == some r.id) then
      { r with job := none, place := none, st := if r.wt then .valid else if r.superseded then .superseded else .visible } else r) }
  let s := s.setFlash fun f => { f with jobs := f.jobs.filter (fun j => j.journalled), segs := f.segs.map (fun g => { g.cut gone with tail := [] })
                                        reads := [], copy := none }
  let dead := s.pwr.grants.filter fun g => match g.why with
    | .program j _ => gone.any fun x => x.id == j
    | .read _ | .rebuild _ => true
    | _ => false
  let s := s.setPwr fun p => { p with queue := p.queue.filter fun q => match q.why with
    | .program j _ => !(gone.any fun x => x.id == j)
    | .read _ | .rebuild _ => false
    | _ => true }
  (dead.foldl (fun s g => s.returnGrant g.id) s).dropUnplaced

/-- A checkpoint slice that has no CKPT_DONE is begun anew after the reset (R445). -/
def State.dropSlice (s : State) : State :=
  match s.jrn.writing with
  | none => s
  | some x =>
    if s.jrn.acts.any fun a => a.2 == .slice x.slice then s
    else
      let s := (s.returnFor .checkpoint).setPwr fun p => { p with queue := p.queue.filter fun q => q.why != .checkpoint }
      s.setJrn fun j => { j with writing := none, sliceNext := x.slice, sealsSince := max j.sealsSince 8 }

/-- The cells of the Landing, scanned anew (R40). -/
def State.scanCells (s : State) : State :=
  s.setLand fun l =>
    let n := sumBy l.recs fun r => r.cells.length
    { l with inUse := n, freeCells := l.cellTotal - n }

/-- A service reset begins (R434 steps 1 to 4, R433). `sv` says why. A compact index change keeps it open until the Landing is drained (R199). -/
def State.beginService (s : State) (sv : SvcReset) : State :=
  let s := s.cancelAll
  let s := (s.freeUnfilled).setLife fun l => { l with svc := some sv }
  let s := s.setPrism fun p => { p with cacheBuckets := [] }
  let s := (s.setDma fun _ => {}).setMover fun _ => {}
  let s := s.setHold fun h => { h with measuring := false, measureAsked := h.measureAsked || h.measuring, retryAt := if h.measuring then s.now + 60 * oneSec else h.retryAt }
  let s := (s.returnFor .measurement).setPwr fun p => { p with psBusy := false, ps := 0, psTarget := 0 }
  let s := (s.dropUnits).dropSlice
  let s := (if s.inService then s.closeAllShort else s).settleTokens
  if sv.compact then s.pumpDrain else s

end Sys2Proof.Machine
end

