-- ==== Sys2Proof/Machine/UpdateOps.lean ====
section
/-! DEFINITION. Firmware update: image headers and slots (11 R360-R363), the session (11 R364-R368), the chain-ferry forward (11 R371, R372),
activation, confirmation and fallback (11 R374-R382). -/

namespace Sys2Proof.Machine

-- Images.

/-- A field of an image header (R360). -/
def hdr (h : Bytes) (off len : Nat) : Nat := fieldAt h off len

/-- block_count of a header. -/
def blockCount (h : Bytes) : Nat := hdr h 36 2

/-- Length of a block as stored: data blocks, the last data block, the trailer (R360, R361). -/
def blockLen (h : Bytes) (i : Nat) : Nat :=
  if i = blockCount h then 512 else if i + 1 = blockCount h then hdr h 40 4 else 65536

/-- Whether a request payload is a well-formed image header (R366 rule 1). -/
def headerOk (h : Bytes) : Bool :=
  let n := blockCount h
  let last := hdr h 40 4
  h.length == 4608 && hdr h 0 2 == 0xC5F3 && hdr h 2 2 == 1 && decide (hdr h 4 1 < 8) && hdr h 5 3 == 0 && hdr h 38 2 == 0 &&
    allZero (slice h 48 16) && allZero (slice h 192 320) && ((List.range 16).all fun i => hdr h (68 + 8 * i) 4 == 0) &&
    decide (1 ≤ n) && decide (n ≤ 1022) && decide (1 ≤ last) && decide (last ≤ 65536) && hdr h 44 4 == (n - 1) * 65536 + last

/-- A version number as software compares it: major, minor, patch, build (R113). -/
def verKey (v : Nat) : Nat :=
  (v % 65536) * 2 ^ 48 + (v / 65536 % 65536) * 2 ^ 32 + (v / 2 ^ 32 % 65536) * 65536 + v / 2 ^ 48 % 65536

/-- minor in [15:0], patch in [31:16]: p0 of the update events (R384). -/
def verParam (v : Nat) : Nat := v / 65536 % 2 ^ 32

/-- The header bit of a part (R360). -/
def Part.hdrBit : Part → Nat
  | .ta16 => 0 | .ta08 => 1 | .sb08 => 2

/-- The slot of a number: 0 A, 1 B, 2 recovery. -/
def Update.slot (u : Update) (n : Nat) : Slot :=
  match n with | 0 => u.slotA | 1 => u.slotB | _ => u.slotR

/-- Change a slot. -/
def Update.setSlot (u : Update) (n : Nat) (f : Slot → Slot) : Update :=
  match n with
  | 0 => { u with slotA := f u.slotA }
  | 1 => { u with slotB := f u.slotB }
  | _ => { u with slotR := f u.slotR }

/-- The target slot: the one of A and B that is not confirmed (R363). -/
def Update.target (u : Update) : Nat := 1 - u.confirmed

/-- A block of a slot. -/
def Slot.block (x : Slot) (i : Nat) : Bytes := ((x.blocks.find? fun b => b.1 == i).map fun b => b.2).getD []

/-- What the signature covers: the header and the data blocks as stored (R361). -/
def Slot.signed (x : Slot) : Bytes := x.header ++ (List.range (blockCount x.header)).flatMap x.block

/-- The measurement of a slot's image (R391); images placed at manufacture have the digest they were made with. -/
def Update.digest (u : Update) (n : Nat) : Bytes :=
  let x := u.slot n
  if x.header.isEmpty then Config.fusedDigest (2 + n) else sha256 x.signed

/-- Whether a complete image's trailer verifies (R361, R369). -/
def Slot.verifies (x : Slot) : Bool :=
  let t := x.block (blockCount x.header)
  allZero (slice t 416 96) && (Config.bootKey (slice t 384 32)).any fun key => pssOk key (sha256 x.signed) (t.take 384)

/-- A hand-over class of an image: produced, accept_min, accept_max (R374). The shipped images' entries are 1, 1, 1 (DESIGN CHOICE, log 23). -/
def Slot.handover (x : Slot) (cls : Nat) : Option (Nat × Nat × Nat) :=
  if x.header.isEmpty then some (1, 1, 1)
  else ((List.range 16).find? fun i => hdr x.header (64 + 8 * i) 1 == cls).map fun i =>
    (hdr x.header (65 + 8 * i) 1, hdr x.header (66 + 8 * i) 1, hdr x.header (67 + 8 * i) 1)

/-- Whether the image of `b` reads the records of a class that the image of `a` writes. -/
def accepts (a b : Slot) (cls : Nat) : Bool :=
  match a.handover cls, b.handover cls with
  | some (p, _), some (_, lo, hi) => decide (lo ≤ p) && decide (p ≤ hi)
  | _, _ => false

/-- Whether `b` takes every required class over from `a` (R374, R375). -/
def acceptsAll (a b : Slot) : Bool := (List.range 8).all fun i => accepts a b (i + 1)

/-- The slot whose image runs. -/
def State.runningSlot (s : State) : Slot := s.upd.slot s.upd.active

/-- Whether both SUPs are in service (R32). -/
def State.supsOk (s : State) : Bool := s.life.sups.all fun p => !p.retired

/-- R375: whether the target image is compatible with the running state; the standby mirrors the active SUP except while it reloads and in the steps
of a hitless fallback. -/
def State.compatible (s : State) : Bool :=
  let t := s.upd.slot s.upd.target
  let v := verKey s.fwActive
  s.supsOk && !s.upd.reload && !s.upd.rollback && decide (verKey (hdr t.header 16 8) ≤ v) && decide (v ≤ verKey (hdr t.header 24 8)) &&
    decide (hdr t.header 32 2 ≤ s.upd.cfgVer) && decide (s.upd.cfgVer ≤ hdr t.header 34 2) && acceptsAll s.runningSlot t && accepts t s.runningSlot 8

-- Sources.

/-- The source identity as a 64-bit number (R365). -/
def UpdSrc.code (x : UpdSrc) : Nat := x.kind + 256 * x.port + 65536 * x.number + 2 ^ 32 * x.addr

/-- The source identity of a command (R365). -/
def State.srcOf (s : State) (c : Cmd) : UpdSrc :=
  match c.src with
  | .skiff u => match s.tr.sessions.find? fun x => x.uid == u with
    | some x => { kind := if c.chainFerry then 3 else 1, port := x.rx.port.val, number := x.sid, addr := addrTail x.rx.hostAddr }
    | none => { kind := 1, port := 0, number := 0, addr := 0 }
  | .ferry u => match s.tr.qps.find? fun q => q.uid == u with
    | some q => { kind := 2, port := q.rx.port.val, number := q.qp, addr := addrTail q.rx.hostAddr }
    | none => { kind := 2, port := 0, number := 0, addr := 0 }
  | _ => { kind := 4, port := 0, number := 0, addr := 0 }

/-- Two offers from the same source (R365). -/
def UpdSrc.same (a b : UpdSrc) : Bool := a.kind == b.kind && (a.kind == 4 || a.addr == b.addr)

-- The forward.

/-- EV_CF_FORWARD with the forward's state (R372, R384). -/
def State.fwdEvent (s : State) : State := s.logEv evCfForward uUpdate s.upd.fwd.state s.upd.fwd.status.toNat

/-- Change the forward. -/
def State.setFwd (s : State) (f : Fwd → Fwd) : State := s.setUpd fun u => { u with fwd := f u.fwd }

/-- A port's IPv4 address, first octet in bits [31:24] (R126). -/
def PortCfg.v4 (c : PortCfg) : Nat := c.ipv4.1.toNat % 2 ^ 32

/-- The neighbour's address, 16 bytes (R371). -/
def State.neighbour (s : State) (f : Fwd) : Bytes :=
  let v := f.value0.toNat
  let p : Fin 2 := Fin.ofNat 2 (v / 2)
  match v / 4 % 4 with
  | 0 => List.replicate 10 0 ++ [0xFF, 0xFF] ++ be 4 (v / 2 ^ 32)
  | 1 => be 8 (s.portCfg p).ipv6.1.toNat ++ be 8 f.value1.toNat
  | _ => be 8 0xFE80000000000000 ++ be 8 f.value1.toNat

/-- The neighbour's Skiff UDP port (R371). -/
def Fwd.udpPort (f : Fwd) : Nat := if f.value0.toNat / 2 ^ 16 % 2 ^ 16 = 0 then 47180 else f.value0.toNat / 2 ^ 16 % 2 ^ 16

/-- Send a datagram of the forward's client session. -/
def State.fwdSend (s : State) (dg : Bytes) : State :=
  let p : Fin 2 := Fin.ofNat 2 (s.upd.fwd.value0.toNat / 2)
  s.sendIp p (s.neighbour s.upd.fwd) (s.portCfg p).txPcp 0 (8 + dg.length) (.skiffClient s.upd.fwd.udpPort dg)

/-- Open a client session with the neighbour: HELLO with the chain-ferry credential (R372 step 1). Its tag is over the neighbour's serial
number, which this module is not told: a free value. -/
def State.fwdHello (s : State) : State :=
  let lead := le 2 32 ++ le 2 8704 ++ le 1 1 ++ le 3 0 ++ le 4 0 ++ le 4 s.freeVal
  let proof := if s.sec.secret.isSome then le 32 (Config.free (s.freeCtr + 1)) else le 32 0
  let s := s.freeNext.freeNext
  let s := s.setFwd fun f => { f with state := 1, lastTry := s.now, sent := f.held, sid := 0xFFFF, cookie := 0, seq := 0, flight := [] }
  s.fwdSend (skiffHdr 1 0xFFFF 0 0 0 0 0 0 0 0 ++ lead ++ le 1 3 ++ le 15 0 ++ proof)

/-- The blocks of the forwarded image that this module holds (R372 step 3). -/
def State.fwdHave (s : State) : List Nat :=
  if s.upd.state ≠ 0 && s.upd.header == s.upd.fwd.header then sortNat s.upd.held else List.range (blockCount s.upd.fwd.header + 1)

/-- The submission entry of a forwarded command under a tag (R81). -/
def fwdEntry (op tag len resp : Nat) (args : Bytes) : Bytes :=
  le 1 op ++ le 1 0 ++ le 2 tag ++ le 4 0 ++ le 12 0 ++ le 4 len ++ le 12 0 ++ le 4 resp ++ fit 24 args

/-- host_ack of the client session: every command before the oldest one not yet answered (R135). -/
def Fwd.ack (f : Fwd) : BitVec 32 := (f.flight.head?.map fun x => x.1).getD f.seq

/-- A command of the client session, in a Skiff CMD under the next sequence number; the low half of that number is its tag (R128, R135, R372;
the tag is the model's choice, log 24). -/
def State.fwdCmd (s : State) (op resp : Nat) (args payload : Bytes) : State :=
  let f := s.upd.fwd
  let seq := f.seq.toNat
  (s.setFwd fun f => { f with seq := f.seq + 1 }).fwdSend
    (skiffHdr 3 f.sid 0 seq f.ack.toNat 0 0 0 f.cookie.toNat 0 ++ fwdEntry op (seq % 65536) payload.length resp args ++ payload)

/-- The offer, or the chunks of a block, are under way (R372). -/
def State.fwdFlight (s : State) (what : Option Nat) : State := s.setFwd fun f => { f with flight := f.flight ++ [(f.seq, what)] }

/-- They have been answered. -/
def Fwd.answered (f : Fwd) (what : Option Nat) : Fwd := { f with flight := f.flight.filter fun x => x.2 != what }

/-- Send the chunks of one block, read from the slot under class 3 tokens, those of a read for each of its pages; without them it waits
(R211, R372). -/
def State.fwdBlock (s : State) (i : Nat) : State :=
  let b := (s.upd.slot s.upd.fwd.slot).block i
  let s := if (s.grantFor .forward).isSome || (s.pwr.queue.any fun q => q.why == .forward) then s
    else s.askTokens 3 (4 * max 1 (ceilDiv b.length 16384)) .forward
  if (s.grantFor .forward).isNone then s
  else
  let s := (List.range (max 1 (ceilDiv b.length 8192))).foldl (fun s k => s.fwdCmd 0x31 0 (le 4 i ++ le 4 (8192 * k)) (slice b (8192 * k) 8192))
    (s.fwdFlight (some i))
  (s.setFwd fun f => { f with sent := f.sent ++ [i] }).returnFor .forward

/-- Send what may be sent: blocks the downstream lacks, ascending, within the client window of 32 commands, that is 4 blocks; the forward is
done once the downstream holds every block (R372). -/
def State.fwdPump (s : State) : State :=
  if s.upd.fwd.state ≠ 2 then s
  else
    let total := blockCount s.upd.fwd.header + 1
    if (List.range total).all fun i => s.upd.fwd.held.contains i then (s.setFwd fun f => { f with state := 3 }).fwdEvent
    else
      let open_ := (s.upd.fwd.sent.filter fun i => !s.upd.fwd.held.contains i).length
      let next := (s.fwdHave.filter fun i => !s.upd.fwd.held.contains i && !s.upd.fwd.sent.contains i).take (4 - open_)
      next.foldl (fun s i => s.fwdBlock i) s

/-- Start the forward of a session that opens (R372): not made towards the port its first source came from. -/
def State.fwdStart (s : State) : State :=
  let f : Fwd := { value0 := s.stored.cf0, value1 := s.stored.cf1, header := s.upd.header, slot := s.upd.target, since := s.now }
  let s := s.setFwd fun _ => f
  if !f.value0.getLsbD 0 then s
  else
    let loop := s.upd.sources.head?.any fun x => x.kind != 4 && x.port == f.value0.toNat / 2 % 2
    if loop then (s.setFwd fun f => { f with state := 5 }).fwdEvent else s.fwdHello

/-- Abandon a forward that has not ended (R372). -/
def State.fwdAbandon (s : State) : State :=
  if [1, 2, 6].contains s.upd.fwd.state then (s.setFwd fun f => { f with state := 4 }).fwdEvent else s

/-- The forward goes to retrying. -/
def State.fwdRetry (s : State) (st : BitVec 16) : State := (s.setFwd fun f => { f with state := 6, status := st, lastTry := s.now }).fwdEvent

-- The session.

/-- The session ends with a result. -/
def State.endSession (s : State) (result : Nat) : State :=
  s.setUpd fun u => { u with state := 0, step := if u.reload then u.step else 0, result := result, sources := [], header := [], held := [], partials := [],
                             fromRecovery := false }

/-- Abandon a session in receiving or ready (R368). -/
def State.abandonUpdate (s : State) : State :=
  let s := s.fwdAbandon
  let s := s.setUpd fun u => u.setSlot u.target fun _ => {}
  (s.endSession 6).logEv evUpdEnd uUpdate 6 0

/-- Open a session in the target slot (R364, R366 rules 5 and 7). -/
def State.openUpdate (s : State) (src : UpdSrc) (h : Bytes) : State :=
  let v := hdr h 8 8
  let s := s.setUpd fun u => { (u.setSlot u.target fun _ => { state := 1, version := v, hash := sha256 h, header := h }) with
    state := 1, sources := [src], header := h, held := [], partials := [], badSigLast := false, autoUsed := u.autoDone.contains (sha256 h), testOk := false, idleS := s.now
    fromRecovery := false }
  (s.logEv evUpdOffer uUpdate (verParam v) (src.kind + 256 * src.port)).fwdStart

/-- Whether a source belongs to the session (R367). -/
def Update.has (u : Update) (src : UpdSrc) : Bool := u.sources.any fun x => x.same src

/-- Whether a source is the session's own, its first (R366 rule 5). -/
def Update.isFirst (u : Update) (src : UpdSrc) : Bool := u.sources.head?.any fun x => x.same src

/-- A command of the session has come from one of its sources: its abandonment timer starts again (R368). -/
def State.heardFrom (s : State) (src : UpdSrc) : State := if s.upd.has src then s.setUpd fun u => { u with idleS := s.now } else s

/-- Keep what an offer of a queue pair found, `before`, until its response has been taken (R84). -/
def State.noteOffer (s before : State) (c : Cmd) (src : UpdSrc) : State :=
  match c.src with
  | .ferry _ =>
    let b := before.upd
    let was : OfferUndo :=
      { adm := c.adm, src := src, opened := b.state == 0 || s.upd.header != b.header, state := b.state, result := b.result, sources := b.sources,
        header := b.header, held := b.held, partials := b.partials, slot := b.slot b.target, badSigLast := b.badSigLast, autoUsed := b.autoUsed, fwd := b.fwd }
    s.setUpd fun u => { u with undo := some was }
  | _ => s

/-- Ask the class 3 tokens of an image verification, once (R211, R369). -/
def State.askVerify (s : State) : State :=
  if (s.grantFor .verifying).isSome || (s.pwr.queue.any fun q => q.why == .verifying) then s else s.askTokens 3 8 .verifying

/-- A bitmap of 128 bytes (R366). -/
def bitmap (l : List Nat) : Bytes :=
  (List.range 128).map fun k => l.foldl (fun (b : Byte) i => if i / 8 = k then b ||| BitVec.ofNat 8 (2 ^ (i % 8)) else b) 0

-- Activation.

/-- Measure the image of a slot into an entry. -/
def State.measureSlot (s : State) (i slot : Nat) : State :=
  s.measure i (if slot = 2 then s.ident.fwRecovery else (s.upd.slot slot).version) (s.upd.digest slot)

/-- An activation step begins to run the image of a slot: entry 1 of R376, or recovery's restart (R388). -/
def State.beginActivation (s : State) (adm : Option Nat) : State :=
  let linked := (List.range 2).filter fun p => (s.ports.getD p {}).link
  if s.life.recovery then
    let s := s.setUpd fun u => { u with state := 4, step := 0, fromRecovery := true, actAdm := none, linkedBefore := linked, mirrorBefore := false }
    s.requestFull { cause := 12, slot := some s.upd.target }
  else
    let s := s.setUpd fun u => { u with state := 4, step := 1, actAdm := adm, linkedBefore := linked, mirrorBefore := s.mir.state == 2 }
    match adm with
    | some a => s.leave a fun c => { c with st := .activating }
    | none => s

/-- UPD_ACTIVATE in ready (R370, R375). -/
def State.activate (s : State) (c : Cmd) : State :=
  if s.life.recovery || s.compatible then s.beginActivation (some c.adm) else s.fail c stUpdIncompatible

/-- Complete the UPD_ACTIVATE in progress, if there is one. -/
def State.endActivate (s : State) (st : Status) : State :=
  match s.upd.actAdm.bind s.cmd? with
  | some c => (s.setUpd fun u => { u with actAdm := none }).complete c st 0 0 []
  | none => s.setUpd fun u => { u with actAdm := none }

/-- The configuration data of the earlier version is in force again (R377, R381). -/
def Update.restoreCfg (u : Update) : Update := { u with cfgVer := u.preCfg.getD u.cfgVer, preCfg := none }

/-- A revert during activating by a service reset (R378): roles swap back, the slot stays ready, and only UPD_ACTIVATE activates it from now on
(R373). -/
def State.revertActivation (s : State) : State :=
  if s.upd.state ≠ 4 then s
  else
    let swapped := decide (4 ≤ s.upd.step)
    let s := if swapped then s.setLife fun l => { l with supActive := 1 - l.supActive } else s
    let conf := s.upd.confirmed
    let s := s.setUpd fun u =>
      { (u.restoreCfg.setSlot conf fun x => { x with state := 3 }) with state := 3, step := 0, result := 7, active := conf, autoUsed := true }
    let s := s.setLife fun l => { l with sups := l.sups.map fun p => { p with image := conf } }
    let s := [2, 3, 4, 5].foldl (fun s i => s.measureSlot i conf) s
    (s.logEv evUpdFallback uUpdate 7 3).endActivate stUpdReverted

/-- A revert of step 2 that finds a required record it cannot convert (R378): the standby is reloaded with the image that runs, the slot is rejected. -/
def State.refuseHandOver (s : State) : State :=
  let s := s.fwdAbandon
  let s := (s.setLife fun l => { l with sups := modAt l.sups (1 - l.supActive.val) fun p => { p with image := s.upd.active } }).measureSlot 3 s.upd.active
  let s := (s.setUpd fun u => (u.setSlot u.target fun x => { x with state := 5 }).restoreCfg).endSession 5
  (s.logEv evUpdFallback uUpdate 5 4).endActivate stUpdIncompatible

/-- Fallback in confirming (R381, R388): hitless where the previous image takes every required class over, else by an update restart. -/
def State.fallback (s : State) (cause : Nat) : State :=
  if s.upd.state ≠ 5 then s
  else
    let s := s.fwdAbandon
    let conf := s.upd.confirmed
    let from_ := s.upd.fromRecovery
    let hitless := !from_ && s.supsOk && acceptsAll s.runningSlot (s.upd.slot conf)
    let res := if hitless then 2 else 3
    let s := s.setUpd fun u => (u.setSlot u.target fun x => { x with state := 5 }).restoreCfg
    let s := (s.endSession res).logEv evUpdFallback uUpdate res cause
    if hitless then s.setUpd fun u => { u with rollback := true, step := 1, reload := false }
    else (s.setUpd fun u => u.setSlot conf fun x => { x with state := if x.state = 4 then 3 else x.state }).requestFull
      { cause := 12, slot := some (if from_ then 2 else conf) }

/-- Confirmation (R380). -/
def State.confirm (s : State) (by_ : Nat) : State :=
  let old := s.upd.confirmed
  let s := s.setUpd fun u =>
    let u := (u.setSlot u.active fun x => { x with state := 3 }).setSlot old fun x =>
      { x with state := if old = u.active then 3 else if x.state = 3 then 4 else x.state }
    { u with confirmed := u.active % 2, preCfg := none }
  let ms_ := (s.now - s.upd.confirmAt) / ms
  (s.endSession 1).logEv evUpdConfirm uUpdate by_ (min ms_ (2 ^ 32 - 1))

/-- How a start-up settles the session (R382). `slot` is the slot started. -/
def State.settleUpdate (s : State) (slot : Nat) : State :=
  let cause := s.life.cause
  let evCause := if cause = 1 || cause = 9 || cause = 10 then 5 else 6
  let s := s.setUpd fun u => { u with partials := [], waitAct := [], undo := none, actAdm := none, rollback := false, reload := false, step := 0, active := slot, verifyAt := s.now
                                      fwd := if [1, 2].contains u.fwd.state then { u.fwd with state := 6, lastTry := s.now } else u.fwd }
  let back := fun (s : State) =>
    let s := s.setUpd fun u => { (u.restoreCfg.setSlot u.confirmed fun x => { x with state := if x.state = 4 then 3 else x.state }) with
      state := 3, result := 7, fromRecovery := false, autoUsed := true }
    s.logEv evUpdFallback uUpdate 7 evCause
  if s.upd.state = 4 && s.upd.fromRecovery && slot = s.upd.target then
    let t := s.upd.slot slot
    let old := s.upd.cfgVer
    let new := hdr t.header 34 2
    let s := s.setUpd fun u => { u with state := 5, confirmAt := s.now, faultSeen := false, testOk := false, cpDone := 0, preCfg := some old, cfgVer := new }
    if old = new then s else s.logEv evCfgMigrate uUpdate old new
  else if s.upd.state = 4 then back s
  else if s.upd.state = 5 then
    if cause = 3 || cause = 4 then
      let s := s.setUpd fun u => (u.setSlot u.target fun x => { x with state := 5 }).restoreCfg
      let s := s.setUpd fun u => u.setSlot u.confirmed fun x => { x with state := if x.state = 4 then 3 else x.state }
      ((s.fwdAbandon).endSession 3).logEv evUpdFallback uUpdate 3 6
    else back s
  else s

end Sys2Proof.Machine
end

