-- ==== Sys2Proof/Machine/Update.lean ====
section
/-! DEFINITION. The update commands and what an update session does by itself (11 R364-R381; 03 R118-R120). -/

namespace Sys2Proof.Machine

/-- UPD_OFFER past the common checks, rule by rule of R366; from a source of the session it starts the abandonment timer again (R368). -/
def State.offer (s : State) (c : Cmd) : State :=
  let h := c.payload.getD []
  let src := s.srcOf c
  let n := blockCount h
  let u := s.upd
  let hash := sha256 h
  let v := verKey s.fwActive
  let runs := s.runningSlot.hash == hash
  let forPart := bitOf (hdr h 4 1) s.part.hdrBit
  let rejected := fun (x : Slot) => x.state == 5 && x.hash == hash
  let inRange := s.life.recovery || (decide (verKey (hdr h 16 8) ≤ v) && decide (v ≤ verKey (hdr h 24 8)))
  let s := s.heardFrom src
  let noted := fun (s' : State) => s'.noteOffer s c src
  if !headerOk h then s.fail c stInvalid
  else if c.respRoom < 128 then s.fail c stBufferShort
  else if runs then s.complete c stOk (n + 1) 0 (bitmap (List.range (n + 1)))
  else if !forPart || !inRange || rejected u.slotA || rejected u.slotB then s.fail c stUpdIncompatible
  else if u.state ≠ 0 && sha256 u.header == hash then
    let s := s.setUpd fun u => { u with sources := if u.has src then u.sources else u.sources ++ [src], idleS := s.now }
    (noted s).complete c stOk u.held.length 0 (bitmap u.held)
  else if u.state ≠ 0 then
    if (u.state = 1 || u.state = 3) && u.isFirst src then (noted ((s.abandonUpdate).openUpdate src h)).complete c stOk 0 0 (bitmap [])
    else s.complete c stUpdBusy (hdr u.header 8 8) ((u.sources.head?.map UpdSrc.code).getD 0) []
  else (noted (s.openUpdate src h)).complete c stOk 0 0 (bitmap [])

/-- UPD_OFFER (R366). -/
def execUpdOffer (s : State) : Host.Outcome State Fault Refusal := .next (s.runSup 0x30 State.offer)

/-- A block is complete: kept if its CRC-32C is good, else discarded (R119, R367); the last one starts verification (R369). -/
def State.blockComplete (s : State) (c : Cmd) (src : UpdSrc) (i : Nat) (data : Bytes) : State :=
  let s := s.setUpd fun u => { u with partials := u.partials.filter fun p => p.index != i }
  if (crc32c data).toNat ≠ hdr s.upd.header (512 + 4 * i) 4 then
    (s.logEv evUpdBlockBad uUpdate i src.kind).fail c stUpdBadBlock
  else
    let s := (s.under 12 .image fun s => (s.copyHouse 7 data.length i).metaProgram (2 * alignTo 32768 data.length)).setUpd fun u =>
      { (u.setSlot u.target fun x => { x with blocks := x.blocks ++ [(i, data)] }) with held := u.held ++ [i] }
    let s := if s.upd.held.length = blockCount s.upd.header + 1 then (s.setUpd fun u => { u with state := 2, verifyAt := s.now }).askVerify else s
    (s.ok c 1 0).fwdPump

/-- UPD_BLOCK past the common checks (R119, R367). -/
def State.block (s : State) (c : Cmd) : State :=
  let src := s.srcOf c
  let i := c.entry.arg 40 4
  let off := c.entry.arg 44 4
  let data := c.payload.getD []
  let u := s.upd
  let s := s.heardFrom src
  if u.state ≠ 1 || !u.has src then s.fail c stUpdState
  else
    if blockCount u.header < i || blockLen u.header i < off + data.length then s.fail c stInvalid
    else if u.held.contains i then s.ok c 1 0
    else
      let old := u.partials.find? fun p => p.index == i
      let good := match old with
        | some p => p.owner.same src && off == p.data.length
        | none => off == 0
      if !good then s.fail c stSeq
      else
        let all := ((old.map fun p => p.data).getD []) ++ data
        if all.length = blockLen u.header i then s.blockComplete c src i all
        else
          (s.setUpd fun u => { u with partials := u.partials.filter (fun p => p.index != i) ++ [{ index := i, owner := src, data := all, at_ := s.now }] }).ok
            c 0 0

/-- UPD_BLOCK (R367). -/
def execUpdBlock (s : State) : Host.Outcome State Fault Refusal := .next (s.runSup 0x31 State.block)

/-- UPD_ACTIVATE past the common checks (R370): in verifying it waits apart from the mailbox. -/
def State.activateCmd (s : State) (c : Cmd) : State :=
  let s := s.heardFrom (s.srcOf c)
  match s.upd.state with
  | 3 => s.activate c
  | 2 => (s.leave c.adm fun c => { c with st := .activating }).setUpd fun u => { u with waitAct := u.waitAct ++ [c.adm] }
  | 0 => s.fail c (if s.upd.badSigLast then stUpdBadSig else stUpdState)
  | _ => s.fail c stUpdState

/-- UPD_ACTIVATE (R370, R376). -/
def execUpdActivate (s : State) : Host.Outcome State Fault Refusal := .next (s.runSup 0x32 State.activateCmd)

/-- UPD_CONFIRM (R379): confirms at once in confirming. -/
def execUpdConfirm (s : State) : Host.Outcome State Fault Refusal :=
  .next (s.runSup 0x33 fun s c => if s.upd.state = 5 then (s.confirm 1).ok c 0 0 else s.fail c stUpdState)

/-- Decide the UPD_ACTIVATEs that waited for verification (R370). -/
def State.decideWaiting (s : State) : State :=
  let w := s.upd.waitAct
  w.foldl (fun s a => match s.cmd? a with | some c => s.activateCmd c | none => s) (s.setUpd fun u => { u with waitAct := [] })

/-- Verification has ended: `badBlocks` are the blocks that failed their CRC-32C when read back (R369). -/
def State.verified (s : State) (badBlocks : List Nat) : State :=
  if s.upd.held.any fun i => badBlocks.contains i then
    (s.setUpd fun u => { (u.setSlot u.target fun x => { x with blocks := x.blocks.filter (fun b => !badBlocks.contains b.1) }) with
        state := 1, held := u.held.filter fun i => !badBlocks.contains i }).decideWaiting
    else
      let x := s.upd.slot s.upd.target
      if x.verifies then
        let took := (s.now - s.upd.verifyAt) / ms
        let s := s.setUpd fun u => { (u.setSlot u.target fun x => { x with state := 2 }) with state := 3 }
        (s.logEv evUpdVerified uUpdate (verParam x.version) took).decideWaiting
      else
        let s := (s.fwdAbandon).setUpd fun u => u.setSlot u.target fun x => { x with state := 6 }
        (((s.endSession 4).setUpd fun u => { u with badSigLast := true }).logEv evUpdBadSig uUpdate (verParam x.version) 0).decideWaiting

/-- UPD_VERIFICATION_DONE (R369): the verification, which runs under class 3 tokens (R211), has ended. -/
def execUpdVerificationDone (badBlocks : List Nat) (s : State) : Host.Outcome State Fault Refusal :=
  .next (
    if s.upd.state ≠ 2 || !s.running then s
    else if (s.grantFor .verifying).isNone then s.askVerify
    else (s.returnFor .verifying).verified badBlocks)

/-- PARTIAL_BLOCK_TIMEOUT (R367): a partial block without a chunk for 10 s is discarded. -/
def execPartialBlockTimeout (s : State) : Host.Outcome State Fault Refusal :=
  .next (s.setUpd fun u => { u with partials := u.partials.filter fun p => !s.past p.at_ (10 * oneSec) })

/-- UPD_SESSION_ABANDON (R368). -/
def execUpdSessionAbandon (s : State) : Host.Outcome State Fault Refusal :=
  .next (if (s.upd.state = 1 || s.upd.state = 3) && s.past s.upd.idleS (3600 * oneSec) then s.abandonUpdate else s)

/-- CF_FORWARD_RETRY (R372): every 2 s a new session, abandoned after 1 h without success. -/
def execCfForwardRetry (s : State) : Host.Outcome State Fault Refusal :=
  .next (
    if s.upd.fwd.state ≠ 6 || !s.running || !s.past s.upd.fwd.lastTry (2 * oneSec) then s
    else if s.past s.upd.fwd.since (3600 * oneSec) then (s.setFwd fun f => { f with state := 4 }).fwdEvent
    else s.fwdHello)

/-- CF_FORWARD_RESPONSE (R372): what the neighbour answered. -/
def execCfForwardResponse (a : FwdAnswer) (s : State) : Host.Outcome State Fault Refusal :=
  .next (
    let f := s.upd.fwd
    if (f.state ≠ 1 && f.state ≠ 2) || !s.running then s
    else match a with
      | .helloAck sid cookie =>
        if f.state = 1 then ((s.setFwd fun f => { f with sid := sid, cookie := cookie }).fwdFlight none).fwdCmd 0x30 128 [] f.header else s
      | .offerOk held =>
        if f.state ≠ 1 then s
        else
          let held := sortNat (dedup (held.filter fun i => decide (i ≤ blockCount f.header)))
          (s.setFwd fun f => { f.answered none with state := 2, held := held, sent := held, status := stOk, since := s.now }).fwdPump
      | .blockOk i =>
        if f.state ≠ 2 || !f.sent.contains i then s
        else (s.setFwd fun f => { f.answered (some i) with held := if f.held.contains i then f.held else f.held ++ [i], status := stOk, since := s.now }).fwdPump
      | .status st =>
        if st = stUpdBusy || st = stUpdIncompatible then (s.setFwd fun f => { f with state := 4, status := st }).fwdEvent else s.fwdRetry st
      | .failed => s.fwdRetry f.status)

/-- SELF_ACTIVATION (R373): an image from an upstream neighbour activates by itself, at most once. -/
def execSelfActivation (s : State) : Host.Outcome State Fault Refusal :=
  .next (
    let f := s.upd.fwd
    let ended := [3, 4, 5].contains f.state || !f.value0.getLsbD 0
    let first := s.upd.sources.head?.any fun x => x.kind == 3
    if s.upd.state = 3 && s.running && f.value0.getLsbD 4 && first && ended && !s.upd.autoUsed && s.compatible then
      (s.setUpd fun u => { u with autoUsed := true, autoDone := u.autoDone ++ [(u.slot u.target).hash] }).beginActivation none
    else s)

-- Activation steps.

/-- The image an activation or a hitless fallback installs, and the effects of a step's end (R376, R377). -/
def State.stepEffect (s : State) (step slot : Nat) : State :=
  match step with
  | 1 =>
    let s := s.setLife fun l => { l with sups := modAt l.sups (1 - l.supActive.val) fun p => { p with image := slot } }
    let s := s.measureSlot 3 slot
    let old := s.upd.cfgVer
    let new := hdr (s.upd.slot slot).header 34 2
    if s.upd.rollback then s
    else
      let s := s.setUpd fun u => { u with preCfg := some old, cfgVer := if new = 0 then old else new }
      if new = 0 || old = new then s else s.logEv evCfgMigrate uUpdate old new
  | 3 =>
    let from_ := s.runningSlot
    let other := s.upd.active
    let s := (s.setLife fun l => { l with supActive := 1 - l.supActive }).setUpd fun u => { u with active := slot }
    let s := (s.measureSlot 2 slot).measureSlot 3 other
    let s := if accepts from_ s.runningSlot 10 then s
      else s.setPtp fun t => { t with locked := false, holdover := t.holdover || t.locked, goodSamples := 0 }
    let s := if accepts from_ s.runningSlot 9 then s else s.gcAfresh
    if accepts from_ s.runningSlot 11 then s else s.setEvr fun r => { r with openRec := false }
  | 4 => s.measureSlot 4 slot
  | 5 => s.measureSlot 5 slot
  | _ => s

/-- Step 5 has ended: confirming begins and UPD_ACTIVATE completes (R376); a hitless fallback is over. -/
def State.stepsEnd (s : State) : State :=
  if s.upd.rollback then
    s.setUpd fun u => { (u.setSlot u.confirmed fun x => { x with state := 3 }) with rollback := false, step := 6, reload := true }
  else
    let s := s.setJrn fun j => { j with pagesDurable := 0 }
    (s.setUpd fun u => { (u.setSlot u.confirmed fun x => { x with state := 4 }) with
      state := 5, step := 6, reload := true, confirmAt := s.now, cpDone := 0, faultSeen := false, testOk := false }).endActivate stOk

/-- Whether the half of the CPs that a step drains is empty: its mailboxes, and the commands held for them (R26). -/
def State.stepDrained (s : State) : Bool :=
  match s.upd.step with
  | 4 => ([0, 1, 2, 3].all fun h => (s.mbx.cp.getD h []).isEmpty) && s.mbx.moving.all fun x => decide (4 ≤ x.1)
  | 5 => ([4, 5, 6, 7].all fun h => (s.mbx.cp.getD h []).isEmpty) && s.mbx.moving.all fun x => decide (x.1 < 4)
  | _ => true

/-- ACTIVATION_STEP_DONE (R376, R378): one step ends, a step that drains CPs once they are drained (R26); step 2 of an activation reverts it where a
required record does not convert; in confirming, the standby reload ends. -/
def execActivationStepDone (e : StepEnd) (s : State) : Host.Outcome State Fault Refusal :=
  .next (
    let u := s.upd
    if !s.running then s
    else if (u.state = 4 && !s.life.recovery || u.rollback) && 1 ≤ u.step && u.step ≤ 5 then
      if !s.stepDrained then s
      else if u.step = 2 && !u.rollback && !e.converts then s.refuseHandOver else
      let slot := if u.rollback then u.confirmed else u.target
      let s := (s.logEv evUpdStep uUpdate u.step e.holdUs).stepEffect u.step slot
      if u.step < 5 then s.setUpd fun u => { u with step := u.step + 1 } else s.stepsEnd
    else if u.reload then
      let s := (s.setLife fun l => { l with sups := l.sups.map fun p => { p with image := s.upd.active } }).measureSlot 3 s.upd.active
      s.setUpd fun u => { u with reload := false, step := 0 }
    else s)

/-- The self-test of R379. The module runs a self-test command on every CP that has completed none, and takes its ledger snapshots itself. -/
def State.selfTest (s : State) : Bool :=
  let u := s.upd
  s.past u.confirmAt (60 * oneSec) && !u.reload && s.supsOk && (s.life.sups.all fun p => p.image == u.active) && !u.faultSeen &&
    decide (1 ≤ s.jrn.pagesDurable) && (u.linkedBefore.all fun p => (s.ports.getD p {}).link) && (!u.mirrorBefore || s.mir.state == 2)

/-- The self-test watches its conditions: one that fails in confirming starts the fallback (R379, R381). After a restart out of recovery the ports and the
Mirror link have 60 s to come back. -/
def State.watchSelfTest (s : State) : State :=
  let u := s.upd
  let lost := u.linkedBefore.any (fun p => !(s.ports.getD p {}).link) || (u.mirrorBefore && s.mir.state != 2)
  if u.state = 5 && s.running && (u.faultSeen || (lost && (!u.fromRecovery || s.past u.confirmAt (60 * oneSec)))) then s.fallback 1 else s

/-- SELF_TEST_PASS (R379, R380). -/
def execSelfTestPass (s : State) : Host.Outcome State Fault Refusal :=
  .next (
    if s.upd.state = 5 && s.running && s.selfTest then (s.setUpd fun u => { u with testOk := true, cpDone := 0xFF }).confirm 0
    else s)

/-- CONFIRM_TIMEOUT (R381): 10 min in confirming. -/
def execConfirmTimeout (s : State) : Host.Outcome State Fault Refusal :=
  .next (if s.upd.state = 5 && s.past s.upd.confirmAt (600 * oneSec) then s.fallback 2 else s)

end Sys2Proof.Machine
end

