-- ==== Sys2Proof/Machine/Power.lean ====
section
/-! DEFINITION. Power input, the token arbiter's rows, the hold-up bank, temperature and power states (06 R202-R237; 07 R270-R272). -/

namespace Sys2Proof.Machine

-- Power states.

/-- Whether a purpose is a scrub's or a reclaim sweep's. -/
def Purpose.background (w : Purpose) : Bool :=
  match w with
  | .scrub .. | .sweep _ => true
  | _ => false

/-- Whether a scrub or a reclaim sweep runs: it holds its tokens, or waits for them (R231). -/
def State.scrubRuns (s : State) : Bool := (s.pwr.grants.any fun g => g.why.background) || s.pwr.queue.any fun q => q.why.background

/-- Whether the module is idle (R231). A Ferry command whose completion is not written is outstanding (R157). -/
def State.isIdle (s : State) : Bool :=
  s.cmds.isEmpty && !(s.tr.qps.any fun q => !q.cplWait.isEmpty) && s.land.recs.isEmpty && s.flash.copy.isNone && s.flash.jobs.isEmpty && s.flash.reads.isEmpty && s.kv.ranges.isEmpty &&
    s.mir.sendq.isEmpty && s.mir.resyncq.isEmpty && s.upd.state == 0 && !s.upd.rollback && s.sec.san.state != 1 &&
    !(s.flash.segs.any fun g => g.st == .erasing) && !s.scrubRuns

/-- Start the transition to a power state. -/
def State.enterPs (s : State) (n : Fin 5) : State := s.setPwr fun p => { p with psBusy := true, psTarget := n }

/-- PS_IDLE_EXPIRY (R231, R232): a timer that runs from the instant the module became idle. A state that PS_NOW asked for stays until a wake event. -/
def execPsIdleExpiry (ps : Fin 5) (s : State) : Host.Outcome State Fault Refusal :=
  .next (
    let t := s.stored.psIdle.getD (ps.val - 1) 0
    if s.life.phase = 9 && s.life.svc.isNone && s.isIdle && ps ≠ 0 && t ≠ 0 && ps.val ≤ s.stored.psCap && s.pwr.ps < ps && !s.pwr.psBusy && !s.pwr.psStays &&
        s.pwr.idleSince.any (fun c => s.past c (t * ms)) then s.enterPs ps
    else s)

/-- WAKE_EVENT (R233). -/
def execWakeEvent (w : WakeSource) (s : State) : Host.Outcome State Fault Refusal :=
  .next (match w with
    | .psNowZero => (s.setPwr fun p => { p with psRequest := none }).wake
    | _ => s.wake)

/-- Entry to PS4 renegotiates each linked port to 1000BASE-T: its link drops, its queue pairs end, it trains again (R234). -/
def State.ps4EntryPort (s : State) (p : Fin 2) : State :=
  if (s.port p).link then
    let s := (s.dropLink p).setPort p fun q => { q with ps4Nego := true }
    ((s.tr.qps.filter fun x => x.rx.port == p && (x.st == .opened || x.st == .ended true)).foldl (fun s x => s.endConnection x.uid false) s).train p
  else s

/-- Both ports enter PS4 (R234). -/
def State.ps4Entry (s : State) : State := (s.ps4EntryPort 0).ps4EntryPort 1

/-- A port that is up and may step up does so (R234). -/
def State.ps4ExitPort (s : State) (p : Fin 2) : State := if (s.port p).link && (s.upTarget p).isSome then s.startNego p 5 none else s

/-- After PS4 the ports return to higher rates under the step-up rules, P0 first: P1 follows when P0 has ended (R234, R334). -/
def State.ps4Exit (s : State) : State :=
  let s := s.ps4ExitPort 0
  if (s.port 0).nego.isSome then s else s.ps4ExitPort 1

/-- PS0 is reached: the charge that waited for it starts, and a port that trains takes the rate it may now (R210). -/
def State.enterPs0 (s : State) : State :=
  (if s.hold.chargeAsked then (s.setHold fun h => { h with chargeAsked := false }).startCharge else s).retrain

/-- POWER_STATE_TRANSITION_DONE (R230, R233, R234): a budget-change instant with reason 4. -/
def execPowerStateTransitionDone (s : State) : Host.Outcome State Fault Refusal :=
  .next (
    if !s.pwr.psBusy || s.shutting || !s.life.mainOn then s
    else
      let old := s.pwr.ps
      let new := s.pwr.psTarget
      let s := s.setPwr fun p => { p with ps := new, psBusy := false }
      let s := if 3 ≤ new.val then s.setPrism fun p => { p with cacheBuckets := [] } else s
      let s := if new = 4 then s.ps4Entry else s
      let s := (s.budgetChange 4).pwrInt 5
      let s := if new = 0 then s.enterPs0 else s
      if old = 4 && new = 0 then s.ps4Exit else s)

-- Power class and input limit.

/-- A budget-change instant with reason 1 if the class in force changes (R206, R208). -/
def State.reviewClass (s : State) : State :=
  if s.classInForce ≠ s.pwr.cls && !s.shutting && s.life.mainOn then s.budgetChange 1 else s

/-- Evaluate the input-limit term, with a budget-change instant where it changes by 8 tokens or more or starts or stops binding (R207, R208). -/
def State.evalIlimit (s : State) : State :=
  let new := ilimitTerm s.stored.ilimit s.pwr.vin10mV
  let s := s.setPwr fun p => { p with ilimitTokens := new }
  let old := s.pwr.ilimitUsed
  if (8 ≤ max old new - min old new || s.ilimitBindsNow ≠ s.pwr.ilimitBinds) && !s.shutting && s.life.mainOn then s.budgetChange 3 else s

/-- PWRCLS_CHANGE (R206): pad values 4 to 7 count as class 0 and are reported once per change. -/
def execPwrclsChange (pads : Fin 8) (s : State) : Host.Outcome State Fault Refusal :=
  .next (
    let v := BitVec.ofNat 3 pads.val
    if v = s.pwr.pads || !s.life.mainOn then s
    else
      let s := s.setPwr fun p => { p with pads := v }
      let s := if 4 ≤ pads.val then s.logEv evPwrclsInvalid uPower pads.val 0 else s
      s.reviewClass)

/-- ILIMIT_EVALUATION (R202, R207, R208, R235): every 100 ms, with VIN and the input current averaged over 100 ms and the peak input power of the
last 1 s. -/
def execIlimitEvaluation (sample : InputSample) (s : State) : Host.Outcome State Fault Refusal :=
  .next (
    if s.life.mainOn then
      (s.setPwr fun p =>
        { p with vin10mV := sample.vin10mV, inMa := sample.inMa, pinMw := sample.vin10mV * sample.inMa / 100, pinPeakMw := sample.peakMw }).evalIlimit
    else s)

/-- ILIMIT_CLAMP (R205): the clamp has stayed engaged for 1 ms. -/
def execIlimitClamp (vin10mV : Nat) (s : State) : Host.Outcome State Fault Refusal :=
  .next (
    if s.life.mainOn then ((s.setPwr fun p => { p with clamp := true }).pwrInt 4).logEv evIlimitClamp uPower s.stored.ilimit vin10mV else s)

/-- VIN_HIGH (R204). -/
def execVinHigh (vin10mV : Nat) (s : State) : Host.Outcome State Fault Refusal :=
  .next (if s.life.mainOn then s.logEv evVinHigh uPower vin10mV 0 else s)

/-- PWR_CLASS_WRITE (R208, R235): cfg_class in [6:4]; 4 to 7 are ignored. -/
def execPwrClassWrite (v : Word) (s : State) : Host.Outcome State Fault Refusal :=
  .next (
    let c := v.toNat / 16 % 8
    if 4 ≤ c || !s.life.mainOn then s else (s.setStored fun x => { x with powerClass := c }).reviewClass)

/-- PWR_ILIMIT_WRITE (R208, R235): values outside 500 to 6,000 are ignored. -/
def execPwrIlimitWrite (v : Word) (s : State) : Host.Outcome State Fault Refusal :=
  .next (
    let c := v.toNat % 65536
    if c < 500 || 6000 < c || !s.life.mainOn then s else (s.setStored fun x => { x with ilimit := c }).evalIlimit)

-- Tokens.

/-- TOKEN_REQUEST (R209, R212). -/
def execTokenRequest (cls : Fin 4) (tokens : Nat) (s : State) : Host.Outcome State Fault Refusal :=
  .next (if s.life.mainOn then (s.wake).askTokens cls.val tokens .unit_ else s)

/-- TOKEN_RETURN (R209, R212). The grants of the operations of this model return with them. -/
def execTokenReturn (grant : Nat) (s : State) : Host.Outcome State Fault Refusal :=
  .next (if s.pwr.grants.any fun g => g.id == grant && g.why == .unit_ then s.returnGrant grant else s)

/-- PWR_CTRL.snapshot (R236). -/
def execPwrCtrlSnapshot (s : State) : Host.Outcome State Fault Refusal := .next (if s.life.mainOn then s.powerSnapshot else s)

-- The bank.

/-- Publish the usable energy at a voltage, at a budget-change instant of the hold-up ledger (R184, R185). It is frozen in the hold-up sequence
(R222). -/
def State.publish (s : State) (v reason : Nat) : State :=
  if s.shutting then s
  else (s.setHold fun h => { h with vPub10mV := v }).holdupBudget (usableEnergy s.hold.capUf v) reason

/-- Whether the initial charge, or that of a retry, passes through the metering window of 20.0 V to 25.0 V (R218, R220). -/
def Holdup.meters (h : Holdup) : Bool := h.charging && decide (h.chargeFrom10mV < 2000) && (h.capUf == 0 || h.retrying) && !h.measuring

/-- HOLD passes 20.0 V: the metered charge of R218 asks its tokens, in class 0 (R31, R211). -/
def State.startMetering (s : State) : State :=
  if s.hold.meters && decide (2000 ≤ s.hold.v10mV) && (s.grantFor .measurement).isNone then s.askTokens 0 4 .measurement else s

/-- The bleed and the metered charge of steps 2 and 3 of R219 start, in class 0 (R211). -/
def State.startMeasure (s : State) : State :=
  if s.hold.measuring || s.shutting then s
  else (s.setHold fun h => { h with measuring := true, measureAsked := false }).askTokens 0 4 .measurement

/-- Start a re-measurement at 35.0 V (R219): step 1 publishes the usable energy at 34.0 V where a capacitance has been published, if free charge would
stay zero or more; otherwise it is deferred for 60 s. -/
def State.tryMeasure (s : State) : State :=
  let u34 : Int := usableEnergy s.hold.capUf 3400
  let fits := s.hold.capUf = 0 || decide (0 ≤ u34 - s.land.resLanding - s.land.resShutdown)
  if s.hold.measuring || s.shutting then s
  else if !fits then s.setHold fun h => { h with measureAsked := true, retryAt := s.now + 60 * oneSec }
  else (if s.hold.capUf = 0 then s else s.publish 3400 3).startMeasure

/-- A re-measurement is due or asked for: it waits while the charger charges (R219); in PS1 to PS4 it is a wake event (R233). -/
def State.wantMeasure (s : State) : State :=
  let s := if s.pwr.ps = 0 then s else s.wake
  if s.hold.charging then s.setHold fun h => { h with measureAsked := true } else s.tryMeasure

/-- The bank enters state 0, 3 or 4 and is tried again after 60 s (R220). -/
def State.bankFails (s : State) (st : BankSt) : State :=
  let s := ((s.setHold fun h => { h with retryAt := s.now + 60 * oneSec, retrying := false }).bankState st).stopCharge
  if s.hold.measuring then s else s.returnFor .measurement

/-- Whether the bank is in state 0, 3 or 4. -/
def Holdup.bad (h : Holdup) : Bool :=
  match h.st with
  | .absent | .belowRating | .faulty => true
  | _ => false

/-- HOLD has reached 35.0 V (R217-R220): charging ends. A bank that no metering has measured is measured as at start-up, by steps 2 and 3 alone;
one in rating is healthy, and a waiting re-measurement starts. -/
def State.charged (s : State) : State :=
  let fresh := s.hold.capUf = 0 || (s.hold.retrying && 2000 ≤ s.hold.chargeFrom10mV)
  let s := s.stopCharge
  if fresh then (s.returnFor .measurement).startMeasure
  else
    let s := if s.hold.st = .charging && 2200 ≤ s.hold.capUf then s.bankState .healthy else s
    if s.hold.measureAsked && s.past s.hold.retryAt 0 then s.tryMeasure else s

/-- HOLD_VOLTAGE_STEP (R185, R217, R218): HOLD has risen to `v10mV`; the usable energy is published at each 0.5 V, and at 35.0 V charging ends. Above 37 V
the bank is faulty. -/
def execHoldVoltageStep (v10mV : Nat) (s : State) : Host.Outcome State Fault Refusal :=
  .next (
    if !s.life.mainOn || s.shutting then s
    else
      let s := (s.setHold fun h => { h with v10mV := v10mV }).startMetering
      if 3700 < v10mV then s.bankFails .faulty
      else
        let step := min 3500 (v10mV / 50 * 50)
        let s := if s.hold.capUf ≠ 0 && s.hold.charging && s.hold.vPub10mV < step then s.publish step 2 else s
        if s.hold.charging && 3500 ≤ v10mV then s.charged else s)

/-- HOLD_VOLTAGE_FALL (R217, R220): HOLD has fallen to `v10mV`, `fell10mVIn1s` of it within 1 s. The charger cannot hold 35.0 V where HOLD falls by
another 0.3 V while it runs (DESIGN CHOICE, log 54). -/
def execHoldVoltageFall (v10mV fell10mVIn1s : Nat) (s : State) : Host.Outcome State Fault Refusal :=
  .next (
    if !s.life.mainOn || s.shutting || s.hold.measuring then s.setHold fun h => { h with v10mV := v10mV }
    else
      let s := s.setHold fun h => { h with v10mV := v10mV }
      if 200 < fell10mVIn1s || (s.hold.charging && v10mV + 30 ≤ s.hold.chargeFrom10mV) then s.bankFails .faulty
      else
        let s := if s.hold.capUf ≠ 0 && v10mV + 50 ≤ s.hold.vPub10mV then s.publish (v10mV / 50 * 50) 2 else s
        let s := if s.hold.st = .healthy && v10mV + 200 < 3500 then s.bankState .charging else s
        if v10mV + 30 ≤ 3500 && !s.hold.bad && !s.hold.charging then s.startCharge else s)

/-- HOLD_ABSENT_TIMEOUT (R220): 200 ms into charging HOLD has risen by `rise10mV`. A charge that began within 1 V of 35.0 V cannot rise by 1 V and is
not tested (DESIGN CHOICE, log 78). -/
def execHoldAbsentTimeout (rise10mV : Nat) (s : State) : Host.Outcome State Fault Refusal :=
  .next (
    if s.hold.charging && s.past s.hold.chargeSince (200 * ms) && rise10mV < 100 && s.hold.chargeFrom10mV < 3400 && !s.shutting then s.bankFails .absent
    else s)

/-- CAPACITANCE_MEASUREMENT_DUE (R219): 24 h after the last published measurement. -/
def execCapacitanceMeasurementDue (s : State) : Host.Outcome State Fault Refusal :=
  .next (
    if s.hold.capUf ≠ 0 && s.past s.hold.capAt (86400 * oneSec) && !s.hold.measuring && !s.hold.measureAsked && s.running then s.wantMeasure else s)

/-- PWR_CTRL.measure (R219). -/
def execPwrCtrlMeasure (s : State) : Host.Outcome State Fault Refusal :=
  .next (if s.life.mainOn && !s.hold.measuring then s.wantMeasure else s)

/-- CAPACITANCE_MEASUREMENT_DONE (R218-R221): the start-up metering between 20.0 V and 25.0 V, or the measurement at 35.0 V. -/
def execCapacitanceMeasurementDone (uF ms_ : Nat) (s : State) : Host.Outcome State Fault Refusal :=
  .next (
    let metered := s.hold.meters && decide (2500 ≤ s.hold.v10mV) && (s.grantFor .measurement).isSome
    if s.shutting || !s.life.mainOn || !(s.hold.measuring || metered) then s
    else
      let at35 := s.hold.measuring
      let c := min 10000 (uF / 10 * 10)
      let first := s.hold.commissionDue
      let old := s.hold.commissionUf
      let s := (s.setHold fun h =>
        { h with measuring := false, measureAsked := false, retrying := false, capUf := c, capAt := s.now, commissionDue := false,
                 commissionUf := if first then c else h.commissionUf, v10mV := if at35 then 3500 else h.v10mV }).returnFor .measurement
      let s := (s.logEv evHoldupMeasure uPower c ms_).pwrInt 6
      let s := if !first && 100 * c < 80 * old then s.logEv evHoldupAged uPower old c else s
      let s := if c < 500 then s.bankFails .absent
        else if c < 2200 then s.bankFails .belowRating
        else if at35 then (if s.hold.st = .healthy then s else (s.bankState .charging).bankState .healthy)
        else s.bankState .charging
      let s := s.publish (if at35 then 3500 else min 3500 (s.hold.v10mV / 50 * 50)) 1
      if at35 && 2200 ≤ c then s.startCharge else s)

/-- MEASUREMENT_RETRY (R219): every 60 s a deferred measurement is tried again. -/
def execMeasurementRetry (s : State) : Host.Outcome State Fault Refusal :=
  .next (if s.hold.measureAsked && !s.hold.charging && s.past s.hold.retryAt 0 && s.running then s.tryMeasure else s)

/-- BANK_RETRY (R220): every 60 s in states 0, 3 and 4 the bank is charged toward 35.0 V and measured again. -/
def execBankRetry (s : State) : Host.Outcome State Fault Refusal :=
  .next (
    if s.hold.bad && !s.hold.charging && s.past s.hold.retryAt 0 && s.running then
      (s.setHold fun h => { h with retrying := true, retryAt := s.now + 60 * oneSec }).startCharge
    else s)

/-- The time a charge from a voltage to 35.0 V at 0.6 W may take, 1.5 times what the capacitance implies, in ns (R220). -/
def chargeBound (uF from10mV : Nat) : Nat := uF * (3500 * 3500 - from10mV * from10mV) / 8

/-- HOLDUP_CHARGE_TIMEOUT (R220). -/
def execHoldupChargeTimeout (s : State) : Host.Outcome State Fault Refusal :=
  .next (
    if s.hold.charging && s.hold.capUf ≠ 0 && s.past s.hold.chargeSince (chargeBound s.hold.capUf s.hold.chargeFrom10mV) && !s.shutting then s.bankFails .faulty
    else s)

-- The hold-up sequence.

/-- The main island powers off (R222 step 7, R224, R440). What a latched reset would do follows at the next start (R441). -/
def State.powerOff (s : State) (journalClosed : Bool) : State :=
  let s := ((s.endSources).pauseSanitize).portsDown
  let s := match s.life.latched with
    | some r => s.setLife fun l => { l with counts := countCause l.counts r.cause, latched := none }
    | none => s
  let s := if journalClosed then s else s.setEvr fun r => { r with finalPage := false }
  s.setLife fun l => { l with phase := 0, mainOn := false, lockOk := false, holdup := false, closing := none, svc := none, huEnded := journalClosed,
                              thermalOff := l.huThermal }

/-- Begin the hold-up sequence (R222, R225, R229, R431, R440, R441): a close turns into it; before the service instant the main island powers off at
once. -/
def State.trip (s : State) (thermal : Bool) : State :=
  if !s.life.mainOn || s.life.holdup then s
  else
    let s := s.setLife fun l => { l with huThermal := thermal }
    if s.life.closing.isSome then
      (s.logEv evHoldupTrip uPower (if thermal then 2 else 1) s.land.inUse).setLife fun l =>
        { l with holdup := true, latched := l.latched.or l.closing, closing := none }
    else if !s.canClose then s.powerOff false
    else (s.logEv evHoldupTrip uPower (if thermal then 2 else 1) s.land.inUse).beginSequence fun l => { l with holdup := true }

/-- VIN has gone: off after a thermal trip the AON island runs on from HOLD, and stops where HOLD is down to 12.0 V already (R229). VIN is taken as
present from the restart threshold on until the next under-voltage trip (DESIGN CHOICE, log 55). -/
def State.vinGone (s : State) : State :=
  s.setLife fun l => { l with vinPresent := false, aonOn := l.aonOn && !(!l.mainOn && l.thermalOff && decide (s.hold.v10mV ≤ 1200)) }

/-- UNDER_VOLTAGE_TRIP (R202, R222, R229): VIN has stayed below the trip for the deglitch time. -/
def execUnderVoltageTrip (s : State) : Host.Outcome State Fault Refusal := .next ((s.vinGone).trip false)

/-- THERMAL_TRIP (R227, R229): 152 °C. -/
def execThermalTrip (s : State) : Host.Outcome State Fault Refusal :=
  .next (
    if !s.life.mainOn || s.life.holdup then s
    else ((s.setThm fun t => { t with t := max t.t 152 }).logEv evThermal uThermal 3 (toField 32 (max s.thm.t 152))).trip true)

/-- HOLDUP_DRAIN_END (R222 steps 5 to 7): the drain has ended, the journal is closed, the main island powers off. -/
def execHoldupDrainEnd (s : State) : Host.Outcome State Fault Refusal :=
  .next (if s.life.holdup && s.drainEnded then (s.closeJournal).powerOff true else s)

/-- jseq of the last durable journal record (R425 EV_HOLDUP_SHORT). -/
def Journal.lastDurable (j : Journal) : Nat := j.jseqNext - 1 - j.page.length - j.flying.length

/-- HOLD_AT_12V (R224, R229): before JRNL_CLOSE the sequence ends at once. With the main island off the AON island stops, unless VIN feeds it; a reset
it had latched is then gone, and the next start is a power-on. -/
def execHoldAt12v (s : State) : Host.Outcome State Fault Refusal :=
  .next (
    let s := s.setHold fun h => { h with v10mV := 1200 }
    let stop := fun (s : State) => if s.life.vinPresent then s else s.setLife fun l => { l with aonOn := false, latched := none }
    if s.life.holdup then
      stop ((s.setHold fun h => { h with shortPending := true, shortJseq := s.jrn.lastDurable }).powerOff false)
    else if !s.life.mainOn then stop s
    else s)

/-- RESTART_QUALIFICATION (R202, R224, R229, R436): VIN has stayed above the restart threshold for 10 ms; the straps are latched. Off after a thermal
trip the module waits until T is at or below 125 °C. With RESET# low the start waits for its release. -/
def execRestartQualification (straps : BitVec 4) (s : State) : Host.Outcome State Fault Refusal :=
  .next (
    if s.life.mainOn || s.life.phase ≠ 0 || s.life.latched.isSome then s
    else if s.life.thermalOff && 125 < s.thm.t then s.setLife fun l => { l with vinPresent := true }
    else
      let cause := if !s.life.aonOn then 1 else if s.life.huEnded then 9 else 10
      let s := s.setLife fun l => { l with straps := straps, pads := straps, aonOn := true, vinPresent := true, thermalOff := false }
      let s := s.resumeElapsed
      if s.life.resetLow then s.setLife fun l => { l with latched := some { cause := cause } }
      else s.startInstant cause straps[3] none)

-- Temperature.

/-- T of a sample in whole degrees rounded up, from 1/16 °C (R207, R226). -/
def tempOf (ctrl16 : Int) (dies16 : List Int) : Int := (dies16.foldl max ctrl16 + 15) / 16

/-- Index of the hottest die. -/
def hottest (l : List Int) : Nat := (l.findIdx? fun x => x == l.foldl max (l.headD 0)).getD 0

/-- The warning point (R227). PWR_INT_STATUS.thermal_warn is set when it is reached from below only (R237 names no direction: DESIGN CHOICE,
log 77). -/
def State.thermalWarn (s : State) : State :=
  let w : Int := s.thm.warnAt.toNat
  if !s.thm.warn && w ≤ s.thm.t then
    (((s.setThm fun t => { t with warn := true }).pwrInt 2).logEv evThermal uThermal 1 (toField 32 s.thm.t)).wake
  else if s.thm.warn && s.thm.t ≤ w - 3 then s.setThm fun t => { t with warn := false }
  else s

/-- The write pause (R227, R228): at its end a copy that it held goes on. -/
def State.thermalPause (s : State) : State :=
  if !s.thm.writePause && 145 ≤ s.thm.t then
    ((s.setThm fun t => { t with writePause := true }).pwrInt 3).logEv evThermal uThermal 2 (toField 32 s.thm.t)
  else if s.thm.writePause && s.thm.t ≤ 143 then
    (((s.setThm fun t => { t with writePause := false }).pwrInt 3).pumpGcReads).pumpReloc
  else s

/-- Derating: T has risen through a whole degree above 125 °C, or fallen 2 °C below the degree that set the current d (R208). -/
def State.thermalDerate (s : State) : State :=
  if s.shutting then s
  else if (125 < s.thm.t && s.thm.dT < s.thm.t) || (125 < s.thm.dT && s.thm.t ≤ s.thm.dT - 2) then s.budgetChange 2
  else s

/-- pSLC write mode and the cool time of repacking (R270, R271). -/
def State.thermalFlash (s : State) : State :=
  let t := s.thm.t
  let s := s.setFlash fun f => { f with coolSince := if t ≤ 105 then f.coolSince.or (some s.now) else none, repacking := f.repacking && decide (t ≤ 110) }
  let s := if !s.flash.pslc && 115 < t && 144 < s.freeSegs then (s.setFlash fun f => { f with pslc := true }).logEv evPslcMode uFlash 1 s.freeSegs
    else if s.flash.pslc && (t ≤ 110 || s.freeSegs ≤ 144) then (s.setFlash fun f => { f with pslc := false }).logEv evPslcMode uFlash 0 s.freeSegs
    else s
  s.reviewSpace

/-- THERMAL_SAMPLE (R226-R228, R271): a copy that heat held goes on once it may. The hottest controller sensor, and each die in the numbering of THM_FLASH_TEMP. -/
def execThermalSample (ctrl16 : Int) (dies16 : List Int) (s : State) : Host.Outcome State Fault Refusal :=
  .next (
    let t := tempOf ctrl16 dies16
    if !s.life.mainOn then s.setThm fun x => { x with t := t, lastSample := s.now }
    else
      let dt := if 125 < t then 10 else 0
      let s := s.setThm fun x =>
        { x with ctrl16 := ctrl16, flash16 := dies16.foldl max (dies16.headD 0), hotDie := hottest dies16, t := t, hotMs := x.hotMs + dt, lastSample := s.now }
      let s := s.setFlash fun f => { f with dies := (f.dies.zip (dies16 ++ List.replicate f.dies.length 0)).map fun (x : Die × Int) =>
        { x.1 with temp16 := x.2 } }
      let s := ((s.thermalWarn).thermalPause).thermalDerate
      if s.running then (((s.thermalFlash).reviewWear).pumpGcReads).pumpReloc else s)

end Sys2Proof.Machine
end

