-- ==== Sys2Proof/Machine/Life.lean ====
section
/-! DEFINITION. The rows of resets, watchdogs and start-up (14 R430-R446; 15 R450, R464; 01 R38; 05 R199; 12 R387, R407; 13 R417). -/

namespace Sys2Proof.Machine

-- Full resets.

/-- RESET_PIN (R430, R431): RESET# has been low for 1 µs. -/
def execResetPin (s : State) : Host.Outcome State Fault Refusal :=
  .next ((s.setLife fun l => { l with resetLow := true }).requestFull { cause := 2 })

/-- SIDE_BAND_SOFT_RESET (R430, R464, R466): a write of GLB_RESET; without the key or the soft bit it is ignored. -/
def execSideBandSoftReset (v : Word) (s : State) : Host.Outcome State Fault Refusal :=
  .next (if v.toNat / 65536 = 0xC5A0 && v.getLsbD 0 then s.requestFull { cause := 3, maint := v.getLsbD 1 } else s)

/-- RESET_CLOSE_DONE (R431): the close has ended, or 1.0 s has passed without its end. -/
def execResetCloseDone (ended : Bool) (s : State) : Host.Outcome State Fault Refusal :=
  .next (match s.life.closing with
    | some r =>
      if ended then (if s.drainEnded then s.fullReset r true else s)
      else if s.past s.life.closeAt oneSec then s.fullReset r false else s
    | none => s)

/-- RESET_RELEASE (R431, R436, R466): RESET# rises and the straps are latched. A module it kept in reset starts. -/
def execResetRelease (straps : BitVec 4) (s : State) : Host.Outcome State Fault Refusal :=
  .next (
    if !s.life.resetLow then s
    else
      let s := s.setLife fun l => { l with resetLow := false, straps := straps, pads := straps }
      match s.life.latched with
      | some r => if s.life.phase = 0 && s.life.aonOn then s.startInstant r.cause straps[3] r.slot else s
      | none => s)

/-- REFERENCE_LOSS (R450): a reset with cause 11, whose start-up stays in phase 1 until the reference returns. -/
def execReferenceLoss (s : State) : Host.Outcome State Fault Refusal :=
  .next (
    if !s.life.mainOn || !s.life.refOk then s
    else (s.setLife fun l => { l with refOk := false, lockOk := false, lossCount := satAdd 32 l.lossCount 1 }).requestFull (s.fullOf 11))

-- Service resets.

/-- Whether a service reset may run: commands are served, and no FORMAT or SANITIZE runs (R445). -/
def State.canService (s : State) : Bool :=
  (s.life.phase == 9 || s.life.phase == 10 || s.life.phase == 11) && s.sec.san.state != 1 && !s.shutting

/-- Start a service reset: an activation reverts, confirming falls back (R378, R381, R441). Where none may run it escalates to full; before
the service instant start-up begins again (R440, R445). -/
def State.startService (s : State) (sv : SvcReset) : State :=
  if !s.canService then s.requestFull (s.fullOf 4)
  else
    let s := (s.revertActivation).fallback 3
    if s.shutting || !s.canService then s else s.beginService sv

/-- A trigger of R435 that a self-test of R379 must not see. -/
def State.seeFault (s : State) : State := s.setUpd fun u => if u.state = 5 then { u with faultSeen := true } else u

/-- A CP or engine watchdog (R435): a service reset with cause 5, a full reset at the third within 1 h, during a service reset, or where no
service reset may run. -/
def State.watchdog (s : State) (unit : Nat) : State :=
  if !s.life.mainOn || s.life.phase = 15 then s
  else
    let recent := s.life.wdog.filter fun t => decide (s.now < t + 3600 * oneSec)
    let full := decide (2 ≤ recent.length) || s.life.svc.isSome || !s.canService
    let s := ((s.setLife fun l => { l with wdog := s.now :: recent }).seeFault).logEv evWatchdog uSup unit (b2n full)
    if full then s.requestFull (s.fullOf 4) else s.startService { cause := 5, since := s.now }

/-- CP_WATCHDOG (R435): a CP without a heartbeat for 100 ms. -/
def execCpWatchdog (cp : Fin 8) (s : State) : Host.Outcome State Fault Refusal := .next (s.watchdog (2 + cp.val))

/-- Source unit code of an engine (R411). -/
def engineUnit : Engine → Nat
  | .skiff => 10 | .ferry => 11 | .mailbox => 12 | .prism => 13 | .landing => 14 | .dataMover => 15 | .flash => 16

/-- ENGINE_WATCHDOG (R435): an engine queue that does not advance for 100 ms. -/
def execEngineWatchdog (e : Engine) (s : State) : Host.Outcome State Fault Refusal := .next (s.watchdog (engineUnit e))

/-- SUP_LOCKSTEP_FAILURE (R435, R442): a mismatch or watchdog of a supervisor. The standby takes over from the active one under a service reset;
the only one in service escalates to full; the third failure within 24 h retires it. EV_WATCHDOG names either supervisor as unit 1, the only code R411
has for one (DESIGN CHOICE, log 90). -/
def execSupLockstepFailure (sup : Fin 2) (s : State) : Host.Outcome State Fault Refusal :=
  .next (
    let p := s.life.sups.getD sup.val {}
    if !s.life.mainOn || s.life.phase = 15 || p.retired then s
    else
      let fails := s.now :: p.fails.filter fun t => decide (s.now < t + 86400 * oneSec)
      let s := (s.setLife fun l => { l with sups := modAt l.sups sup.val fun p => { p with fails := fails } }).seeFault
      let retire := fun (s : State) =>
        if 3 ≤ fails.length then
          (s.setLife fun l => { l with sups := modAt l.sups sup.val fun p => { p with retired := true } }).logEv evSupRetire uAon sup.val 0
        else s
      if sup ≠ s.life.supActive then (retire (s.logEv evWatchdog uAon 1 0)).fallback 1
      else
        let other := 1 - sup
        if (s.life.sups.getD other.val {}).retired then (s.logEv evWatchdog uAon 1 1).requestFull (s.fullOf 4)
        else
          let full := s.life.svc.isSome || !s.canService
          let s := (s.setLife fun l => { l with supActive := other }).logEv evSupFailover uAon sup.val fails.length
          let s := retire (s.logEv evWatchdog uAon 1 (b2n full))
          if full then s.requestFull (s.fullOf 4) else s.startService { cause := 6, since := s.now })

/-- The unit that owns a ledger and writes its fault (R34, R38, R411). -/
def ledgerUnit (l : LedgerId) : Nat :=
  match l.kind with
  | 1 => uSkiff
  | 2 => uFerry
  | 3 => if l.number < 4 then 18 + l.number / 2 else uLanding
  | 4 => uMbx
  | 5 => uSkiff
  | _ => if l.ledger = 5 then uLanding else uPower

/-- A port reset that is followed by training, where the port is in use (R331). -/
def State.resetPort (s : State) (p : Fin 2) : State :=
  let s := s.portReset p
  if s.portUsable p then s.train p else s

/-- A ledger as EV_LEDGER_FAULT names it: those of the Mirror receiver are 0xFFFE (R38, R305). -/
def ledgerNamed (l : LedgerId) : LedgerId := if l.kind = 5 then { l with number := 0xFFFE } else l

/-- Whether the ledger at fault is the one of the last service reset, less than 10 s ago (R435). -/
def State.faultAgain (s : State) (l : LedgerId) : Bool := s.life.lastLedger.any fun x => ledgerNamed x.1 == ledgerNamed l && decide (s.now < x.2 + 10 * oneSec)

/-- LEDGER_FAULT (R38, R435, R441): the reset that covers the owner. A MAC cell pool takes a port reset; in confirming its fault is a self-test
failure (R379). -/
def execLedgerFault (l : LedgerId) (s : State) : Host.Outcome State Fault Refusal :=
  .next (
    if !s.life.mainOn || l.ledger = 0 then s
    else
      let s := (s.setLife fun x => { x with ledgerFaults := satAdd 32 x.ledgerFaults 1 }).seeFault
      let s := s.logEv evLedgerFault (ledgerUnit l) l.ledger.val ((ledgerNamed l).number % 65536 + 65536 * l.kind)
      if l.kind = 3 && l.number < 4 then (s.resetPort (Fin.ofNat 2 (l.number / 2))).fallback 1
      else if s.shutting then s
      else if s.faultAgain l || s.life.svc.isSome then s.requestFull (s.fullOf 4)
      else s.startService { cause := 7, since := s.now, ledger := some l })

/-- The compact index (R199 steps 3 to 5, R200, R201): the table is rebuilt in the compact geometry and the compact limits are published. -/
def State.makeCompact (s : State) : State :=
  let e := emptyLanding s.part true
  let s := s.setPrism fun p => { p with compact := true, keyLimit := s.part.maxKeys / 2, cacheBuckets := [] }
  let s := s.setLand fun l => { l with cellTotal := e.cellTotal, freeCells := e.cellTotal - l.inUse }
  let s := s.setPrism fun p => { p with valueCache := trimCache s s.cacheBytes p.valueCache }
  s.resizeLanding

/-- Whether the journal has no record that is not durable. -/
def Journal.settled (j : Journal) : Bool := j.page.isEmpty && j.flying.isEmpty

/-- Posting resumes: held datagrams of all sessions first, then what waited on the queue pairs, the drain and erases (R164, R434 step 5; the spec
gives no order among sources: DESIGN CHOICE, log 74). -/
def State.resumePosting (s : State) : State :=
  let s := s.tr.sessions.foldl (fun s x => State.drainHeld (s.tr.hold.length + 1) s x.uid) s
  let s := s.tr.qps.foldl (fun s q => s.resumeQp q) s
  (s.pumpDrain).pumpErases

/-- The compact index change, once the Landing is drained and its records are durable: the table is rebuilt in the compact geometry, and all 16
slices of it are written (R199 steps 3 to 5). -/
def State.changeIndex (s : State) : State := ((((s.dropUnits).makeCompact).rebuildIndex).spillOver).writeAllSlices

/-- The service reset is over: it is counted, and its ledger kept (R434, R435). -/
def State.endSvc (s : State) (sv : SvcReset) : State :=
  s.setLife fun l => { l with svc := none, svcPort := 0, cause := sv.cause, counts := countCause l.counts sv.cause
                              lastLedger := sv.ledger.map fun g => (g, s.now) }

/-- SERVICE_RESET_END (R434 steps 4 and 5, R40, R199): the segments that were open are closed short, the cells are scanned, the ledgers re-derived at
a budget-change instant. A compact index change ends once the Landing is drained and its records are durable. -/
def execServiceResetEnd (s : State) : Host.Outcome State Fault Refusal :=
  .next (match s.life.svc with
    | none => s
    | some sv =>
      if s.closingShort || (sv.compact && !(s.land.recs.isEmpty && s.jrn.settled)) then s
      else
        (((((if sv.compact then s.changeIndex else s).endSvc sv).scanCells).resetEnds.glbInt 2).logEv evServiceReset uSup sv.cause
          (min ((s.now - sv.since) / ms) (2 ^ 32 - 1))).resumePosting)

/-- SERVICE_RESET_TIMEOUT (R435): a service reset not ended within 1 s, or 16 s for a compact index change. -/
def execServiceResetTimeout (s : State) : Host.Outcome State Fault Refusal :=
  .next (match s.life.svc with
    | some sv => if s.past sv.since (if sv.compact then 16 * oneSec else oneSec) then s.requestFull (s.fullOf 4) else s
    | none => s)

-- DRAM.

/-- Change a DRAM channel. -/
def State.setDramCh (s : State) (ch : Nat) (f : DramCh → DramCh) : State := s.setDram fun d => { d with chans := modAt d.chans ch f }

/-- Retire a DRAM channel (R443, R199): the second ends service in the main image; the first starts the compact index change. -/
def State.retireDram (s : State) (ch : Nat) : State :=
  let s := s.setDramCh ch fun c => { c with retired := true }
  if 2 ≤ (s.dram.chans.filter fun c => c.retired).length then s.requestFull { cause := 12, slot := some 2 }
  else
    let s := s.logEv evIndexCompact uPrism ch (s.part.maxKeys / 2)
    if s.life.svc.isSome then s.setLife fun l => { l with svc := l.svc.map fun v => { v with compact := true } }
    else s.startService { cause := 8, since := s.now, compact := true }

/-- Banks a DRAM channel can replace from its value cache (R443). -/
def Part.absorbs : Part → Nat
  | .ta16 => 3
  | .ta08 | .sb08 => 1

/-- Retire a DRAM bank (R442, R443): replaced under a service reset with cause 8, or the channel is retired. -/
def State.retireBank (s : State) (ch bank : Nat) : State :=
  let c := s.dram.chans.getD ch {}
  let n := c.banksRetired + 1
  let s := s.setDramCh ch fun c =>
    { c with banksRetired := n, sparesUsed := c.sparesUsed.filter (fun x => x.1 != bank), rowFails := c.rowFails.filter (fun x => x.1 != bank)
             rowErrors := c.rowErrors.filter fun x => x.1.1 != bank }
  let s := s.setPrism fun p => { p with valueCache := trimCache s s.cacheBytes p.valueCache }
  let s := s.logEv evDramBankRetire uPrism (ch + 256 * bank) n
  if s.part.absorbs < n then s.retireDram ch
  else if s.life.svc.isSome then s
  else s.startService { cause := 8, since := s.now }

/-- A DRAM row has failed (R442, R443): a spare row takes its place, or its bank is retired. -/
def State.failRow (s : State) (ch bank row : Nat) : State :=
  let c := s.dram.chans.getD ch {}
  let used := ((c.sparesUsed.find? fun x => x.1 == bank).map fun x => x.2).getD 0
  let fails := (bank, s.now) :: c.rowFails.filter fun x => decide (s.now < x.2 + 3600 * oneSec)
  let s := s.setDramCh ch fun c => { c with rowFails := fails, rowErrors := c.rowErrors.filter fun x => x.1 != (bank, row) }
  if 32 ≤ used || 16 ≤ (fails.filter fun x => x.1 == bank).length then s.retireBank ch bank
  else
    let s := s.setDramCh ch fun c => { c with sparesUsed := (bank, used + 1) :: c.sparesUsed.filter fun x => x.1 != bank }
    (s.setDram fun d => { d with rowsSpared := min 255 (d.rowsSpared + 1) }).logEv evDramRowSpare uPrism (ch + 256 * bank) (31 - used)

/-- DRAM_ERROR (R166, R442, R443). A Landing read that finds an uncorrectable error is served from the other copy and counts as a transient upset,
logged as EV_DRAM_CORRECTED (DEDUCED, log 56); its row is spared. -/
def execDramError (ch : Fin 4) (e : DramErr) (s : State) : Host.Outcome State Fault Refusal :=
  .next (
    let c := s.dram.chans.getD ch.val {}
    if !s.life.mainOn || s.part.dramCh ≤ ch.val || c.retired then s
    else
      match e with
      | .corrected bank row =>
        let s := s.logEv evDramCorrected uPrism (ch.val + 256 * bank) row
        let errs := ((bank, row), s.now) :: c.rowErrors.filter fun x => decide (s.now < x.2 + 86400 * oneSec)
        let s := s.setDramCh ch.val fun c => { c with rowErrors := errs }
        if 3 ≤ (errs.filter fun x => x.1 == (bank, row)).length then s.failRow ch.val bank row else s
      | .uncorrectable bank row landing =>
        (if landing then s.logEv evDramCorrected uPrism (ch.val + 256 * bank) row else s).failRow ch.val bank row
      | .retrain ok =>
        let n := c.retrains + 1
        let s := s.logEv evDramRetrain uPrism ch.val n
        let s := s.setDramCh ch.val fun c => { c with retrains := if ok || 3 ≤ n then 0 else n }
        if !ok && 3 ≤ n then s.retireDram ch.val else s)

-- Start-up.

/-- The configuration-data versions an image accepts (R377, R387); the shipped images' own version is 1 (log 23). -/
def Slot.takesCfg (x : Slot) (v : Nat) : Bool :=
  if x.header.isEmpty then v == 1 else decide (hdr x.header 32 2 ≤ v) && decide (v ≤ hdr x.header 34 2)

/-- The slots the boot ROM tries, in order (R387); an update restart names the first (R430). -/
def State.bootOrder (s : State) : List Nat :=
  let c := s.upd.confirmed
  let o := s.upd.slot (1 - c)
  dedup (s.life.startSlot.toList ++ [c] ++ (if o.state = 4 && o.takesCfg s.upd.cfgVer then [1 - c] else []) ++ [2])

/-- Measurements at a start (R391). -/
def State.measureStart (s : State) (slot : Nat) : State :=
  let s := s.setSec fun x => { x with meas := List.replicate 8 {} }
  let s := (s.measure 0 0 (Config.fusedDigest 0)).measure 1 0 (Config.fusedDigest 1)
  let s := [2, 3, 4, 5].foldl (fun s i => s.measureSlot i slot) s
  let s := if slot = 2 then s.measureSlot 6 2 else s
  s.measureSecurity

/-- Phase 3 (R387): the first slot that verifies starts; `verified` tells for slots 0 (A), 1 (B) and 2 (recovery) whether they do. -/
def State.bootRom (s : State) (verified : List Bool) : State :=
  let ok := fun k => verified.getD k true
  let order := s.bootOrder
  let failed := (order.takeWhile fun k => !ok k).filter fun k => decide (k < 2)
  let s := s.setUpd fun u => failed.foldl (fun u k => u.setSlot k fun x => { x with state := 6 }) u
  match order.find? ok with
  | none => (s.setLife fun l => { l with phase := 15 }).glbInt 0
  | some k =>
    let s := failed.foldl (fun s f => s.logEv evBootSlot uSup f k) s
    let second := k < 2 && s.life.startSlot != some k && k != s.upd.confirmed
    let s := s.setUpd fun u => { (if second then { u.setSlot k (fun x => { x with state := 3 }) with confirmed := k } else u) with active := k }
    let s := s.setLife fun l => { l with phase := 4, recovery := k == 2, bootSlot := k, sups := l.sups.map fun p => { p with image := k } }
    let s := if k = 2 then s.glbInt 1 else s
    s.measureStart k

/-- The event ring is recovered and EV_BOOT written, then what happened before it (R417). -/
def State.recoverRecorder (s : State) : State :=
  let r := s.evr
  let skip := if r.finalPage then 0 else 2048
  let next := skip + match r.flash.getLast? with
    | some e => e.seq + 1
    | none => r.next
  let old := (r.flash.head?.map fun e => e.seq).getD next
  let s := s.setEvr fun r => { r with next := next, copied := next, on := true, early := [], finalPage := false, cursor := old, cursorLo := BitVec.ofNat 32 old }
  let s := s.logEv evBoot uSup s.life.bootEpoch.toNat skip
  r.early.foldl (fun s e => s.logEv (e.1, e.2.1) e.2.2.1 e.2.2.2.1 e.2.2.2.2) s

/-- A history at a new boot epoch: its newest value, in force from the first admission on. -/
def settleHist {α : Type} (h : Hist α) : Hist α := (h.take 1).map fun x => (0, x.2)

/-- Key-space settings at a new boot epoch: the newest holds from the first command on, and a KS_DELETE that had not taken effect has none
(R44, R45). -/
def State.settleSpaces (s : State) : State :=
  s.setKv fun v => { v with committed := settleHist v.committed, hold := [], spaces := v.spaces.map fun k =>
    { k with createdAt := none, deletedAt := none, limits := settleHist k.limits, policy := settleHist k.policy, durable := settleHist k.durable } }

/-- A hold-up that ended short is reported at the next start-up (R225). -/
def State.reportShort (s : State) : State :=
  if s.hold.shortPending then (s.logEv evHoldupShort uPower (s.hold.shortJseq % 2 ^ 32) 0).setHold fun h => { h with shortPending := false }
  else s

/-- An interrupted crypto step is repeated in full, with a new salt; it is the whole of SANITIZE mode 1 (R407). -/
def State.repeatCrypto (s : State) : State :=
  if s.sec.san.state = 1 && s.sec.san.stage = 1 then
    (if s.sec.san.mode = 1 then (s.setSec fun x => { x with salt := x.salt + 1 }).measureSecurity else s).logEv evSanitize uCrypto s.sec.san.mode 2
  else s

/-- Phase 4 (R437, R417, R382, R425): supervisors, configuration data, event ring. Start-up replay, phases 5 to 7, then holds the tokens of a page read,
in class 0, one read after the other (R211; DESIGN CHOICE, log 81). A module with two DRAM channels retired has no service in the main image: it
restarts in the recovery image at once (R443; DEDUCED, log 91). -/
def State.supStart (s : State) : State :=
  let s := (((s.recoverRecorder).reportShort).settleSpaces.settleUpdate s.upd.active).resetEnds.retrain
  if !s.life.recovery && !s.life.maint && decide (2 ≤ (s.dram.chans.filter fun c => c.retired).length) then s.requestFull { cause := 12, slot := some 2 }
  else if s.life.maint then s.setLife fun l => { l with phase := 10 }
  else
    let s := s.repeatCrypto
    if s.life.recovery || s.sec.san.state = 1 then s.setLife fun l => { l with phaseEnded := true }
    else (s.setLife fun l => { l with phase := 5 }).askTokens 0 4 .replay

/-- The change log that replay builds of the records after the Mirror mark (R316). -/
def State.logFromJournal (s : State) : State :=
  let mk := s.mir.mark.getD 0
  let mirrors := fun ks => s.mirrored.any fun k => k.ks == ks
  if s.mir.pairing.isNone then s
  else
    let first := (s.jrn.log.head?.map fun r => r.1).getD s.jrn.jseqNext
    let s := if mk + 1 < first then s.setMir fun m => { m with fullKs := dedup (m.fullKs ++ s.mirrored.map fun k => k.ks) } else s
    let put := fun (s : State) ks key => if mirrors ks then s.logKey ks key 0 true else s
    (s.jrn.log.filter fun r => decide (mk < r.1)).foldl (fun s r => match r.2 with
      | .mapSet ks key .. => put s ks key
      | .mapDelete ks key _ => put s ks key
      | .mapMove ks key .. => put s ks key
      | .mapLost ks key .. => put s ks key
      | .mapReclaim ks key => put s ks key
      | .rangeDiscard _ ks lo hi .. => if mirrors ks then s.logRange ks lo hi else s
      | _ => s) s

/-- Go on to a phase of start-up. -/
def State.goPhase (s : State) (n : Nat) : State := s.setLife fun l => { l with phase := n }

/-- A port that is in use begins to train (R436). -/
def State.trainPort (s : State) (p : Fin 2) : State := if s.portUsable p then s.train p else s

/-- A compact table spills what its load limit leaves over (R201). -/
def State.spillCompact (s : State) : State := if s.prism.compact then s.spillOver else s

/-- START_UP_PHASE_DONE (R387, R417, R436-R438, R440): the present phase of start-up ends. -/
def execStartUpPhaseDone (verified : List Bool) (s : State) : Host.Outcome State Fault Refusal :=
  .next (
    if !s.life.mainOn || s.life.phaseEnded then s
    else
      match s.life.phase with
      | 1 => ((s.setLife fun l => { l with refOk := true, lockOk := true, refLost := false }).goPhase 2).startCharge
      | 2 => (s.trainPort 0).trainPort 1 |>.goPhase 3
      | 3 => s.bootRom verified
      | 4 => s.supStart
      | 5 => (if !s.prism.compact && s.dram.chans.any (fun c => c.retired) then s.changeIndex else s).goPhase 6
      | 6 => (((s.logFromJournal).rebuildIndex).spillCompact).goPhase 7
      | 7 => ((((s.recount).returnFor .replay).closeAllShort).pumpErases).goPhase 8
      | 8 => if s.closingShort then s else s.setLife fun l => { l with phaseEnded := true }
      | _ => s)

/-- The servo of a source 1 to 4 that has taken no sample starts from holdover (R439). -/
def State.servoStart (s : State) : State :=
  if decide (1 ≤ s.ptp.source) && decide (s.ptp.source ≤ 4) && s.ptp.lastSample = 0 then s.setPtp fun t => { t with holdover := true } else s

/-- SERVICE_INSTANT (R436, R438, R439): HELLO and REQ are accepted from now on; the Mirror link reopens. -/
def execServiceInstant (s : State) : Host.Outcome State Fault Refusal :=
  .next (
    if !s.life.phaseEnded then s
    else
      let s := (s.setLife fun l => { l with phase := if l.recovery then 11 else 9, phaseEnded := false }).glbInt 3
      let s := s.servoStart
      if s.life.recovery || s.sec.san.state = 1 then s else s.openLink)

end Sys2Proof.Machine
end

