-- ==== Sys2Proof/Machine/Sup.lean ====
section
/-! DEFINITION. The commands of the active SUP that keep key spaces and the medium, and the logs, certificates and quotes (03 R107-R112,
R118-R120; 02 R44, R45, R74; 12 R390-R393, R403-R408; 13 R418, R419). -/

namespace Sys2Proof.Machine

-- Key spaces.

/-- KS_CREATE past the common checks (R107, R43, R75, R79, R313). -/
def State.ksCreate (s : State) (c : Cmd) : State :=
  let e := c.entry
  let pol := policyOf (bitsOf (e.arg 40 1) 2 1)
  if s.prism.keyLimit < e.arg 56 4 then s.fail c stInvalid
  else if (s.kv.spaces.any fun k => inSpace e.ks c.adm k) then s.fail c stInvalid
  else if pol != .off && !s.part.ta then s.fail c stUnsupported
  else if roRefuses (s.roAt c.adm) 0x10 then s.fail c stReadOnly
  else if pol != .off && (s.mir.pairing.isNone || s.mir.unpairAt.isSome) then s.fail c stPeerUnreachable
  else if s.kv.spaces.any (fun k => k.ks == e.ks) then s
  else
    let s := s.newSpace e.ks c.adm (bitOf (e.arg 40 1) 0) ⟨e.arg 48 8, e.arg 56 4⟩ pol (bitOf (e.arg 40 1) 3) false
    let s := if pol == .off then s
      else if s.mir.state = 2 then s.offerSeed e.ks
      else (s.setSpace e.ks fun k => { k with seedDue := true }).enterState e.ks 3
    s.writeKeys.ok c 0 0

/-- KS_CREATE (R107): it waits while a KS_DELETE of the number has not completed (R44). -/
def execKsCreate (s : State) : Host.Outcome State Fault Refusal := .next (s.runSup 0x10 State.ksCreate)

/-- KS_DELETE past the common checks (R108, R44, R79): from its admission position on the key space is unknown; it deletes nothing yet. -/
def State.ksDelete (s : State) (c : Cmd) : State :=
  if c.entry.ks = 0 then s.fail c stInvalid
  else if roRefuses (s.roAt c.adm) 0x11 then s.fail c stReadOnly
  else
    let s := s.setSpaces (inSpace c.entry.ks c.adm) fun k => { k with deletedAt := some c.adm }
    s.leave c.adm fun c => { c with st := .deleting }

/-- KS_DELETE (R108). -/
def execKsDelete (s : State) : Host.Outcome State Fault Refusal := .next (s.runSup 0x11 State.ksDelete)

/-- Whether a journal record names a key or range of a key space. -/
def JRec.ofSpace (r : JRec) (ks : Nat) : Bool :=
  match r with
  | .mapSet k .. | .mapDead k _ | .mapDelete k .. | .mapMove k .. | .mapLost k .. | .mapReclaim k .. => k == ks
  | .rangeDiscard _ k .. | .rangeDone _ k => k == ks
  | _ => false

/-- Everything that names a key of a key space leaves the durable index: its key is destroyed (R45, R397). -/
def Journal.forget (j : Journal) (ks : Nat) : Journal :=
  let keep := fun (l : List (Nat × JRec)) => l.filter fun r => !r.2.ofSpace ks
  { j with page := keep j.page, flying := keep j.flying, log := keep j.log
           slices := j.slices.map (fun (x : Slice) => { x with rows := x.rows.filter (fun r => r.ks != ks), ranges := x.ranges.filter (fun r => r.ks != ks)
                                                               keys := x.keys.filter (fun r => r.1 != ks) }) }

/-- Free the Landing records of a key space (R45): one whose row is being programmed is freed when its program has ended. -/
def State.freeSpaceRecs (s : State) (ks : Nat) : State :=
  let mine := s.land.recs.filter fun r => r.ks == ks
  let inJob := fun (r : LRec) => s.flash.jobs.any fun j => j.items.any fun i => i.land == some r.id
  let s := s.setFlash fun f => { f with jobs := f.jobs.map fun (j : Job) => { j with items := j.items.map fun (i : JobItem) =>
    (if mine.any (fun r => i.land == some r.id) then { i with dropped := true } else i) } }
  (mine.filter fun r => !inJob r).foldl (fun s r => (s.unplace r.id).freeRec r.id) s

/-- The writes of a deleted key space are done for every FLUSH that covers them, and no FLUSH waits for the peer about them any more (R69). -/
def State.flushDeleted (s : State) (ks : Nat) : State :=
  let adms := (s.land.recs.filter fun r => r.ks == ks).map (fun r => r.adm) ++ (s.mir.sendq.filter fun m => m.ks == ks).map fun m => m.adm
  adms.foldl (fun s a => (s.flushCovered a).flushAcked a) s

/-- What a key space holds leaves the index, the tables and the change log (R45). -/
def State.forgetSpace (s : State) (ks : Nat) : State :=
  let s := (s.flushDeleted ks).discardAsms fun a => a.ks == ks
  let s := (s.kv.lost.filter fun l => l.ks == ks).foldl (fun s l => s.freeLost l.index) s
  let mine := s.prism.entries.filter fun e => (s.keyAt e.loc).any fun k => k.1 == ks
  let s := s.setPrism fun p => { p with entries := p.entries.filter (fun e => !mine.contains e), nodes := p.nodes.filter fun n => n.ks != ks }
  let s := (s.setJrn fun j => j.forget ks).freeSpaceRecs ks
  let s := s.setKv fun v => { v with ranges := v.ranges.filter (fun r => r.ks != ks) }
  (s.dropLog ks).dropSync ks

/-- Whether a command admitted before a position has not completed; one whose completion is not written has not (R157). -/
def State.earlierOut (s : State) (adm : Nat) : Bool :=
  (s.cmds.any fun x => decide (x.adm < adm)) || s.tr.qps.any fun q => q.cplWait.any fun k => decide (k.adm < adm)

/-- KS_DELETE_TAKES_EFFECT (R44, R45, R108, R313): every command admitted before it has completed. -/
def execKsDeleteTakesEffect (adm : Nat) (s : State) : Host.Outcome State Fault Refusal :=
  .next (match s.cmd? adm with
    | none => s
    | some c =>
      match s.kv.spaces.find? fun k => k.ks == c.entry.ks && k.deletedAt == some adm with
      | none => s
      | some k =>
        if c.st != .deleting || !s.running || s.earlierOut adm then s
        else
          let s := (s.setKv fun v => { v with spaces := v.spaces.filter fun x => !(x.ks == k.ks && x.deletedAt == some adm) }).forgetSpace k.ks
          let s := if k.policyNow == .off || c.src == .mirror || s.mir.pairing.isNone then s
            else if s.mir.state = 2 then (s.sendCfg k.ks 2 k.ordered .off).1
            else s.logDelete k.ks
          ((s.writeKeys).reviewCapacity).ok c k.bytes k.keys)

/-- The end of KS_SET_LIMIT (R67, R109): the changed table is to be written to configuration data; a landed command completes now with the values
before, a durable one when both copies hold the table. -/
def State.limitSet (s : State) (c : Cmd) (oldCap oldKeys : Nat) : State :=
  let s := s.setKv fun v => { v with tableAt := v.tableAt.or (some s.now) }
  if s.isDurable c then
    (s.leave c.adm fun c => { c with st := .tableWait, committed := true, res0 := oldCap, res1 := oldKeys }).setKv fun v => { v with tableWaits := v.tableWaits ++ [c.adm] }
  else s.ok c oldCap oldKeys

/-- KS_SET_LIMIT past the common checks (R109, R76, R77): the new limit is in force at once, whatever its durability (R67). -/
def State.ksSetLimit (s : State) (c : Cmd) : State :=
  let e := c.entry
  let setCap := bitOf (e.arg 40 1) 0
  let setKeys := bitOf (e.arg 40 1) 1
  if !setCap && !setKeys then s.fail c stInvalid
  else if e.ks = 0xFF then
    if setKeys || s.kv.maxCommitted < e.arg 48 8 then s.fail c stInvalid
    else
      let old := s.committedAt c.adm
      ((s.setKv fun k => { k with committed := (c.adm, e.arg 48 8) :: k.committed }).reviewCapacity).limitSet c old s.prism.keyLimit
  else
    match s.spaceOf c with
    | none => s.fail c stKsUnknown
    | some k =>
      let old := k.limitsAt c.adm
      let new : Limits := ⟨if setCap then e.arg 48 8 else old.capacity, if setKeys then e.arg 56 4 else old.keys⟩
      (s.setSpaces (inSpace e.ks c.adm) fun k => { k with limits := (c.adm, new) :: k.limits }).limitSet c old.capacity old.keys

/-- KS_SET_LIMIT (R109). -/
def execKsSetLimit (s : State) : Host.Outcome State Fault Refusal := .next (s.runSup 0x12 State.ksSetLimit)

-- FORMAT and SANITIZE.

/-- Everything stored is destroyed: index, tables, journal, Landing, caches and units in flight (R403). SANITIZE takes a new salt. -/
def State.destroyAll (s : State) : State :=
  let s := (s.kv.assemblies.map fun a => a.id).foldl (fun s id => s.discardAsm id) s
  let s := s.setKv fun v => { v with spaces := [], ranges := [], lost := [], lostOver := [], deferred := [], defOverflow := 0, assemblies := [],
                                     flushes := [], tableAt := none, tableWaits := [] }
  let s := s.setPrism fun p => { p with entries := [], cacheBuckets := [], valueCache := [], headerCache := [], nodes := [], nodeCache := [] }
  let s := s.setJrn fun j => { jseqNext := j.jseqNext, pagesDurable := j.pagesDurable }
  let s := s.setLand fun l => { l with recs := [], freeCells := l.cellTotal, inUse := 0, stagingUsed := 0, resLanding := 0, freeCharge := l.usable - l.resShutdown }
  let s := s.setFlash fun f => { f with jobs := [], reads := [], nodeq := [], copy := none, repacking := false, gcSpace := false, rebuildRun := false
                                        segs := f.segs.map fun g => { g with st := .erasing, recs := [], tail := [], rebuild := false, refresh := false, eraseAsked := false } }
  let keep := fun (w : Purpose) => match w with
    | .program .. | .read _ | .rebuild _ | .erase .. | .journal | .checkpoint | .sweep _ | .scrub .. | .table => false
    | _ => true
  let gone := s.pwr.grants.filter fun g => !keep g.why
  let s := s.setPwr fun p => { p with queue := p.queue.filter fun q => keep q.why }
  let s := gone.foldl (fun s g => s.returnGrant g.id) s
  let s := (s.setDram fun d => { d with mem := [], sram := [] }).setMover fun _ => {}
  let s := s.setSec fun x => { x with salt := if x.san.mode = 4 then x.salt else x.salt + 1 }
  (s.setMir fun m => { m with log := [], logRanges := [], logDeletes := [], fullKs := [], resyncq := [], staged := [] }).measureSecurity

/-- FORMAT and SANITIZE ask for the tokens of their erases, or in overwrite mode of a TLC program, which they hold to their end: one die is erased or
programmed at a time, in class 3 (R209, R211; DESIGN CHOICE, log 81). -/
def State.askMedium (s : State) : State :=
  if (s.grantFor .medium).isSome || s.pwr.queue.any fun q => q.why == .medium then s
  else s.askTokens 3 (if s.sec.san.mode = 3 then 9 else 6) .medium

/-- The steps of R405, and the start of the operation once they are done (R111). -/
def State.trySanitize (s : State) : State :=
  let x := s.sec.san
  let others := x.adm.any fun a => s.earlierOut a
  if x.state ≠ 1 || x.stage ≠ 0 || !s.running || others || s.upd.state = 2 || s.upd.state = 4 || s.upd.state = 5 || s.upd.rollback then s
  else
    let s := if s.upd.state = 1 || s.upd.state = 3 then s.abandonUpdate else s
    let s := if s.mir.pairing.isNone then s else (if s.mir.state = 2 then s.sendClose else s).forgetPairing
    let s := s.setSec fun x => { x with san := { x.san with stage := 1, runFrom := some s.now } }
    ((s.destroyAll).logEv evSanitize uCrypto x.mode 1).askMedium

/-- FORMAT and SANITIZE past the common checks: the command leaves its mailbox and completes when the operation has ended (R110). -/
def State.sanitizeCmd (s : State) (c : Cmd) : State := (s.leave c.adm fun c => { c with st := .sanitizing }).trySanitize

/-- FORMAT (R110, R403). -/
def execFormat (s : State) : Host.Outcome State Fault Refusal := .next (s.runSup 0x18 State.sanitizeCmd)

/-- SANITIZE (R110, R403). -/
def execSanitize (s : State) : Host.Outcome State Fault Refusal := .next (s.runSup 0x19 State.sanitizeCmd)

/-- Erases of every segment block by a mode before its completion (R403); the background erase of mode 1 goes segment by segment. -/
def sanErases (mode : Nat) : Nat := match mode with | 1 => 0 | 3 => 2 | _ => 1

/-- Bytes that SANITIZE overwrite programs: each of the 7,200 blocks of every die in service (R408), 2,304 pages of 16 KiB. -/
def State.overwriteBytes (s : State) : Nat := (s.flash.dies.filter fun d => s.dieServes d.ch d.pos).length * 7200 * 2304 * 16384

/-- The module is formatted, the blocks of checkpoints, journal and lost table erased in both copies (R253, R403): key space 0 and new keys; SANITIZE clears the commissioning secret and RO_HOLD (R403, R404). -/
def State.formatted (s : State) : State :=
  let x := s.sec.san
  let now := s.mbx.admNext
  let s := s.setKv fun v => { v with committed := [(0, v.maxCommitted)], committedSaved := v.maxCommitted }
  let s := (s.newSpace 0 now x.ordered ⟨0, 0⟩ .off false false).setSpaces (fun k => k.ks == 0) fun k => { k with createdAt := none }
  let s := (s.setPrism fun p => { p with digestKey := BitVec.ofNat 128 s.freeVal }).freeNext
  let s := s.setSec fun y => { y with metaKey := y.keyNext, keyNext := y.keyNext + 1, secret := if x.mode = 4 then y.secret else none }
  let s := s.writeKeys
  let s := if x.mode = 1 then s
    else s.flash.segs.foldl (fun s g => g.retireCh.foldl (fun s ch => s.retireBlock ch (segPos g.seg) (segSlot g.seg) 1) s) s
  let s := s.setFlash fun f => { f with segs := if x.mode = 1 then f.segs else [], eraseAll := f.eraseAll + sanErases x.mode, scrubMarks := []
                                        metaErases := f.metaErases + 2 * sumBy (s.metaSizes.take 3) id
                                        programmed := f.programmed + (if x.mode = 3 then s.overwriteBytes else 0) }
  let s := s.setHold fun h => { h with commissionDue := true }
  let s := s.roBit 1 false
  let s := if x.mode = 4 then s else ((s.setStored fun c => { c with roHold := false }).setKv fun v => { v with hold := [] }).roBit 3 false
  (((s.measureSecurity).reviewWear).reviewSpace).pumpErases

/-- SANITIZE_DONE (R403, R407, R408): the operation, whose tokens are held (R209), ends and its command completes; after a reset nothing is delivered. -/
def execSanitizeDone (s : State) : Host.Outcome State Fault Refusal :=
  .next (
    let x := s.sec.san
    if x.state ≠ 1 || !s.running then s
    else if x.stage = 0 then s.trySanitize
    else if (s.grantFor .medium).isNone then s.askMedium
    else
      let s := ((s.formatted).returnFor .medium).logEv evSanitize uCrypto x.mode 0
      let el := x.elapsedNs + (x.runFrom.map fun t => s.now - t).getD 0
      let s := s.setSec fun y => { y with san := { y.san with state := 2, adm := none, elapsedNs := el, runFrom := none } }
      match x.adm.bind s.cmd? with
      | some c => s.ok c 0 0
      | none => s)

/-- SANITIZE_STATUS (R117, R408): value0 and value1. The progress of a running operation is a free value (log 9). -/
def State.sanStatus (s : State) : Nat × Nat :=
  let x := s.sec.san
  let progress := if x.state = 2 then 65535 else if x.state = 1 && x.stage = 1 && x.mode ≠ 1 then s.freeVal % 65535 else 0
  let el := x.elapsedNs + (x.runFrom.map fun t => s.now - t).getD 0
  (x.mode + 16 * x.state + 256 * progress, el / ms)

-- The logs.

/-- An event record as it is read (R410). -/
def EvRec.bytes (e : EvRec) : Bytes :=
  le 2 e.code ++ le 1 (e.sev + 4 * b2n e.folded + 8 * b2n e.holdover) ++ le 1 e.src ++ le 2 e.rep ++ le 2 e.seq ++ le 8 e.up ++ le 8 e.wall ++
    le 4 e.p0.toNat ++ le 4 e.p1.toNat

/-- A deferred-error entry as it is read (R73). -/
def Deferred.bytes (d : Deferred) : Bytes :=
  le 1 d.ks ++ le 1 d.key.length ++ le 1 d.reason ++ le 1 (b2n d.resolved + 2 * b2n d.writerGone) ++ le 4 d.len ++ le 6 d.adm ++ le 2 d.entrySeq ++
    fit 240 d.key

/-- LOG_READ past the common checks (R118, R418, R73). Where log 1 returns no record, result1 is the number reading would have started at
(DESIGN CHOICE, log 58). -/
def State.logReadCmd (s : State) (c : Cmd) : State :=
  let start := c.entry.arg 48 8
  let most := c.entry.arg 56 4
  match c.entry.arg 40 1 with
  | 1 =>
    if c.respRoom < 32 then s.fail c stBufferShort
    else if s.evr.next < start then s.fail c stInvalid
    else
      let from_ := max start s.evr.oldest
      let got := (s.evr.held.filter fun e => decide (from_ ≤ e.seq)).take (min most (c.respRoom / 32))
      let after := (got.getLast?.map fun e => e.seq + 1).getD from_
      s.complete c stOk got.length after (got.flatMap EvRec.bytes)
  | 2 =>
    if c.respRoom < 256 then s.fail c stBufferShort
    else if 255 < start then s.fail c stInvalid
    else
      let got := (s.kv.deferred.drop start).take (min most (c.respRoom / 256))
      s.complete c stOk got.length (start + got.length) (got.flatMap Deferred.bytes)
  | _ => s.fail c stInvalid

/-- LOG_READ (R118). -/
def execLogRead (s : State) : Host.Outcome State Fault Refusal := .next (s.runSup 0x28 State.logReadCmd)

/-- LOG_CLEAR past the common checks (R419, R74). -/
def State.logClearCmd (s : State) (c : Cmd) : State :=
  match c.entry.arg 40 1 with
  | 1 => (s.clearLog1).ok c 0 0
  | 2 =>
    let n := s.kv.deferred.length
    ((s.setKv fun k => { k with deferred := [], defOverflow := 0 }).logEv evLogCleared uEvr 2 n).ok c 0 0
  | _ => s.fail c stInvalid

/-- LOG_CLEAR (R118). -/
def execLogClear (s : State) : Host.Outcome State Fault Refusal := .next (s.runSup 0x29 State.logClearCmd)

-- Certificates and quotes.

/-- CERT_READ past the common checks (R390, R119). -/
def State.certReadCmd (s : State) (c : Cmd) : State :=
  let i := c.entry.arg 40 1
  let off := c.entry.arg 44 4
  let cert := (Config.cert i).take 2048
  if 2 < i || cert.length < off then s.fail c stInvalid
  else if c.respRoom < cert.length - off then s.complete c stBufferShort (cert.length - off) 0 []
  else s.complete c stOk cert.length 0 (cert.drop off)

/-- CERT_READ (R390). -/
def execCertRead (s : State) : Host.Outcome State Fault Refusal := .next (s.runSup 0x39 State.certReadCmd)

/-- A measurement entry (R391). -/
def measBytes (i : Nat) (m : Meas) : Bytes :=
  if m.valid then le 1 i ++ le 1 1 ++ le 6 0 ++ le 8 m.version ++ fit 32 m.digest else le 1 i ++ le 47 0

/-- Bytes 0-479 of a quote (R392). -/
def State.quoteBody (s : State) (nonce : Bytes) : Bytes :=
  le 2 0xC5F4 ++ le 2 1 ++ le 4 864 ++ fit 24 s.ident.serial ++ le 4 s.part.capUnits ++ le 4 s.part.capPop ++ le 2 s.life.bootEpoch.toNat ++ le 6 0 ++
    le 8 s.uptime ++ le 8 s.sec.attestCount ++ fit 32 nonce ++ ((List.range 8).zip s.sec.meas).flatMap fun x => measBytes x.1 x.2

/-- Start the next quote when its tokens have been granted: the entries are latched, the commit point of ATTEST (R392, R393). The oldest ATTEST
that waits asks for the tokens. -/
def State.pumpSign (s : State) : State :=
  if s.sec.signGrant.isSome then s
  else match s.sec.attestQ with
    | [] => s
    | a :: _ =>
      let s := if (s.grantFor (.signing a)).isSome || s.pwr.queue.any (fun q => q.why == .signing a) then s else s.askTokens 1 48 (.signing a)
      match s.grantFor (.signing a), s.cmd? a with
      | some g, some c =>
        let s := s.setSec fun x => { x with attestQ := x.attestQ.filter (fun y => y != a), attestCount := x.attestCount + 1, signGrant := some g.id }
        (s.setSec fun x => { x with quote := s.quoteBody (c.payload.getD []) }).setCmd a fun c => { c with st := .signing, committed := true }
      | _, _ => s

/-- ATTEST past the common checks (R392, R393): it waits for its turn and its tokens apart from the mailbox. -/
def State.attestCmd (s : State) (c : Cmd) : State :=
  if c.respRoom < 864 then s.complete c stBufferShort 864 0 []
  else
    let s := s.leave c.adm fun c => { c with st := .signWait s.now }
    (s.setSec fun x => { x with attestQ := x.attestQ ++ [c.adm] }).pumpSign

/-- ATTEST (R392). -/
def execAttest (s : State) : Host.Outcome State Fault Refusal := .next (s.runSup 0x38 State.attestCmd)

/-- ATTEST_SIGNING_DONE (R392, R393): the signature is a free value of the quote and its salt. -/
def execAttestSigningDone (s : State) : Host.Outcome State Fault Refusal :=
  .next (
    let s := s.pumpSign
    match s.sec.signGrant, s.cmds.find? fun c => c.st == .signing with
    | some g, some c =>
      let sig := pssSign Config.identityKey (sha256 s.sec.quote) (be 32 s.freeVal)
      let q := s.sec.quote
      let s := ((s.freeNext).setSec fun x => { x with signGrant := none, quote := [] }).returnGrant g
      (s.complete c stOk 864 0 (fit 480 q ++ sig)).pumpSign
    | _, _ => s)

/-- ATTEST_BUSY_TIMEOUT (R120): no signing tokens within 100 ms. -/
def execAttestBusyTimeout (adm : Nat) (s : State) : Host.Outcome State Fault Refusal :=
  .next (
    let s := s.pumpSign
    match s.cmd? adm with
    | some c =>
      match c.st with
      | .signWait t => if s.past t (100 * ms) then (((s.releaseHeld c).fail c stBusy)).pumpSign else s
      | _ => s
    | none => s)

end Sys2Proof.Machine
end

