-- ==== Sys2Proof/Machine/Features.lean ====
section
/-! DEFINITION. IDENT, GET_FEATURE and SET_FEATURE (03 R113-R117; 04 R126, R146; 06 R206, R207, R231, R232; 10 R332, R345; 11 R371). -/

namespace Sys2Proof.Machine

-- IDENT.

/-- The power-state entries of IDENT: state, max_power_mw, exit_us, idle_ms (R114). -/
def psTable : List (Nat × Nat × Nat × Nat) :=
  [(0, 30000, 0, 0), (1, 14000, 20, 50), (2, 6500, 150, 2000), (3, 2800, 3000, 60000), (4, 900, 350000, 0)]

/-- A text field padded with spaces. -/
def spaced (n : Nat) (b : Bytes) : Bytes := (b ++ List.replicate (n - b.length) 0x20).take n

/-- A bitmap of `n` bytes with the bits that `p` picks. -/
def bitsWhere (n : Nat) (p : Nat → Bool) : Bytes := le n (((List.range (8 * n)).filter p).foldl (fun v k => v + 2 ^ k) 0)

/-- The IDENT structure (R113). -/
def State.identStruct (s : State) : Bytes :=
  let p := s.part
  fit 1024 (le 2 1 ++ le 2 0 ++ le 4 p.capUnits ++ le 4 p.capPop ++ le 4 0 ++ spaced 32 p.name ++ spaced 24 s.ident.serial ++ le 8 s.fwActive ++
    le 8 s.ident.fwRecovery ++ le 8 p.userCap ++ le 4 16777216 ++ le 1 240 ++ le 1 64 ++ le 2 8192 ++ le 2 1024 ++ le 2 4096 ++ le 4 65536 ++
    le 2 512 ++ le 2 (if p.ta then 1024 else 0) ++ le 2 16 ++ le 2 4096 ++ le 2 1024 ++ le 6 0 ++ bitsWhere 16 (opServed p) ++
    bitsWhere 32 (fun n => featureIds.contains n) ++ be 6 s.ident.mac0.toNat ++ be 6 (if p.ta then s.ident.mac1.toNat else 0) ++ le 4 0 ++
    psTable.flatMap fun x => le 4 x.2.1 ++ le 4 x.2.2.1 ++ le 4 x.2.2.2 ++ le 1 x.1 ++ le 3 0)

/-- IDENT past the common checks. -/
def State.identCmd (s : State) (c : Cmd) : State :=
  if c.respRoom < 1024 then s.fail c stBufferShort else s.complete c stOk 0 0 s.identStruct

/-- IDENT (R113). -/
def execIdent (s : State) : Host.Outcome State Fault Refusal := .next (s.runSup 0x20 State.identCmd)

-- Features.

/-- The port a per-port feature names. -/
def portOf (ks : Nat) : Fin 2 := Fin.ofNat 2 ks

/-- The status of a feature's identifier and ks field, or none where both are good (R115, R116, R444). -/
def State.featureStatus (s : State) (f ks pos : Nat) : Option Status :=
  if !featureIds.contains f then some stUnsupported
  else if featurePerPort f then
    if 1 < ks then some stInvalid else if s.portUsable (portOf ks) then none else some stUnsupported
  else if f = 0x0008 then
    if 63 < ks then some stInvalid
    else if s.kv.spaces.any (fun k => inSpace ks pos k && !k.hidden) then none else some stKsUnknown
  else if ks ≠ 0 then some stInvalid
  else none

/-- value0 and value1 of a feature at an admission position (R117). -/
def State.featureValue (s : State) (f ks pos : Nat) : Nat × Nat :=
  let st := s.stored
  let p := s.portCfg (portOf ks)
  let idle := fun i => st.psIdle.getD i 0
  match f with
  | 0x0001 => (st.psCap, 0)
  | 0x0002 => (s.pwr.ps.val, 0)
  | 0x0003 => (idle 0 + 2 ^ 32 * idle 1, idle 2 + 2 ^ 32 * idle 3)
  | 0x0004 => (st.powerClass, 0)
  | 0x0005 => (st.ilimit, 0)
  | 0x0008 => (b2n (((s.kv.spaces.find? fun k => inSpace ks pos k).map fun k => histAt false k.durable pos).getD false), 0)
  | 0x0009 => (b2n st.roHold, 0)
  | 0x000A => (st.skiffPort, 0)
  | 0x000B => (st.skiffIdle, 0)
  | 0x000C => s.sanStatus
  | 0x0010 => (p.step0.toNat, p.step1.toNat)
  | 0x0011 => (p.pauseWdog.toNat, 0)
  | 0x0014 => (p.ipv4.1.toNat, p.ipv4.2.toNat)
  | 0x0015 => (p.ipv6.1.toNat, p.ipv6.2.toNat)
  | 0x0020 => (st.cf0.toNat, st.cf1.toNat)
  | _ => (0, 0)

/-- PS_IDLE (R231): a deeper non-zero timer is not shorter than a shallower non-zero one. -/
def idleOrdered (l : List Nat) : Bool :=
  let n := l.filter fun t => t != 0
  (n.zip (n.drop 1)).all fun x => decide (x.1 ≤ x.2)

/-- RATE_STEPDOWN (R332). -/
def stepdownOk (v0 v1 : Nat) : Bool :=
  decide (v0 < 2 ^ 32) && decide (v1 < 2 ^ 24) && decide (bitsOf v0 3 2 ≤ 2) && bitsOf v0 7 4 == 0 && decide (5 ≤ bitsOf v0 15 8) &&
    decide (bitsOf v0 15 8 ≤ 80) && decide (60 ≤ bitsOf v0 31 16) && decide (bitsOf v1 15 0 ≤ 3600) && decide (50 ≤ bitsOf v1 23 16) &&
    decide (bitsOf v1 23 16 ≤ 100)

/-- PORT_IPV4 (R126): an all-zero address leaves prefix and gateway untested. -/
def ipv4Ok (v0 v1 : Nat) : Bool :=
  decide (v0 < 2 ^ 38) && decide (v1 < 2 ^ 32) && (v0 % 2 ^ 32 == 0 || (decide (1 ≤ bitsOf v0 37 32) && decide (bitsOf v0 37 32 ≤ 30)))

/-- CF_DOWNSTREAM (R371). -/
def downstreamOk (v0 v1 : Nat) : Bool :=
  let kind := bitsOf v0 3 2
  bitsOf v0 15 5 == 0 && kind != 3 && (if kind = 0 then v1 == 0 else bitsOf v0 63 32 == 0)

/-- Whether new values of a feature are in range (R116, R117, R146, R232, R309). -/
def State.featureOk (s : State) (f v0 v1 : Nat) : Bool :=
  let small := fun lo hi => v1 == 0 && decide (lo ≤ v0) && decide (v0 ≤ hi)
  match f with
  | 0x0001 => small 0 4
  | 0x0002 => small 0 s.stored.psCap
  | 0x0003 => idleOrdered [v0 % 2 ^ 32, v0 / 2 ^ 32, v1 % 2 ^ 32, v1 / 2 ^ 32]
  | 0x0004 => small 0 3
  | 0x0005 => small 500 6000
  | 0x0008 | 0x0009 => small 0 1
  | 0x000A => small 1024 65535 && v0 != 4791 && !(s.mir.pairing.any fun p => p.udp == v0)
  | 0x000B => small 10 86400
  | 0x0010 => stepdownOk v0 v1
  | 0x0011 => small 0 0 || small 10 10000
  | 0x0014 => ipv4Ok v0 v1
  | 0x0015 => true
  | 0x0020 => downstreamOk v0 v1
  | _ => false

/-- Change a port's stored configuration. -/
def State.setPortCfg (s : State) (p : Fin 2) (f : PortCfg → PortCfg) : State := s.setStored fun x => { x with ports := modAt x.ports p.val f }

/-- Sessions and queue pairs bound to an address of a port end (R126). -/
def State.endBound (s : State) (p : Fin 2) (addr : Bytes) : State :=
  let mine := fun (r : Rx) => r.port == p && r.localAddr == addr
  let s := (s.tr.sessions.filter fun x => mine x.rx && x.st != .expired).foldl (fun s x => s.expireSession x.uid) s
  (s.tr.qps.filter fun q => mine q.rx && (q.st == .opened || q.st == .ended true)).foldl (fun s q => s.endConnection q.uid false) s

/-- A port's IPv4 address as an IPv4-mapped address, and its IPv6 global address (R126). -/
def PortCfg.addrs (c : PortCfg) : Bytes × Bytes :=
  (List.replicate 10 0 ++ [0xFF, 0xFF] ++ be 4 c.v4, be 8 c.ipv6.1.toNat ++ be 8 c.ipv6.2.toNat)

/-- Put new feature values in force from an admission position on (R116). A PS_NOW request that a lowered PS_CAP no longer admits is dropped (DESIGN
CHOICE, log 60). -/
def State.putFeature (s : State) (f ks pos v0 v1 : Nat) : State :=
  let p := portOf ks
  match f with
  | 0x0001 =>
    let s := (s.setStored fun x => { x with psCap := v0 }).setPwr fun x => { x with psRequest := x.psRequest.filter fun n => decide (n.val ≤ v0) }
    if v0 < max s.pwr.ps.val s.pwr.psTarget.val then s.wake else s
  | 0x0002 => if v0 = 0 then (s.setPwr fun x => { x with psRequest := none }).wake else s.setPwr fun x => { x with psRequest := some (Fin.ofNat 5 v0) }
  | 0x0003 => s.setStored fun x => { x with psIdle := [v0 % 2 ^ 32, v0 / 2 ^ 32, v1 % 2 ^ 32, v1 / 2 ^ 32] }
  | 0x0004 => (s.setStored fun x => { x with powerClass := v0 }).reviewClass
  | 0x0005 => (s.setStored fun x => { x with ilimit := v0 }).evalIlimit
  | 0x0008 => s.setSpaces (inSpace ks pos) fun k => { k with durable := (pos, v0 == 1) :: k.durable }
  | 0x0009 =>
    let old := s.stored.roHold
    let s := s.setKv fun k => { k with hold := (pos, v0 == 1) :: (if k.hold.isEmpty then [(0, old)] else k.hold) }
    (s.setStored fun x => { x with roHold := v0 == 1 }).roBit 3 (v0 == 1)
  | 0x000A => s.setStored fun x => { x with skiffPort := v0 }
  | 0x000B => s.setStored fun x => { x with skiffIdle := v0 }
  | 0x0010 => s.setPortCfg p fun c => { c with step0 := BitVec.ofNat 32 v0, step1 := BitVec.ofNat 32 v1 }
  | 0x0011 => s.setPortCfg p fun c => { c with pauseWdog := BitVec.ofNat 16 v0 }
  | 0x0014 => (s.endBound p (s.portCfg p).addrs.1).setPortCfg p fun c => { c with ipv4 := (BitVec.ofNat 64 v0, BitVec.ofNat 64 v1) }
  | 0x0015 => (s.endBound p (s.portCfg p).addrs.2).setPortCfg p fun c => { c with ipv6 := (BitVec.ofNat 64 v0, BitVec.ofNat 64 v1) }
  | 0x0020 => s.setStored fun x => { x with cf0 := BitVec.ofNat 64 v0, cf1 := BitVec.ofNat 64 v1 }
  | _ => s

/-- SET_FEATURE past the common checks (R115, R116). CF_DOWNSTREAM that names an absent or retired port is not supported (R371, R444); one that neither
enables a neighbour nor sets the port bit names none (DEDUCED, log 61). -/
def State.setFeatureCmd (s : State) (c : Cmd) : State :=
  let f := c.entry.arg 40 2
  let v0 := c.entry.arg 48 8
  let v1 := c.entry.arg 56 8
  match s.featureStatus f c.entry.ks c.adm with
  | some st => s.fail c st
  | none =>
    if f = 0x0020 && (bitOf v0 0 || bitOf v0 1) && !s.portUsable (if bitOf v0 1 then 1 else 0) then s.fail c stUnsupported
    else if !s.featureOk f v0 v1 then s.fail c stInvalid
    else
      let old := s.featureValue f c.entry.ks c.adm
      (s.putFeature f c.entry.ks c.adm v0 v1).ok c old.1 old.2

/-- SET_FEATURE (R115). -/
def execSetFeature (s : State) : Host.Outcome State Fault Refusal := .next (s.runSup 0x21 State.setFeatureCmd)

/-- GET_FEATURE past the common checks (R115). -/
def State.getFeatureCmd (s : State) (c : Cmd) : State :=
  let f := c.entry.arg 40 2
  match s.featureStatus f c.entry.ks c.adm with
  | some st => s.fail c st
  | none =>
    let v := s.featureValue f c.entry.ks c.adm
    (if f = 0x000C then s.freeNext else s).ok c v.1 v.2

/-- GET_FEATURE (R115). -/
def execGetFeature (s : State) : Host.Outcome State Fault Refusal := .next (s.runSup 0x22 State.getFeatureCmd)

end Sys2Proof.Machine
end

