-- ==== Sys2Proof/Machine/Summary.lean ====
section
/-! DEFINITION. The summary block (13 R426-R428; 11 R383; 01 R39). -/

namespace Sys2Proof.Machine

/-- Pack fields of `w` bits, the first lowest, into `n` bytes. -/
def packed (n w : Nat) (l : List Nat) : Bytes := le n (l.foldr (fun x v => x % 2 ^ w + 2 ^ w * v) 0)

/-- State codes of the bank (R220). -/
def BankSt.code : BankSt → Nat
  | .absent => 0 | .charging => 1 | .healthy => 2 | .belowRating => 3 | .faulty => 4

/-- Coding of channel_state and die_state (R276). -/
def retiredCode (retired rebuilt : Bool) : Nat := if !retired then 0 else if rebuilt then 2 else 1

/-- Minimum, mean and maximum erase count of the TLC segment blocks (R279). -/
def State.eraseStats (s : State) : Nat × Nat × Nat :=
  let l := s.blockCounts
  let n := l.map fun b => b.1
  (n.foldl min (n.headD 0), sumBy l (fun b => b.1 * b.2) / max s.segBlocks 1, n.foldl max 0)

/-- Ledgers 1 and 2 summed over open sessions and queue pairs, the side-band mailbox and the Mirror receiver (R426). -/
def State.ledgerSums (s : State) : List Nat :=
  let qps := s.tr.qps.filter fun q => match q.st with
    | .freed _ => false
    | _ => true
  let cl := s.tr.sessions.map (fun x => x.cmds) ++ qps.map (fun q => q.cmds) ++ [s.mbx.cmds, s.tr.mirrorCmds]
  let cr := s.tr.sessions.map (fun x => x.credits) ++ qps.map (fun q => q.credits) ++ [s.mbx.credits, s.tr.mirrorCredits]
  [sumBy cl fun x => x.admitted, sumBy cl fun x => x.completed, sumBy cl fun x => x.outstanding,
   sumBy cr fun x => x.granted, sumBy cr fun x => x.inUse, sumBy cr fun x => x.returned]

/-- The five cell pools of R38 with free, in_use and total cells; those of an absent port are zero. -/
def State.cellPools (s : State) : List (Nat × Nat × Nat) :=
  let q : Fin 2 → List (Nat × Nat × Nat) := fun p => if p = 1 && !s.part.ta then [(0, 0, 0), (0, 0, 0)]
    else [((s.port p).rxFree, (s.port p).rxInUse, 768), ((s.port p).txFree, (s.port p).txInUse, 384)]
  q 0 ++ q 1 ++ [(s.land.freeCells, s.land.inUse, s.land.cellTotal)]

/-- The update status record (R383). -/
def State.updRecord (s : State) : Bytes :=
  let u := s.upd
  let open_ := u.state ≠ 0
  let auto := u.state = 3 && u.fwd.value0.getLsbD 4 && !u.autoUsed && (u.sources.head?.any fun x => x.kind == 3) && [1, 2, 6].contains u.fwd.state
  let left := if u.state = 5 then (600000 - (s.now - u.confirmAt) / ms) else 0
  le 1 u.state ++ le 1 u.step ++ le 1 u.result ++ le 1 (b2n u.testOk + 2 * b2n auto) ++ le 2 u.held.length ++
    le 2 (if open_ then blockCount u.header + 1 else 0) ++ le 8 (if open_ then hdr u.header 8 8 else 0) ++
    le 8 ((u.sources.head?.map UpdSrc.code).getD 0) ++ le 4 left ++ le 4 (if open_ then (s.now - u.idleS) / oneSec else 0) ++ le 1 u.fwd.state ++
    le 1 u.active ++ le 1 u.confirmed ++ le 1 0 ++ le 2 u.fwd.held.length ++ le 2 u.fwd.status.toNat ++ le 8 0 ++
    le 8 (if u.slotA.state = 0 then 0 else u.slotA.version) ++ le 8 (if u.slotB.state = 0 then 0 else u.slotB.version)

-- The source table.

/-- A line of the source table before it is laid out: rank by state, kind, number and the 64 bytes (R427). -/
structure SrcLine where
  rank : Nat
  kind : Nat
  number : Nat
  bytes : Bytes
  deriving DecidableEq, Repr

/-- Lay out a source entry (R427). -/
def srcLine (kind state : Nat) (rx : Rx) (role number window : Nat) (l : CmdLedger) (a b : Nat) (last : Option Nat) (age : Nat) (tags : List (BitVec 16)) :
    SrcLine :=
  { rank := match state with | 2 => 0 | 3 => 1 | _ => 2
    kind := kind, number := number
    bytes := le 1 kind ++ le 1 state ++ le 1 rx.port.val ++ le 1 role ++ le 2 number ++ le 2 (if kind = 1 then rx.hostUdp else 0) ++ fit 16 rx.hostAddr ++
      le 4 window ++ le 4 l.outstanding ++ le 4 l.admitted ++ le 4 l.completed ++ le 4 a ++ le 4 b ++ le 6 (last.getD 0) ++
      le 2 (min 65535 (age / oneSec)) ++ fit 8 ((tags.take 4).flatMap fun t => le 2 t.toNat) }

/-- The outstanding tags of a source, oldest first. -/
def State.tagsOf (s : State) (src : Source) (waiting : List Completion) : List (BitVec 16) :=
  let l := waiting.map (fun k => (k.adm, k.tag)) ++ (s.cmds.filter fun c => c.src == src).map fun c => (c.adm, c.entry.tag)
  (sortBy (fun a b => decide (a.1 < b.1)) l).map fun x => x.2

/-- The sources that match, ordered by state, kind and number (R427). -/
def State.sourceLines (s : State) (match_ : Rx → Bool) : List SrcLine :=
  let a := s.tr.sessions.filterMap fun x =>
    if match_ x.rx then
      some (srcLine 1 (if x.st == .opened then 1 else 2) x.rx x.role x.sid x.credits.inUse x.cmds x.nextExpected.toNat x.hostAck.toNat x.lastAdm (s.now - x.since)
        (s.tagsOf (.skiff x.uid) []))
    else none
  let b := s.tr.qps.filterMap fun q => match q.st with
    | .freed _ => none
    | st =>
      if match_ q.rx then
        some (srcLine 2 (if st == .opened then 1 else 2) q.rx q.role q.qp q.credits.inUse q.cmds (q.fetchPos + 65536 * q.cqTail) q.cqHead q.lastAdm (s.now - q.since)
          (s.tagsOf (.ferry q.uid) q.cplWait))
      else none
  let c := s.tr.ended.filterMap fun e =>
    if match_ e.rx && !s.past e.at_ (60 * oneSec) then
      some (srcLine e.kind 3 e.rx e.role e.number e.credits.inUse e.cmds e.posA e.posB e.lastAdm (s.now - e.at_) [])
    else none
  sortBy (fun x y => decide (x.rank < y.rank) || (x.rank == y.rank && (decide (x.kind < y.kind) || (x.kind == y.kind && decide (x.number < y.number)))))
    (a ++ b ++ c)

/-- The host address a command came from; none for the side-band mailbox. -/
def State.askerAddr (s : State) (c : Cmd) : Option Bytes :=
  match c.src with
  | .skiff u => (s.tr.sessions.find? fun x => x.uid == u).map fun x => x.rx.hostAddr
  | .ferry u => (s.tr.qps.find? fun q => q.uid == u).map fun q => q.rx.hostAddr
  | _ => none

/-- A compact deferred-error entry (R428). -/
def Deferred.compact (d : Deferred) : Bytes :=
  le 2 d.entrySeq ++ le 1 d.ks ++ le 1 (d.reason % 4 + 4 * b2n d.resolved + 8 * b2n d.writerGone + 16) ++ le 4 d.adm

/-- Bytes 0-319 of the summary block. -/
def State.summaryHead (s : State) : Bytes :=
  let p := s.part
  let fl := s.pwr.cls % 4 + 4 * b2n (decide (125 < s.thm.t)) + 8 * b2n s.thm.writePause + 16 * b2n s.pwr.ilimitBinds + 32 * b2n s.pwr.clamp +
    64 * b2n s.flash.pslc + 128 * b2n s.prism.compact
  let er := s.eraseStats
  let exist := bitsWhere 8 fun n => s.kv.spaces.any fun k => k.ks == n && k.deletedAt.isNone && !k.hidden
  let port := fun (q : Fin 2) => if q = 1 && !p.ta then 2 else if (s.port q).retired then 1 else 0
  let dram := min 255 s.dram.rowsSpared + 2 ^ 8 * (sumBy s.dram.chans (fun c => c.banksRetired) % 256) +
    2 ^ 16 * (s.dram.chans.filter fun c => c.retired).length
  fit 320 (le 2 0xC5F5 ++ le 2 1 ++ le 4 4096 ++ le 4 p.capUnits ++ le 4 p.capPop ++ le 8 s.fwActive ++ le 8 s.uptime ++ le 6 s.mbx.admNext ++
    le 2 s.life.bootEpoch.toNat ++ le 8 s.wallNs ++ le 1 (s.pwr.ps.val + 8 * s.stored.psCap) ++ le 1 fl ++ le 1 s.hold.st.code ++
    le 1 s.kv.roReason.toNat ++ le 2 s.pwr.vin10mV ++ le 2 s.pwr.pinMw ++ le 2 (toField 16 s.thm.ctrl16) ++ le 2 (toField 16 s.thm.flash16) ++
    le 1 s.thm.hotDie ++ le 1 (deratePct s.thm.t) ++ le 1 (b2n s.land.writeThrough) ++ le 1 0 ++ le 2 s.hold.capUf ++ le 2 s.hold.commissionUf ++
    le 2 s.hold.v10mV ++ le 2 s.freeSegs ++ le 4 s.land.admissible ++ le 4 (min (s.thm.hotMs / 60000) (2 ^ 32 - 1)) ++ le 8 s.committedNow ++
    le 8 s.kv.maxCommitted ++ le 8 s.moduleBytes ++ le 8 s.discardPending ++ le 8 (sumBy s.kv.spaces fun k => k.keys) ++ le 4 s.prism.keyLimit ++
    le 4 s.prism.spillUsed ++ exist ++ le 4 s.kv.lost.length ++ le 2 s.kv.ranges.length ++ le 2 s.kv.assemblies.length ++ le 4 s.percentUsed ++
    le 2 er.1 ++ le 2 er.2.1 ++ le 2 er.2.2 ++ le 2 s.metaMean ++ le 8 s.kv.hostWritten ++ le 8 s.flash.programmed ++
    packed 8 2 (s.flash.channels.map fun c => retiredCode c.retired c.rebuilt) ++ packed 18 2 (s.flash.dies.map fun d => retiredCode d.retired d.rebuilt) ++
    le 2 s.prism.stashUsed ++ fit 72 ((s.flash.dies.map fun d => BitVec.ofNat 8 (min 255 d.spare))) ++ le 2 s.kv.deferred.length ++ le 2 s.kv.defSeq ++
    le 4 s.kv.defOverflow ++ le 4 dram ++ le 1 (port 0 + 4 * port 1))

/-- Bytes 320-511: the five ledgers as one snapshot (R39). -/
def State.summaryLedgers (s : State) : Bytes :=
  let i := fun (n : Nat) (v : Int) => le n (toField (8 * n) v)
  fit 192 (s.ledgerSums.flatMap (le 8) ++ s.cellPools.flatMap (fun x => le 4 x.1 ++ le 4 x.2.1 ++ le 4 x.2.2) ++ i 2 s.pwr.budget ++ i 2 s.pwr.granted ++
    i 2 s.pwr.free ++ i 2 s.pwr.standing ++ le 4 s.pwr.bci.toNat ++ i 8 s.land.usable ++ i 8 s.land.resLanding ++ i 8 s.land.resShutdown ++
    i 8 s.land.freeCharge ++ le 8 s.uptime ++ le 4 s.life.ledgerFaults)

/-- Bytes 576-701: Mirror, SANITIZE_STATUS, the event recorder and the transports. -/
def State.summaryTail (s : State) (listed omitted filter : Nat) : Bytes :=
  let m := s.mirrorStruct
  let unsynced := fun n => decide (1 < fieldAt (s.mirrorEntry n) 1 1)
  let mirrored := fun n => s.mirrored.any fun k => k.ks == n && !k.hidden
  let san := s.sanStatus
  let r := s.evr
  let t := s.tr.counters
  let ondie := (r.ring.head?.map fun e => e.seq).getD r.next
  slice m 2 3 ++ le 1 0 ++ slice m 36 4 ++ slice m 56 4 ++ slice m 32 4 ++ bitsWhere 8 mirrored ++ bitsWhere 8 unsynced ++ le 8 san.1 ++ le 8 san.2 ++
    le 8 r.newest ++ le 8 r.oldest ++ le 8 ondie ++ le 4 r.dropped.toNat ++ le 1 (b2n r.ondieOk + 2 * b2n r.flashOk + 4 * b2n r.oneCopy) ++ le 1 r.banks ++
    le 2 0 ++ le 8 r.cursor ++ le 2 (s.tr.sessions.filter fun x => x.st == .opened).length ++ le 2 (s.tr.qps.filter fun q => q.st == .opened).length ++
    le 4 s.freeCredits ++ le 4 t.dgramDiscard ++ le 4 t.reasmDiscard ++ le 4 t.rejects ++ le 4 t.holdDiscard ++ le 4 t.doorbellIgnored ++ le 4 t.resent ++
    le 2 listed ++ le 2 omitted ++ le 1 filter

/-- The summary block as a command finds it (R426-R428). -/
def State.summaryBlock (s : State) (c : Cmd) : Bytes :=
  let asker := s.askerAddr c
  let lines := s.sourceLines fun r => asker.all fun a => a == r.hostAddr
  let shown := lines.take 16
  s.summaryHead ++ s.summaryLedgers ++ s.updRecord ++ fit 448 (s.summaryTail shown.length (lines.length - shown.length) (b2n asker.isNone)) ++
    fit 1024 (shown.flatMap fun l => l.bytes) ++ fit 2048 (s.kv.deferred.flatMap Deferred.compact)

/-- SUMMARY past the common checks (R106). -/
def State.summaryCmd (s : State) (c : Cmd) : State :=
  if c.respRoom < 4096 then s.fail c stBufferShort else (s.complete c stOk 0 0 (s.summaryBlock c)).freeNext

/-- SUMMARY (R106). -/
def execSummary (s : State) : Host.Outcome State Fault Refusal := .next (s.runSup 0x0B State.summaryCmd)

end Sys2Proof.Machine
end

