-- ==== Sys2Proof/Machine/Dma.lean ====
section
/-! DEFINITION. The data mover in maintenance mode (08 R284-R294). In service its channels belong to the module's units, which build
the descriptors (Chains, Descs, Mover), and its register block reads as zero and ignores writes (R293). -/

namespace Sys2Proof.Machine

-- Descriptors.

def Desc.mode (d : Desc) : Nat := d.ctl.toNat % 4
def Desc.idxWide (d : Desc) : Bool := d.ctl.getLsbD 2
def Desc.chain (d : Desc) : Bool := d.ctl.getLsbD 3
def Desc.irq (d : Desc) : Bool := d.ctl.getLsbD 4
def Desc.srcSpace (d : Desc) : Nat := bitsOf d.ctl.toNat 11 8
def Desc.dstSpace (d : Desc) : Nat := bitsOf d.ctl.toNat 15 12
def Desc.idxSpace (d : Desc) : Nat := bitsOf d.spaces.toNat 3 0
def Desc.nextSpace (d : Desc) : Nat := bitsOf d.spaces.toNat 7 4
def Desc.tag (d : Desc) : Nat := bitsOf d.spaces.toNat 31 16

/-- Element size: 0 encodes 65,536; a linear copy is one element (R285). -/
def Desc.elemSize (d : Desc) : Nat :=
  let n := bitsOf d.ctl.toNat 31 16
  if d.mode = 0 then d.len.toNat else if n = 0 then 65536 else n

/-- The length rule of R286, and those of R285 for a linear copy. -/
def Desc.lenOk (d : Desc) : Bool :=
  let n := d.idxCount.toNat
  d.len != 0 && (if d.mode = 0 then bitsOf d.ctl.toNat 31 16 == 0 && n == 0
    else decide (1 ≤ n) && decide ((n - 1) * d.elemSize < d.len.toNat) && decide (d.len.toNat ≤ n * d.elemSize))

/-- Whether a descriptor is valid (R284, R285, R292 error 1). -/
def Desc.valid (d : Desc) : Bool :=
  !d.rsv && bitsOf d.ctl.toNat 7 5 == 0 && d.mode != 3 && [0, 1, 4, 5, 6, 8].contains d.srcSpace && [0, 1, 2, 3, 6, 7].contains d.dstSpace &&
    !(d.srcSpace == 6 && d.dstSpace == 6) && decide (d.idxSpace ≤ 1) && decide (d.nextSpace ≤ 1) && d.lenOk

/-- What promotion finds wrong with a descriptor in maintenance mode: 0, 1 or 7 (R292, R293). -/
def Desc.fault (d : Desc) : Nat := if !d.valid then 1 else if 1 < d.srcSpace || 1 < d.dstSpace then 7 else 0

/-- A descriptor from its 64 bytes (R285). -/
def parseDesc (b : Bytes) : Desc :=
  { ctl := BitVec.ofNat 32 (fieldAt b 0 4), len := BitVec.ofNat 32 (fieldAt b 4 4), src := BitVec.ofNat 64 (fieldAt b 8 8)
    dst := BitVec.ofNat 64 (fieldAt b 16 8), idx := BitVec.ofNat 64 (fieldAt b 24 8), idxCount := BitVec.ofNat 32 (fieldAt b 32 4)
    spaces := BitVec.ofNat 32 (fieldAt b 36 1 + 65536 * fieldAt b 38 2), next := BitVec.ofNat 64 (fieldAt b 40 8)
    rkey := BitVec.ofNat 32 (fieldAt b 48 4), qp := BitVec.ofNat 32 (fieldAt b 52 2)
    rsv := !(allZero (slice b 37 1) && allZero (slice b 54 10)) }

-- Address spaces.

/-- The maintenance window's size in space 0 (R293). -/
def dmaWindow : Nat := 268435456

/-- Whether `n` bytes from an address on lie in a space: the window in space 0, the eight CP SRAMs in space 1 (R284, R293). -/
def State.inDmaSpace (s : State) (space a n : Nat) : Bool :=
  match space with
  | 0 => decide (s.dma.winBase.toNat ≤ a) && decide (a + n ≤ s.dma.winBase.toNat + dmaWindow)
  | 1 => decide (a + n ≤ 2097152)
  | _ => false

/-- A byte string in a space. -/
def Dram.bytesAt (d : Dram) (space a n : Nat) : Bytes := readCells (if space = 0 then d.mem else d.sram) a n

/-- Write a byte in a space. -/
def Dram.put (d : Dram) (space a : Nat) (v : Byte) : Dram :=
  if space = 0 then { d with mem := writeCell d.mem a v } else { d with sram := writeCell d.sram a v }

-- Channels.

/-- A channel. -/
def State.dmaCh (s : State) (n : Fin 16) : DmaCh := s.dma.ch.getD n.val {}

/-- Change a channel. -/
def State.setDmaCh (s : State) (n : Fin 16) (f : DmaCh → DmaCh) : State := s.setDma fun d => { d with ch := modAt d.ch n.val f }

/-- Whether the side-band drives the channels: maintenance mode (R293). -/
def State.dmaOpen (s : State) : Bool := s.life.phase == 10

/-- Where the next byte of a channel's copy comes from and goes to (R286), or what is wrong there: 2 an address outside its space, 3 an index entry
that places an element outside its space. -/
def State.dmaNext (s : State) (c : DmaCh) (d : Desc) : Nat ⊕ (Nat × Nat) :=
  let off := c.elemOff.toNat
  if d.mode = 0 then
    if s.inDmaSpace d.srcSpace c.src.toNat 1 && s.inDmaSpace d.dstSpace c.dst.toNat 1 then .inr (c.src.toNat, c.dst.toNat) else .inl 2
  else
    let i := c.idxPos.toNat
    let size := min d.elemSize (d.len.toNat - i * d.elemSize)
    let w := if d.idxWide then 8 else 4
    let at_ := d.idx.toNat + i * w
    if !s.inDmaSpace d.idxSpace at_ w then .inl 2
    else
      let x := unLe (s.dram.bytesAt d.idxSpace at_ w)
      let src := d.src.toNat + if d.mode = 1 then x else i * d.elemSize
      let dst := d.dst.toNat + if d.mode = 1 then i * d.elemSize else x
      let okSrc := s.inDmaSpace d.srcSpace src size
      let okDst := s.inDmaSpace d.dstSpace dst size
      if !(if d.mode = 1 then okSrc else okDst) then .inl 3 else if !(okSrc && okDst) then .inl 2 else .inr (src + off, dst + off)

/-- The position after one byte more: behind an element's last byte it is the next element's first, behind a short last one too (R288). -/
def DmaCh.advance (c : DmaCh) (d : Desc) : DmaCh :=
  let c := { c with remain := c.remain - 1 }
  if d.mode = 0 then { c with src := c.src + 1, dst := c.dst + 1 }
  else
    let off := c.elemOff.toNat + 1
    if off = d.elemSize || c.remain = 0 then { c with idxPos := c.idxPos + 1, elemOff := 0 } else { c with elemOff := BitVec.ofNat 32 off }

/-- Move up to so many bytes of a channel's copy, in ascending order (R286). Answers 0, or the error that stopped it. -/
def State.dmaMove : Nat → State → Fin 16 → Desc → State × Nat
  | 0, s, _, _ => (s, 0)
  | n + 1, s, ch, d =>
    let c := s.dmaCh ch
    if c.remain = 0 then (s, 0)
    else
      match s.dmaNext c d with
      | .inl e => (s, e)
      | .inr (a, b) =>
        let v := (s.dram.bytesAt d.srcSpace a 1).headD 0
        State.dmaMove n ((s.setDram fun m => m.put d.dstSpace b v).setDmaCh ch fun c => c.advance d) ch d

/-- A channel halts on an error (R292). -/
def State.dmaHalt (s : State) (ch : Fin 16) (err : Nat) : State :=
  let tag := ((s.dmaCh ch).active.map fun d => d.tag).getD 0
  (s.setDmaCh ch fun c =>
    { c with st := .halted, draining := false, stopping := false, err := BitVec.ofNat 4 err, intStatus := c.intStatus ||| 2 }).logEv
    evDmaError uDma (ch.val + 256 * err) tag

/-- A channel becomes idle and what it had is discarded (R291). -/
def DmaCh.discard (c : DmaCh) : DmaCh :=
  { c with st := .idle, draining := false, stopping := false, active := none, latch := none, counted := false, err := 0 }

/-- Check and start the active descriptor (R292: errors 1 and 7 before any read). -/
def State.dmaStart (s : State) (ch : Fin 16) (d : Desc) : State :=
  let s := s.setDmaCh ch fun c =>
    { c with st := .running, active := some d, counted := false, err := 0, since := s.now, src := d.src, dst := d.dst, remain := d.len, idxPos := 0, elemOff := 0 }
  if d.fault = 0 then s else s.dmaHalt ch d.fault

/-- The active descriptor's last write is made (R286, R294). -/
def DmaCh.complete (c : DmaCh) (d : Desc) : DmaCh :=
  { c with done := c.done + 1, counted := true, intStatus := if d.irq then c.intStatus ||| 1 else c.intStatus }

/-- The hand-over point (R291): a latched set, else the chain, else idle. A failed fetch halts the channel with error 6. -/
def State.dmaPromote (s : State) (ch : Fin 16) : State :=
  let c := s.dmaCh ch
  match c.latch, c.active with
  | some d, _ => (s.setDmaCh ch fun c => { c with latch := none, intStatus := c.intStatus ||| 16 }).dmaStart ch d
  | none, some d =>
    if !d.chain then s.setDmaCh ch fun c => { c with st := .idle, active := none, counted := false, err := 0 }
    else
      let a := d.next.toNat
      if a % 64 = 0 && s.inDmaSpace d.nextSpace a 64 then s.dmaStart ch (parseDesc (s.dram.bytesAt d.nextSpace a 64)) else s.dmaHalt ch 6
  | none, none => s

-- The shared read and write port (R282).

/-- The groups of channels in the order the port serves them. -/
def dmaGroups : List (List Nat) := [[8, 9, 10, 11], [0, 1, 2, 3, 4, 5, 6, 7], [14], [12, 13, 15]]

/-- Whether a channel can issue a read. -/
def DmaCh.issues (c : DmaCh) : Bool := c.st == .running && !c.draining && !c.counted && c.active.isSome && c.remain != 0

/-- The channel the port serves at a clock: one that has waited 2 µs, the longest waiting first, before any group; else, of the first group with a channel
that can issue, the next in turn. A channel alone takes half of the port (R283). -/
def State.dmaPick (s : State) (clk : Nat) (served : List Nat) : Option Nat :=
  let can := (List.range 16).filter fun n => (s.dma.ch.getD n {}).issues && decide (served.count n < 60)
  let since := fun (n : Nat) => (s.dma.ch.getD n {}).since
  let late := can.filter fun n => decide (since n + 2000 ≤ clk)
  match late.find? fun n => late.all fun k => decide (since n ≤ since k) with
  | some n => some n
  | none => (dmaGroups.zip s.dma.turn).findSome? fun (g, last) =>
      (g.filter (fun n => decide (last < n)) ++ g.filter fun n => decide (n ≤ last)).find? fun n => can.contains n

/-- Bytes of the next read of a channel: at most 256, within its element (R283). -/
def DmaCh.readSize (c : DmaCh) (d : Desc) : Nat := if d.mode = 0 then 256 else min 256 (d.elemSize - c.elemOff.toNat)

/-- Serve so many reads from a clock on, 8 ns each (R282, R283). -/
def State.dmaServe : Nat → State → Nat → List Nat → State
  | 0, s, _, _ => s
  | k + 1, s, clk, served =>
    match s.dmaPick clk served with
    | none => s
    | some n =>
      let ch := Fin.ofNat 16 n
      match (s.dmaCh ch).active with
      | none => s
      | some d =>
        let (s, e) := s.dmaMove ((s.dmaCh ch).readSize d) ch d
        let s := if e = 0 then s else s.dmaHalt ch e
        let s := (s.setDmaCh ch fun c => { c with since := clk }).setDma fun x =>
          { x with turn := (dmaGroups.zip x.turn).map fun (g, last) => if g.contains n then n else last }
        State.dmaServe k s (clk + 8) (n :: served)

/-- What the port moves in one microsecond of maintenance mode: 120 reads of 256 bytes (R282, R283). -/
def State.tickDma (s : State) : State := if s.dmaOpen then s.dmaServe 120 s.now [] else s

-- Rows.

/-- DMA_PAUSE (R288, R289): DMAn_CTRL.pause as a write leaves it. -/
def execDmaPause (ch : Fin 16) (on : Bool) (s : State) : Host.Outcome State Fault Refusal :=
  .next (
    if !s.dmaOpen then s
    else s.setDmaCh ch fun c =>
      let c := { c with pause := on }
      match c.st, on with
      | .idle, true => { c with st := .paused, intStatus := c.intStatus ||| 4 }
      | .running, true => { c with draining := true }
      | .running, false => { c with draining := c.stopping }
      | .paused, false => { c with st := if c.active.isSome then .running else .idle, since := s.now }
      | _, _ => c)

/-- DMA_STOP (R291): running, it drains as a pause does; else the descriptor, the chain and the latched set are discarded at once. -/
def execDmaStop (ch : Fin 16) (s : State) : Host.Outcome State Fault Refusal :=
  .next (
    if !s.dmaOpen then s
    else s.setDmaCh ch fun c => if c.st = .running then { c with draining := true, stopping := true } else c.discard)

/-- DMA_SH_COMMIT (R291): the whole shadow set into the latch, or refused while it is full. -/
def execDmaShCommit (ch : Fin 16) (s : State) : Host.Outcome State Fault Refusal :=
  .next (
    if !s.dmaOpen then s
    else s.setDmaCh ch fun c => if c.latch.isSome then { c with intStatus := c.intStatus ||| 8 } else { c with latch := some c.shadow })

/-- DMA_RETRY (R292): a halted channel goes on from its held position; what promotion refused is refused again. -/
def execDmaRetry (ch : Fin 16) (s : State) : Host.Outcome State Fault Refusal :=
  .next (
    let c := s.dmaCh ch
    if !s.dmaOpen || c.st ≠ .halted then s
    else
      let s := s.setDmaCh ch fun c =>
        { c with st := if c.pause then .paused else .running, err := 0, since := s.now, intStatus := if c.pause then c.intStatus ||| 4 else c.intStatus }
      match c.active with
      | some d => if c.counted || d.fault = 0 then s else s.dmaHalt ch d.fault
      | none => s)

/-- DMA_PAUSE_DRAIN_END (R288, R289, R291): the last read in flight is written, `written` bytes since the position was last exact. -/
def execDmaPauseDrainEnd (ch : Fin 16) (written : Nat) (s : State) : Host.Outcome State Fault Refusal :=
  .next (
    let c := s.dmaCh ch
    match c.active with
    | some d =>
      if !s.dmaOpen || !c.draining then s
      else
        let (s, e) := if c.counted then (s, 0) else s.dmaMove (min written c.remain.toNat) ch d
        if e ≠ 0 then s.dmaHalt ch e
        else
          let s := s.setDmaCh ch fun c => if c.remain = 0 && !c.counted then c.complete d else c
          if c.stopping then s.setDmaCh ch DmaCh.discard
          else s.setDmaCh ch fun c => { c with st := .paused, draining := false, intStatus := c.intStatus ||| 4 }
    | none => s)

/-- DMA_HAND_OVER (R291): the rest of the active copy is made and counted, and the hand-over point passes; or an idle channel that is not paused takes a
latched set. -/
def execDmaHandOver (ch : Fin 16) (s : State) : Host.Outcome State Fault Refusal :=
  .next (
    let c := s.dmaCh ch
    if !s.dmaOpen || c.draining || c.pause then s
    else
      match c.st, c.active with
      | .running, some d =>
        if c.counted then s.dmaPromote ch
        else
          let (s, e) := s.dmaMove c.remain.toNat ch d
          if e ≠ 0 then s.dmaHalt ch e else (s.setDmaCh ch fun c => c.complete d).dmaPromote ch
      | .idle, _ => s.dmaPromote ch
      | _, _ => s)

/-- An error on a channel in service (R292): the chain that the channel runs halts, EV_DMA_ERROR is written, and the chain is discarded. Error 5 on a
command path becomes ST_HOST_ACCESS (R84); for uncorrectable read data the spec names no outcome: the command has no effect and completes with
ST_ABORTED (DESIGN CHOICE, log 84). Errors of other kinds do not arise, for the units build valid descriptors. -/
def State.serviceDmaError (s : State) (ch : Fin 16) (err : Nat) : State :=
  match s.mover.busy.find? fun x => x.ch == ch.val with
  | none => s
  | some x =>
    match s.cmd? x.adm with
    | none => s
    | some c =>
      if err = 5 && x.readsHost && c.payload.isNone then s.nakTransfer x.adm
      else if err = 4 then
        let s := s.failChain x 4
        if c.cancellable then s.cancel c else s
      else s

/-- DMA_ERROR (R292): at byte `written` of the copy a read is uncorrectable (4) or a host transfer fails (5), or the copy has come to an address outside its
space (2, 3). Errors 1, 6 and 7 arise at promotion and hand-over. -/
def execDmaError (ch : Fin 16) (err : Fin 8) (written : Nat) (s : State) : Host.Outcome State Fault Refusal :=
  .next (
    let c := s.dmaCh ch
    if !s.dmaOpen then s.serviceDmaError ch err.val
    else match c.active with
    | some d =>
      if c.st ≠ .running || c.counted then s
      else if err = 4 || err = 5 then
        let (s, e) := s.dmaMove (min written c.remain.toNat) ch d
        s.dmaHalt ch (if e = 0 then err.val else e)
      else if err = 2 || err = 3 then
        let (t, e) := s.dmaMove c.remain.toNat ch d
        if e = err.val then t.dmaHalt ch e else s
      else s
    | none => s)

end Sys2Proof.Machine
end

