-- ==== Sys2Proof/Machine/Registers.lean ====
section
/-! DEFINITION. The side-band mailbox (15 R459-R462, R467) and the register map as the register bus reads it (15 R463-R468; 06 R235-R238;
08 R294; 10 R357-R359; 13 R429). -/

namespace Sys2Proof.Machine

-- The side-band mailbox.

/-- Whether the side-band mailbox takes commands: once commands are served, until admission stops (R436, R461, R464). -/
def State.mbxOpen (s : State) : Bool := (s.life.phase == 9 || s.life.phase == 10 || s.life.phase == 11) && !s.shutting

/-- MBX31_DOORBELL (R460, R461): the command in the request buffer is admitted; while busy the doorbell is ignored. A length that does not match fails it
before the checks of R88 (DESIGN CHOICE, log 59). -/
def execMbx31Doorbell (s : State) : Host.Outcome State Fault Refusal :=
  .next (
    if !s.mbxOpen then s
    else if s.mbx.mbxState = 1 then s.setMbx fun m => { m with intStatus := m.intStatus ||| 2 }
    else
      let e := parseEntry (readCells s.mbx.reqBuf 0 64)
      let s := s.setMbx fun m =>
        { m with mbxState := 1, cancelled := false, cancelLate := false, cancelPending := false, tag := e.tag, cmds := m.cmds.admitOne }
      let fits := decide (s.mbx.reqLen.toNat ≤ 16384) && s.mbx.reqLen.toNat == 64 + e.reqLen
      let adm := s.mbx.admNext
      let s := s.admitCmd (newCmd .mbx 1 false e (if fits then readCells s.mbx.reqBuf 64 e.reqLen else []) 16320)
      if fits then s
      else match s.cmd? adm with
        | some c => s.fail c stInvalid
        | none => s)

/-- MBX31_CANCEL (R462): an ABORT of the outstanding command, decided now; in idle and done it is ignored. -/
def execMbx31Cancel (s : State) : Host.Outcome State Fault Refusal :=
  .next (
    match s.cmds.find? fun c => c.src == .mbx with
    | some c =>
      if s.mbx.mbxState ≠ 1 then s
      else
        let s := s.setMbx fun m => { m with cancelPending := true }
        if c.cancellable then s.cancel c else s
    | none => s)

-- Reading.

/-- Fields of a word: (value, lowest bit). -/
def wordOf (l : List (Nat × Nat)) : Nat := l.foldl (fun v x => v + x.1 * 2 ^ x.2) 0

/-- The low and the high word of a number. -/
def loOf (n : Nat) : Nat := n % 2 ^ 32
def hiOf (n : Nat) : Nat := n / 2 ^ 32 % 2 ^ 32

/-- The bit of a cause register: whether an enabled cause is set. -/
def anyCause {n : Nat} (st en : BitVec n) : Bool := st &&& en != 0

/-- MACn_INT_STATUS with stat_half (R358). -/
def Port.causes (q : Port) : BitVec 7 := q.intStatus.setWidth 7 ||| (if anyCause q.half q.halfEn then 64 else 0)

/-- Whether a channel has an enabled cause set (R294). -/
def DmaCh.alerts (c : DmaCh) : Bool := anyCause c.intStatus c.intEnable

/-- GLB_ALERT (R463, R466). -/
def State.alertBits (s : State) : Nat :=
  let m := s.life.mainOn
  let g := s.life.intStatus
  wordOf [(b2n (g.getLsbD 0 || anyCause g (s.life.intEnable &&& 30)), 0), (b2n (m && anyCause s.mbx.intStatus s.mbx.intEnable), 1),
    (b2n (m && anyCause s.pwr.intStatus s.pwr.intEnable), 2), (b2n (m && anyCause s.evr.intStatus s.evr.intEnable), 3),
    (b2n (s.dmaOpen && s.dma.ch.any DmaCh.alerts), 4), (b2n (m && anyCause (s.port 0).causes (s.port 0).intEnable), 5),
    (b2n (m && anyCause (s.port 1).causes (s.port 1).intEnable), 6), (b2n (m && anyCause s.ptp.intStatus s.ptp.intEnable), 7)]

/-- ALERT# is asserted (R463). -/
def State.alert (s : State) : Bool := s.alertBits != 0

/-- The GLB block (R466). -/
def State.glbReg (s : State) (a : Nat) : Nat :=
  let l := s.life
  match a with
  | 0x00 => wordOf [(if s.part = .ta16 then 0x7816 else 0x7808, 0), (if s.part = .sb08 then 1 else 0, 16), (s.ident.stepping.toNat, 24)]
  | 0x04 => s.part.capUnits
  | 0x08 => s.part.capPop
  | 0x0C => wordOf [(l.phase, 0), (b2n l.mainOn, 4), (s.pwr.ps.val, 5)]
  | 0x10 => l.straps.toNat
  | 0x18 => l.cause
  | 0x1C => unLe ((l.counts.take 4).map fun n => BitVec.ofNat 8 n)
  | 0x20 => unLe (((l.counts.drop 4).take 4).map fun n => BitVec.ofNat 8 n)
  | 0x24 => unLe ((l.counts.drop 8).map fun n => BitVec.ofNat 8 n)
  | 0x28 => wordOf [(l.i2cAddr.toNat, 0), (b2n l.i2cEn, 7), (b2n l.spiEn, 8), (b2n l.sbLock, 31)]
  | 0x2C => l.scratch.toNat
  | 0x30 => s.alertBits
  | 0x34 => l.intStatus.toNat
  | 0x38 => l.intEnable.toNat
  | _ => 0

/-- A 32-bit word of a byte buffer. -/
def bufWord (m : List Host.Cell) (off : Nat) : Nat := unLe (readCells m off 4)

/-- The MBX block but for MBX_NONEMPTY (R459, R467). -/
def State.mbxReg (s : State) (a : Nat) : Nat :=
  let m := s.mbx
  if 0xC000 ≤ a then bufWord m.rspBuf (a - 0xC000)
  else if 0x8000 ≤ a then bufWord m.reqBuf (a - 0x8000)
  else match a with
  | 0xF04 => wordOf [(m.mbxState, 0), (b2n m.cancelled, 2), (b2n m.cancelLate, 3), (m.tag.toNat, 16)]
  | 0xF08 => m.reqLen.toNat
  | 0xF0C => m.rspLen.toNat
  | 0xF10 => m.intStatus.toNat
  | 0xF14 => m.intEnable.toNat
  | _ => 0

/-- Whether the clock of domain D0-D59 runs, none where that depends on a unit having work at that cycle, or on the transaction's own clock (R452). -/
def State.domainRuns (s : State) (d : Nat) : Option Bool :=
  let ps := s.pwr.ps.val
  let pll := s.life.mainOn && (s.life.lockOk || s.life.phase == 12)
  let idle := fun (b : Bool) => if pll && b then none else some false
  let on := fun (b : Bool) => some (pll && b)
  let port := fun (p : Fin 2) => s.portUsable p
  if d < 18 then idle (decide (ps < 2) && !(s.flash.channels.getD d {}).retired)
  else if d < 22 then on (decide (ps < 4) && decide (d - 18 < s.part.dramCh) && !(s.dram.chans.getD (d - 18) {}).retired)
  else if d < 24 then
    on (decide (ps < 4) && !(s.life.sups.getD (d - 22) {}).retired && (decide (ps < 3) || s.life.supActive.val == d - 22))
  else if d < 32 then (if ps = 0 then on true else idle (decide (ps = 1)))
  else if d < 36 then idle (decide (ps < 2))
  else match d with
  | 36 => on (s.part.ta && decide (ps < 3))
  | 37 | 53 | 54 => on (decide (ps < 3))
  | 38 | 40 => on (port 0)
  | 41 | 43 => on (port 1)
  | 39 => some (s.life.mainOn && (s.port 0).link)
  | 42 => some (s.life.mainOn && (s.port 1).link)
  | 44 | 45 | 46 | 51 | 55 | 56 => on (decide (ps < 4))
  | 47 | 48 => some s.life.aonOn
  | 49 => some s.sb.spiBusy
  | 50 => some s.sb.i2cBusy
  | 57 | 58 | 59 => idle (decide (ps < 2))
  | _ => some false

/-- CLK_RUN bits of 32 domains from `base` on; a bit that no rule decides is taken from a free value. -/
def State.runBits (s : State) (base : Nat) : Nat :=
  wordOf ((List.range 32).map fun i => (b2n ((s.domainRuns (base + i)).getD (s.freeVal.testBit i)), i))

/-- The CLK block but for what a free value enters (R468). -/
def State.clkReg (s : State) (a : Nat) : Nat :=
  let l := s.life
  match a with
  | 0x00 => wordOf [(b2n l.refOk, 0), (b2n l.lockOk, 1), (b2n l.lockOk, 2), (b2n l.straps[2], 3), (b2n l.refLost, 4)]
  | 0x04 => l.lossCount
  | 0x14 => l.measSel.toNat
  | 0x18 => wordOf [(if s.domainRuns l.measSel.toNat == some false then 0 else l.measKhz, 0), (b2n l.measValid, 31)]
  | _ => 0

/-- The PWR block (R235, R236). -/
def State.pwrReg (s : State) (a : Nat) : Nat :=
  let p := s.pwr
  let h := s.hold
  let n := p.snap
  let w := toField 32
  let lo := fun (v : Int) => loOf (toField 64 v)
  let hi := fun (v : Int) => hiOf (toField 64 v)
  let cls := fun i => let c := n.cls.getD i (0, 0); wordOf [(min c.1 65535, 0), (min c.2 65535, 16)]
  match a with
  | 0x00 => wordOf [(p.ps.val, 0), ((if p.psBusy then p.psTarget else p.ps).val, 3), (b2n p.psBusy, 6), (h.st.code, 8), (b2n h.charging, 11), (p.cls, 12),
      (b2n (decide (125 < s.thm.t)), 14), (b2n s.thm.writePause, 15), (b2n p.ilimitBinds, 16), (b2n p.clamp, 17), (b2n (decide (p.free < 0)), 18),
      (b2n (decide (s.land.freeCharge < 0)), 19)]
  | 0x08 => wordOf [(p.pads.toNat, 0), (b2n p.pads[2], 3), (s.stored.powerClass, 4), (p.cls, 8)]
  | 0x0C => wordOf [(s.stored.ilimit, 0), (min p.ilimitTokens 65535, 16)]
  | 0x10 => wordOf [(min p.vin10mV 65535, 0), (min p.inMa 65535, 16)]
  | 0x14 => wordOf [(min p.pinMw 65535, 0), (min p.pinPeakMw 65535, 16)]
  | 0x18 => s.stored.psCap
  | 0x1C => p.bci.toNat
  | 0x20 => w n.budget
  | 0x24 => w n.granted
  | 0x28 => w n.free
  | 0x2C => w n.standing
  | 0x30 => cls 0
  | 0x34 => cls 1
  | 0x38 => cls 2
  | 0x3C => cls 3
  | 0x40 => lo n.usable
  | 0x44 => hi n.usable
  | 0x48 => lo n.landing
  | 0x4C => hi n.landing
  | 0x50 => lo n.shut
  | 0x54 => hi n.shut
  | 0x58 => lo n.huFree
  | 0x5C => hi n.huFree
  | 0x60 => wordOf [(min h.v10mV 65535, 0), (h.st.code, 16), (b2n h.charging, 19), (b2n h.measuring, 20)]
  | 0x64 => if h.capUf = 0 then 0 else wordOf [(h.capUf, 0), (min ((s.now - h.capAt) / (60 * oneSec)) 65535, 16)]
  | 0x68 => p.intStatus.toNat
  | 0x6C => p.intEnable.toNat
  | _ => 0

/-- The THM block (R238). -/
def State.thmReg (s : State) (a : Nat) : Nat :=
  let t := s.thm
  match a with
  | 0x00 => toField 16 t.ctrl16
  | 0x04 => wordOf [(toField 16 t.flash16, 0), (t.hotDie % 128, 16)]
  | 0x08 => t.warnAt.toNat
  | 0x0C => min (t.hotMs / 60000) (2 ^ 32 - 1)
  | 0x10 => wordOf [(b2n (decide ((t.warnAt.toNat : Int) ≤ t.t)), 0), (b2n (decide (125 < t.t)), 1), (b2n t.writePause, 2), (deratePct t.t, 8)]
  | _ => 0

/-- The EVR block but for what a read changes (R420, R429). -/
def State.evrReg (s : State) (a : Nat) : Nat :=
  let r := s.evr
  if 0x1000 ≤ a && a < 0x2000 then
    match r.window.getD ((a - 0x1000) / 32) none with
    | some e => fieldAt e.bytes (a % 32) 4
    | none => 0
  else match a with
  | 0x00 => wordOf [(b2n r.ready, 0), (b2n r.ondieOk, 1), (b2n r.flashOk, 2), (b2n r.oneCopy, 3), (b2n r.cursorLost, 4), (r.banks, 8)]
  | 0x08 => loOf r.cursor
  | 0x0C => hiOf r.cursor
  | 0x14 => r.newestHi.toNat
  | 0x1C => r.oldestHi.toNat
  | 0x20 => r.dropped.toNat
  | 0x28 => r.alertSev.toNat
  | 0x2C => r.intStatus.toNat
  | 0x30 => r.intEnable.toNat
  | _ => 0

/-- Code of a channel state (R294). -/
def DmaSt.code : DmaSt → Nat
  | .idle => 0 | .running => 1 | .paused => 2 | .halted => 3

/-- The registers of one data-mover channel (R294). -/
def DmaCh.reg (c : DmaCh) (a : Nat) : Nat :=
  let d := c.shadow
  match a with
  | 0x00 => b2n c.pause
  | 0x04 => wordOf [(c.st.code, 0), (b2n c.draining, 2), (b2n c.latch.isSome, 3), (if c.st = .halted then c.err.toNat else 0, 8),
      ((c.active.map fun d => d.tag).getD 0, 16)]
  | 0x08 => loOf c.src.toNat
  | 0x0C => hiOf c.src.toNat
  | 0x10 => loOf c.dst.toNat
  | 0x14 => hiOf c.dst.toNat
  | 0x18 => c.remain.toNat
  | 0x1C => c.idxPos.toNat
  | 0x20 => c.elemOff.toNat
  | 0x24 => c.done.toNat
  | 0x28 => c.intStatus.toNat
  | 0x2C => c.intEnable.toNat
  | 0x40 => d.ctl.toNat
  | 0x44 => d.len.toNat
  | 0x48 => loOf d.src.toNat
  | 0x4C => hiOf d.src.toNat
  | 0x50 => loOf d.dst.toNat
  | 0x54 => hiOf d.dst.toNat
  | 0x58 => loOf d.idx.toNat
  | 0x5C => hiOf d.idx.toNat
  | 0x60 => d.idxCount.toNat
  | 0x64 => d.spaces.toNat
  | 0x68 => loOf d.next.toNat
  | 0x6C => hiOf d.next.toNat
  | 0x70 => d.rkey.toNat
  | 0x74 => d.qp.toNat
  | _ => 0

/-- The DMA block (R293, R294). -/
def State.dmaReg (s : State) (a : Nat) : Nat :=
  let chs := (List.range 16).zip s.dma.ch
  if !s.dmaOpen then 0
  else if a < 0x1000 then (s.dma.ch.getD (a / 0x100) {}).reg (a % 0x100)
  else match a with
  | 0x1000 => wordOf (chs.flatMap fun x => [(b2n (x.2.st == .running || x.2.st == .paused), x.1), (b2n (x.2.st == .halted), 16 + x.1)])
  | 0x1004 => wordOf (chs.map fun x => (b2n x.2.alerts, x.1))
  | 0x1008 => loOf s.dma.winBase.toNat
  | 0x100C => hiOf s.dma.winBase.toNat
  | _ => 0

/-- A word of a gate list (R347, R358). -/
def GateList.word (g : GateList) (off : Nat) : Nat :=
  let e := g.entries.getD (off / 8) (0, 0)
  (if off % 8 = 0 then e.1 else e.2).toNat

/-- The MAC, TAS and statistics registers of a port (R357, R358). -/
def State.macReg (s : State) (p : Fin 2) (a : Nat) : Nat :=
  let q := s.port p
  let c := s.portCfg p
  let tcs := fun (f : TxClass → Bool) => wordOf (((List.range 8).zip q.tx).map fun x => (b2n (f x.2), x.1))
  if p = 1 && !s.part.ta then 0
  else if 0x2000 ≤ a && a < 0x2800 then q.gadmin.word (a - 0x2000)
  else if 0x3000 ≤ a && a < 0x3800 then q.goper.word (a - 0x3000)
  else if 0x4000 ≤ a && a < 0x40B0 then q.stats.getD ((a - 0x4000) / 4) 0
  else if 0x4100 ≤ a && a < 0x41B0 then q.snap.getD ((a - 0x4100) / 4) 0
  else match a with
  | 0x00 => wordOf [(b2n q.link, 0), (q.rate.val, 1), (b2n q.training, 3), (b2n q.eee, 4), (b2n q.txLpi, 5), (b2n q.stepped, 6),
      (tcs fun t => t.paused s.now, 8), (tcs fun t => t.breakUntil.isSome, 16)]
  | 0x08 => c.phy.toNat
  | 0x0C => c.maxFrame.toNat
  | 0x10 => c.vlan.toNat
  | 0x14 => c.pcpMap.toNat
  | 0x18 => c.fc.toNat
  | 0x1C => wordOf [(if !q.xoff then 0 else if c.fcMode = 1 then 1 else bitsOf c.fc.toNat 11 4, 0), (b2n q.cfgReject, 8)]
  | 0x20 => wordOf [(q.rxShared, 0), (if c.lossless.isEmpty then 0 else c.headroom, 16)]
  | 0x24 => wordOf [(q.txShared, 0), (q.txInUse, 16)]
  | 0x28 => c.step0.toNat
  | 0x2C => c.step1.toNat
  | 0x30 => toField 32 (s.stepBudgetMs p / 1000)
  | 0x34 => q.causes.toNat
  | 0x38 => q.intEnable.toNat
  | 0x3C => c.pauseWdog.toNat
  | 0x1000 => b2n q.tasEnable
  | 0x1004 => wordOf [(b2n q.tasRunning, 0), (b2n q.tasPending, 1), (b2n q.tasCfgError, 2), (q.tasEntry % 256, 3), (q.gates.toNat, 11)]
  | 0x1008 => q.gadmin.cycle.toNat
  | 0x100C => q.gadmin.len.toNat
  | 0x1010 => q.gadmin.baseNs.toNat
  | 0x1014 => loOf q.gadmin.baseSec.toNat
  | 0x1018 => hiOf q.gadmin.baseSec.toNat
  | 0x101C => q.goper.cycle.toNat
  | 0x1020 => q.goper.len.toNat
  | 0x1024 => nsOf q.swapAt
  | 0x1028 => loOf (secOf q.swapAt)
  | 0x102C => hiOf (secOf q.swapAt) % 65536
  | 0x4200 => q.half.toNat % 2 ^ 32
  | 0x4204 => q.half.toNat / 2 ^ 32
  | 0x4208 => q.halfEn.toNat % 2 ^ 32
  | 0x420C => q.halfEn.toNat / 2 ^ 32
  | _ => 0

/-- The registers of one timestamp queue but for DATA0 (R355, R359). -/
def TsQueue.reg (q : TsQueue) (a : Nat) : Nat :=
  match a with
  | 0x04 | 0x08 | 0x0C => if q.head.2 then fieldAt q.head.1.bytes a 4 else 0
  | 0x10 => wordOf [(q.entries.length, 0), (b2n q.gap.isSome, 7), (q.lost, 16)]
  | _ => 0

/-- The PTP block but for what a read changes (R359). -/
def State.ptpReg (s : State) (a : Nat) : Nat :=
  let t := s.ptp
  if 0x100 ≤ a && a < 0x180 then (t.q.getD ((a - 0x100) / 0x20) {}).reg (a % 0x20)
  else match a with
  | 0x00 => t.cfg.toNat
  | 0x04 => wordOf [(b2n t.timeValid, 0), (b2n t.locked, 1), (b2n t.holdover, 2), (b2n t.port, 3)]
  | 0x0C => loOf t.latchSec.toNat
  | 0x10 => hiOf t.latchSec.toNat
  | 0x14 => t.setNs.toNat
  | 0x18 => loOf t.setSec.toNat
  | 0x1C => hiOf t.setSec.toNat
  | 0x20 => t.adj.toNat
  | 0x24 => toField 32 t.offset
  | 0x2C => t.ppsCfg.toNat
  | 0x30 => t.ppsOffset.toNat
  | 0x38 => loOf t.ppsInLatch.toNat
  | 0x3C => hiOf t.ppsInLatch.toNat
  | 0x40 => (t.lat.getD 0 0).toNat
  | 0x44 => (t.lat.getD 1 0).toNat
  | 0x48 => (t.lat.getD 2 0).toNat
  | 0x4C => (t.lat.getD 3 0).toNat
  | 0x50 => t.intStatus.toNat
  | 0x54 => t.intEnable.toNat
  | _ => 0

/-- The value of a register whose read changes nothing and holds no free value (R465); an address no block defines reads as zero (R16). -/
def State.regValue (s : State) (addr : Nat) : Nat :=
  let a := addr % 65536
  match addr / 65536 with
  | 0x0 => s.glbReg a
  | 0x1 => s.mbxReg a
  | 0x2 => s.clkReg a
  | 0x3 => s.pwrReg a
  | 0x4 => s.evrReg a
  | 0x5 => s.dmaReg a
  | 0x8 => s.macReg 0 a
  | 0x9 => s.macReg 1 a
  | 0xA => s.ptpReg a
  | 0xC => s.thmReg a
  | _ => 0

/-- The state an outcome goes on in. -/
def outState (o : Host.Outcome State Fault Refusal) (s : State) : State :=
  match o with
  | .next t => t
  | _ => s

/-- A read whose row leaves the word in the data field. -/
def State.readBy (s : State) (o : State → Host.Outcome State Fault Refusal) : State × Word :=
  let t := outState (o s) s
  (t, t.sb.data.headD 0)

/-- MBX_NONEMPTY (R459, R467): which mailboxes hold a command not taken yet; of the other internal mailboxes the model knows nothing. -/
def State.nonempty (s : State) : Nat :=
  wordOf (((List.range 8).zip s.mbx.cp).map (fun x => (b2n (!x.2.isEmpty), x.1)) ++ [(b2n (!s.mbx.sup.isEmpty), 16 + s.life.supActive.val)] ++
    ((List.range 32).filter fun i => (8 ≤ i && i < 16) || 18 ≤ i).map fun i => (b2n (s.freeVal.testBit i), i))

/-- One 32-bit read by the register bus, with what it changes (R16, R17). -/
def State.readReg (s : State) (addr : Nat) : State × Word :=
  let free := fun (v : Nat) => (s.freeNext, BitVec.ofNat 32 v)
  if addr % 4 ≠ 0 then (s, 0)
  else match addr with
  | 0x10000 => free s.nonempty
  | 0x20008 => if s.ptp.locked then free s.freeVal else (s, 0)
  | 0x2000C => free (s.runBits 0)
  | 0x20010 => free (s.runBits 32 % 2 ^ 28)
  | 0x40010 => s.readBy execEvrNewestLoRead
  | 0x40018 => s.readBy execEvrOldestLoRead
  | 0x40024 => s.readBy execEvrSkippedRead
  | 0xA0008 => s.readBy execPtpTimeNsRead
  | 0xA0034 => s.readBy execPtpPpsInNsRead
  | 0xA0100 => s.readBy (execPtpTsqData0Read 0)
  | 0xA0120 => s.readBy (execPtpTsqData0Read 1)
  | 0xA0140 => s.readBy (execPtpTsqData0Read 2)
  | 0xA0160 => s.readBy (execPtpTsqData0Read 3)
  | _ => (s, BitVec.ofNat 32 (s.regValue addr))

end Sys2Proof.Machine
end

