-- ==== Sys2Proof/Machine/SideBand.lean ====
section
/-! DEFINITION. Writes by the register bus (15 R465-R468; 06 R235-R238; 08 R294; 10 R358, R359; 13 R429), the posted-write buffer, and the SPI
and I2C targets (15 R454-R458). -/

namespace Sys2Proof.Machine

-- Clock measurement.

/-- CLK_MEAS_SEL_WRITE (R468): the valid bit clears until the new measurement ends; domains above 59 are not measured. -/
def execClkMeasSelWrite (v : Word) (s : State) : Host.Outcome State Fault Refusal :=
  .next (
    if !s.life.aonOn then s
    else s.setLife fun l =>
      { l with measSel := v &&& 63, measKhz := 0, measValid := false, measAt := if v.toNat % 64 ≤ 59 then some l.clock else none })

/-- CLK_MEAS_DONE (R468): 1 ms later the frequency is published; a stopped domain measures 0. -/
def execClkMeasDone (kHz : Nat) (s : State) : Host.Outcome State Fault Refusal :=
  .next (
    if s.life.measAt.any fun t => s.past t ms then
      let stopped := s.domainRuns s.life.measSel.toNat == some false
      s.setLife fun l => { l with measKhz := if stopped then 0 else kHz % 2 ^ 31, measValid := true, measAt := none }
    else s)

-- Register writes, block by block.

/-- Run a row at a register write. -/
def State.by (s : State) (o : State → Host.Outcome State Fault Refusal) : State := outState (o s) s

/-- W1C: 1 clears (R17). -/
def w1c {n : Nat} (x : BitVec n) (v : Word) : BitVec n := x &&& ~~~ (v.setWidth n)

/-- Replace the low or the high word of a 64-bit or 48-bit register. -/
def putLo {n : Nat} (x : BitVec n) (v : Word) : BitVec n := BitVec.ofNat n (hiOf x.toNat * 2 ^ 32 + v.toNat)
def putHi {n : Nat} (x : BitVec n) (v : Word) : BitVec n := BitVec.ofNat n (v.toNat * 2 ^ 32 + loOf x.toNat)

/-- Writes to the GLB block (R466). A write of GLB_SB_CFG that clears both enables is ignored; a set lock bit ignores the RWL fields. -/
def State.writeGlb (s : State) (a : Nat) (v : Word) : State :=
  match a with
  | 0x14 => s.by (execSideBandSoftReset v)
  | 0x28 =>
    if s.life.sbLock || !(v.getLsbD 7 || v.getLsbD 8) then s
    else s.setLife fun l => { l with i2cAddr := v.setWidth 7, i2cEn := v.getLsbD 7, spiEn := v.getLsbD 8, sbLock := v.getLsbD 31 }
  | 0x2C => s.setLife fun l => { l with scratch := v }
  | 0x34 => s.setLife fun l => { l with intStatus := w1c l.intStatus v }
  | 0x38 => s.setLife fun l => { l with intEnable := v.setWidth 5 }
  | _ => s

/-- Writes to the MBX block (R461, R462, R467). The request buffer ignores writes while busy. -/
def State.writeMbx (s : State) (a : Nat) (v : Word) : State :=
  if 0x8000 ≤ a && a < 0xC000 then
    (if s.mbx.mbxState = 1 then s else s.setMbx fun m => { m with reqBuf := writeCells m.reqBuf (a - 0x8000) (le 4 v.toNat) })
  else match a with
  | 0xF00 =>
    let s := if v.getLsbD 0 then s.by execMbx31Doorbell else s
    if v.getLsbD 1 then s.by execMbx31Cancel else s
  | 0xF08 => s.setMbx fun m => { m with reqLen := v.setWidth 16 }
  | 0xF10 => s.setMbx fun m => { m with intStatus := w1c m.intStatus v }
  | 0xF14 => s.setMbx fun m => { m with intEnable := v.setWidth 2 }
  | _ => s

/-- Writes to the PWR block (R235-R237). -/
def State.writePwr (s : State) (a : Nat) (v : Word) : State :=
  match a with
  | 0x04 =>
    let s := if v.getLsbD 0 then s.by execPwrCtrlSnapshot else s
    if v.getLsbD 1 then s.by execPwrCtrlMeasure else s
  | 0x08 => s.by (execPwrClassWrite v)
  | 0x0C => s.by (execPwrIlimitWrite v)
  | 0x18 => if v.toNat % 8 ≤ 4 then s.putFeature 0x0001 0 0 (v.toNat % 8) 0 else s
  | 0x68 => s.setPwr fun p => { p with intStatus := w1c p.intStatus v }
  | 0x6C => s.setPwr fun p => { p with intEnable := v.setWidth 7 }
  | _ => s

/-- Writes to the EVR block (R420, R421, R429): of bits [3:0] of EVR_CTRL the lowest set one acts. -/
def State.writeEvr (s : State) (a : Nat) (v : Word) : State :=
  match a with
  | 0x04 =>
    let s := if v.getLsbD 0 then s.by execEvrAdvance else if v.getLsbD 1 then s.by execEvrRefresh else if v.getLsbD 2 then s.by execEvrToOldest
      else if v.getLsbD 3 then s.by execEvrToNewest else s
    if v.getLsbD 4 then s.by execEvrClear else s
  | 0x08 => s.setEvr fun r => { r with cursorLo := v }
  | 0x0C => s.by (execEvrCursorHiWrite v)
  | 0x28 => s.setEvr fun r => { r with alertSev := v.setWidth 2 }
  | 0x2C => s.setEvr fun r => { r with intStatus := w1c r.intStatus v }
  | 0x30 => s.setEvr fun r => { r with intEnable := v.setWidth 4 }
  | _ => s

/-- Writes to the registers of a data-mover channel (R291, R294). Of a write with several action bits pause is taken first, then stop, sh_commit and
retry. -/
def State.writeDmaCh (s : State) (ch : Fin 16) (a : Nat) (v : Word) : State :=
  let sh := fun (f : Desc → Desc) => s.setDmaCh ch fun c => { c with shadow := f c.shadow }
  match a with
  | 0x00 =>
    let s := if v.getLsbD 0 = (s.dmaCh ch).pause then s else s.by (execDmaPause ch (v.getLsbD 0))
    let s := if v.getLsbD 1 then s.by (execDmaStop ch) else s
    let s := if v.getLsbD 2 then s.by (execDmaShCommit ch) else s
    if v.getLsbD 3 then s.by (execDmaRetry ch) else s
  | 0x28 => s.setDmaCh ch fun c => { c with intStatus := w1c c.intStatus v }
  | 0x2C => s.setDmaCh ch fun c => { c with intEnable := v.setWidth 5 }
  | 0x40 => sh fun d => { d with ctl := v &&& 0xFFFFFF1F }
  | 0x44 => sh fun d => { d with len := v }
  | 0x48 => sh fun d => { d with src := putLo d.src v }
  | 0x4C => sh fun d => { d with src := putHi d.src v }
  | 0x50 => sh fun d => { d with dst := putLo d.dst v }
  | 0x54 => sh fun d => { d with dst := putHi d.dst v }
  | 0x58 => sh fun d => { d with idx := putLo d.idx v }
  | 0x5C => sh fun d => { d with idx := putHi d.idx v }
  | 0x60 => sh fun d => { d with idxCount := v }
  | 0x64 => sh fun d => { d with spaces := v &&& 0xFFFF00FF }
  | 0x68 => sh fun d => { d with next := putLo d.next v }
  | 0x6C => sh fun d => { d with next := putHi d.next v }
  | 0x70 => sh fun d => { d with rkey := v }
  | 0x74 => sh fun d => { d with qp := v &&& 0xFFFF }
  | _ => s

/-- Writes to the DMA block: outside maintenance mode it ignores them (R293). -/
def State.writeDma (s : State) (a : Nat) (v : Word) : State :=
  if s.dmaOpen && decide (a < 0x1000) then s.writeDmaCh (Fin.ofNat 16 (a / 0x100)) (a % 0x100) v else s

/-- Change the administrative gate list; while a swap is pending the TAS configuration and the admin bank ignore writes (R348, R358). -/
def State.putGcl (s : State) (p : Fin 2) (f : GateList → GateList) : State :=
  s.setPort p fun q => if q.tasPending then q else { q with gadmin := f q.gadmin }

/-- Writes to the MAC and TAS registers of a port (R357, R358). A value out of range is ignored. A retired port takes no register write, while its
registers are still read and a pending swap still ends: R444 speaks of settings that name the port alone (DESIGN CHOICE, log 70). -/
def State.writeMac (s : State) (p : Fin 2) (a : Nat) (v : Word) : State :=
  let n := v.toNat
  let c := s.portCfg p
  let put := fun (f : PortCfg → PortCfg) => s.setPortCfg p f
  if !s.portUsable p then s
  else if 0x2000 ≤ a && a < 0x2800 then
    s.putGcl p fun g => { g with entries := modAt g.entries ((a - 0x2000) / 8) fun e => if a % 8 = 0 then (v &&& 0xFF, e.2) else (e.1, v) }
  else match a with
  | 0x04 =>
    let s := if v.getLsbD 1 then s.by (execStatSnap p) else s
    let s := if v.getLsbD 2 then s.by (execRenegotiate p) else s
    if v.getLsbD 0 then s.freeNext.by (execPortReset p (s.freeVal.testBit 0)) else s
  | 0x08 => if n % 16 ≠ 0 && 1 ≤ n / 65536 && n / 65536 ≤ 10000 then put fun c => { c with phy := v &&& 0xFFFF001F } else s
  | 0x0C => let f := n % 16384; if 1518 ≤ f && f ≤ 9216 then put fun c => { c with maxFrame := v.setWidth 14 } else s
  | 0x10 =>
    let vid := n % 4096
    if v.getLsbD 12 && (vid = 0 || vid = 4095) then s else put fun c => { c with vlan := v.setWidth 19 }
  | 0x14 => put fun c => { c with pcpMap := v.setWidth 24 }
  | 0x18 => s.by (execMacnFcCfgWrite p v)
  | 0x28 => if stepdownOk n c.step1.toNat then put fun c => { c with step0 := v } else s
  | 0x2C => if stepdownOk c.step0.toNat n then put fun c => { c with step1 := v } else s
  | 0x34 => s.setPort p fun q => { q with intStatus := w1c q.intStatus v }
  | 0x38 => s.setPort p fun q => { q with intEnable := v.setWidth 7 }
  | 0x3C => let t := n % 65536; if t = 0 || (10 ≤ t && t ≤ 10000) then put fun c => { c with pauseWdog := v.setWidth 16 } else s
  | 0x1000 =>
    let s := s.by (execTasEnableWrite p v)
    if v.getLsbD 1 then s.by (execTasConfigChange p) else s
  | 0x1008 => s.putGcl p fun g => { g with cycle := v }
  | 0x100C => s.putGcl p fun g => { g with len := v.setWidth 9 }
  | 0x1010 => s.putGcl p fun g => { g with baseNs := v.setWidth 30 }
  | 0x1014 => s.putGcl p fun g => { g with baseSec := putLo g.baseSec v }
  | 0x1018 => s.putGcl p fun g => { g with baseSec := putHi g.baseSec v }
  | 0x4200 => s.setPort p fun q => { q with half := q.half &&& ~~~ (v.setWidth 44) }
  | 0x4204 => s.setPort p fun q => { q with half := q.half &&& ~~~ ((v.setWidth 44) <<< 32) }
  | 0x4208 => s.setPort p fun q => { q with halfEn := putLo q.halfEn v }
  | 0x420C => s.setPort p fun q => { q with halfEn := putHi q.halfEn v }
  | _ => s

/-- Writes to the PTP block (R352, R359): PTP_SET and PTP_ADJ obey source 5, the seconds source 4 too. -/
def State.writePtp (s : State) (a : Nat) (v : Word) : State :=
  let src := s.ptp.source
  let adj := signedOf 32 v.toNat
  let put := fun (f : Ptp → Ptp) => s.setPtp f
  match a with
  | 0x00 => s.by (execPtpCfgWrite v)
  | 0x14 => if src = 5 then put fun t => { t with setNs := v.setWidth 30 } else s
  | 0x18 => if src = 4 || src = 5 then put fun t => { t with setSec := putLo t.setSec v } else s
  | 0x1C => if src = 4 || src = 5 then put fun t => { t with setSec := putHi t.setSec v } else s
  | 0x20 => if src = 5 && adj.natAbs ≤ 256000000 then put fun t => { t with adj := v } else s
  | 0x28 => if v.getLsbD 0 then s.by execPtpCtrlStep else s
  | 0x2C => let w := v.toNat % 2 ^ 20; if 1 ≤ w && w ≤ 500000 then put fun t => { t with ppsCfg := v.setWidth 22 } else s
  | 0x30 => if v.toNat % 2 ^ 30 ≤ 999999999 then put fun t => { t with ppsOffset := v.setWidth 30 } else s
  | 0x40 | 0x44 | 0x48 | 0x4C => put fun t => { t with lat := modAt t.lat ((a - 0x40) / 4) fun _ => v.setWidth 16 }
  | 0x50 => put fun t => { t with intStatus := w1c t.intStatus v }
  | 0x54 => put fun t => { t with intEnable := v.setWidth 4 }
  | _ => s

/-- Whether the register bus serves the main island's blocks now: powered, and not in PS3 or PS4 (R454, R455). -/
def State.busReady (s : State) : Bool := s.life.mainOn && decide (s.pwr.ps.val < 3)

/-- Whether an address lies in GLB or CLK, which the AON island answers (R454, R465). -/
def aonAddr (addr : Nat) : Bool := addr / 65536 == 0 || addr / 65536 == 2

/-- One 32-bit write by the register bus (R16, R17, R465): an unaligned or undefined address and a block that does not answer ignore it. -/
def State.writeReg (s : State) (addr : Nat) (v : Word) : State :=
  let a := addr % 65536
  if addr % 4 ≠ 0 || !s.life.aonOn then s
  else match addr / 65536 with
  | 0x0 => s.writeGlb a v
  | 0x2 => if a = 0x14 then s.by (execClkMeasSelWrite v) else s
  | blk =>
    if !s.busReady then s
    else match blk with
    | 0x1 => s.writeMbx a v
    | 0x3 => s.writePwr a v
    | 0x4 => s.writeEvr a v
    | 0x5 => s.writeDma a v
    | 0x8 => s.writeMac 0 a v
    | 0x9 => s.writeMac 1 a v
    | 0xA => s.writePtp a v
    | 0xC =>
      if a = 0x08 && 85 ≤ v.toNat % 256 && v.toNat % 256 ≤ 125 then s.setThm fun t => { t with warnAt := v.setWidth 8 } else s
    | _ => s

/-- REGISTER_WRITE (R16, R17): one write by the register bus. -/
def execRegisterWrite (addr : Nat) (v : Word) (s : State) : Host.Outcome State Fault Refusal := .next (s.writeReg addr v)

-- Posted writes.

/-- An access of the side-band to a block other than GLB and CLK wakes the module from PS3 and PS4 (R455). -/
def State.sbTouch (s : State) (addr : Nat) : State :=
  if !aonAddr addr && s.life.mainOn && decide (3 ≤ s.pwr.ps.val) then s.wake else s

/-- Post one word (R455): GLB and CLK take it at once, the others through the buffer of 16 words; one that finds it full is dropped. An island that is
off takes none. -/
def State.post (s : State) (addr : Nat) (v : Word) : State :=
  if aonAddr addr then s.writeReg addr v
  else if !s.life.mainOn then s
  else
    let s := s.sbTouch addr
    if s.sb.fifo.length < 16 then s.setSb fun b => { b with fifo := b.fifo ++ [(addr, v)] }
    else (s.setSb fun b => { b with dropSeen := true }).glbInt 4

/-- Apply posted writes in order, at most so many (R455). -/
def State.applyPosted : Nat → State → State
  | 0, s => s
  | n + 1, s =>
    match s.sb.fifo with
    | [] => s
    | w :: r => if s.busReady then State.applyPosted n ((s.setSb fun b => { b with fifo := r }).writeReg w.1 w.2) else s

/-- POSTED_WRITE_APPLY (R455). -/
def execPostedWriteApply (s : State) : Host.Outcome State Fault Refusal := .next (s.applyPosted 1)

/-- Post the whole words of a byte string at rising addresses; a last word that is not whole is discarded (R456, R458). -/
def State.postWords : Nat → State → Nat → Bytes → State
  | 0, s, _, _ => s
  | n + 1, s, addr, d =>
    if d.length < 4 then s else State.postWords n (s.post (addr % 2 ^ 32) (BitVec.ofNat 32 (unLe (d.take 4)))) (addr + 4) (d.drop 4)

/-- Read so many words at rising addresses (R456). -/
def State.readWords : Nat → State → Nat → State × List Word
  | 0, s, _ => (s, [])
  | n + 1, s, addr =>
    let (s, w) := s.readReg (addr % 2 ^ 32)
    let (s, ws) := State.readWords n s (addr + 4)
    (s, w :: ws)

/-- A read of the side-band (R455, R456): earlier posted writes are applied first; a target that is not ready answers busy and zeros. -/
def State.sideRead (s : State) (addr words : Nat) (slow : Bool) : State :=
  let s := s.sbTouch addr
  if slow || (!aonAddr addr && !s.busReady) then s.setSb fun b => { b with status := 0xE1, data := List.replicate words 0 }
  else
    let s := s.applyPosted s.sb.fifo.length
    let (s, ws) := s.readWords words addr
    s.setSb fun b => { b with status := 0xA5, data := ws }

/-- SPI_WRITE (R455, R456). -/
def execSpiWrite (addr : Nat) (data : Bytes) (s : State) : Host.Outcome State Fault Refusal :=
  .next (if s.life.spiEn && s.life.aonOn then s.postWords data.length addr data else s)

/-- SPI_READ (R456): ready after so many wait bytes; more than 32 is busy. -/
def execSpiRead (addr : Nat) (words : Nat) (waitBytes : Nat) (s : State) : Host.Outcome State Fault Refusal :=
  .next (
    if s.life.spiEn && s.life.aonOn then
      ((s.setSb fun b => { b with spiBusy := true }).sideRead addr words (decide (32 < waitBytes))).setSb fun b => { b with spiBusy := false }
    else s)

/-- SPI_STATUS (R456): posted writes pending, a write dropped since the last status read, wake in progress, maintenance mode. -/
def execSpiStatus (s : State) : Host.Outcome State Fault Refusal :=
  .next (
    if s.life.spiEn && s.life.aonOn then
      let waking := s.pwr.psBusy && decide (s.pwr.psTarget = 0) && decide (s.pwr.ps ≠ 0)
      let v := wordOf [(b2n (!s.sb.fifo.isEmpty), 0), (b2n s.sb.dropSeen, 1), (b2n waking, 2), (b2n s.dmaOpen, 3)]
      s.setSb fun b => { b with status := BitVec.ofNat 8 v, dropSeen := false }
    else s)

/-- Whether the I2C target answers an address (R458, R466). -/
def State.i2cMine (s : State) (dev : BitVec 7) : Bool := s.life.i2cEn && s.life.aonOn && dev == s.life.i2cAddr

/-- I2C_WRITE (R458): each whole word is posted as it comes. Data that ends inside a word is a transaction cut off before its STOP, which stays open
until I2C_SCL_TIMEOUT or the next START (DESIGN CHOICE, log 92). -/
def execI2cWrite (dev : BitVec 7) (addr : Nat) (data : Bytes) (s : State) : Host.Outcome State Fault Refusal :=
  .next (
    if s.i2cMine dev then (s.postWords data.length addr data).setSb fun b => { b with i2cBusy := decide (data.length % 4 ≠ 0) } else s)

/-- I2C_READ (R458): the status byte and the words; the controller's NACK and STOP end it. -/
def execI2cRead (dev : BitVec 7) (addr : Nat) (words : Nat) (s : State) : Host.Outcome State Fault Refusal :=
  .next (
    if s.i2cMine dev then
      ((s.setSb fun b => { b with i2cBusy := true, sdaDriven := true }).sideRead addr words false).setSb fun b => { b with i2cBusy := false, sdaDriven := false }
    else s)

/-- I2C_SCL_TIMEOUT (R458): the target returns to idle and releases SB_SDA. -/
def execI2cSclTimeout (s : State) : Host.Outcome State Fault Refusal := .next (s.setSb fun b => { b with i2cBusy := false, sdaDriven := false })

end Sys2Proof.Machine
end

