-- ==== Sys2Proof/Machine/Dispatch.lean ====
section
/-! DEFINITION. One arm for each command: its meaning, or a rejection by name. -/

namespace Sys2Proof.Machine

/-- The effect of a command on everything but the queue. -/
def exec (i : Instr) (s : State) : Host.Outcome State Fault Refusal :=
  match i with
  | .put cp => Sys2Proof.Machine.execPut cp s
  | .get cp => Sys2Proof.Machine.execGet cp s
  | .delete cp => Sys2Proof.Machine.execDelete cp s
  | .existsKey cp => Sys2Proof.Machine.execExistsKey cp s
  | .discardRange cp => Sys2Proof.Machine.execDiscardRange cp s
  | .list cp => Sys2Proof.Machine.execList cp s
  | .mget cp => Sys2Proof.Machine.execMget cp s
  | .putPart cp => Sys2Proof.Machine.execPutPart cp s
  | .flush cp => Sys2Proof.Machine.execFlush cp s
  | .flushDone adm => Sys2Proof.Machine.execFlushDone adm s
  | .abort adm => Sys2Proof.Machine.execAbort adm s
  | .summary => Sys2Proof.Machine.execSummary s
  | .ksCreate => Sys2Proof.Machine.execKsCreate s
  | .ksDelete => Sys2Proof.Machine.execKsDelete s
  | .ksDeleteTakesEffect adm => Sys2Proof.Machine.execKsDeleteTakesEffect adm s
  | .ksSetLimit => Sys2Proof.Machine.execKsSetLimit s
  | .format => Sys2Proof.Machine.execFormat s
  | .sanitize => Sys2Proof.Machine.execSanitize s
  | .sanitizeDone => Sys2Proof.Machine.execSanitizeDone s
  | .ident => Sys2Proof.Machine.execIdent s
  | .setFeature => Sys2Proof.Machine.execSetFeature s
  | .getFeature => Sys2Proof.Machine.execGetFeature s
  | .logRead => Sys2Proof.Machine.execLogRead s
  | .logClear => Sys2Proof.Machine.execLogClear s
  | .updOffer => Sys2Proof.Machine.execUpdOffer s
  | .updBlock => Sys2Proof.Machine.execUpdBlock s
  | .updActivate => Sys2Proof.Machine.execUpdActivate s
  | .updConfirm => Sys2Proof.Machine.execUpdConfirm s
  | .attest => Sys2Proof.Machine.execAttest s
  | .attestSigningDone => Sys2Proof.Machine.execAttestSigningDone s
  | .certRead => Sys2Proof.Machine.execCertRead s
  | .pair => Sys2Proof.Machine.execPair s
  | .unpair => Sys2Proof.Machine.execUnpair s
  | .setPolicy => Sys2Proof.Machine.execSetPolicy s
  | .setLag => Sys2Proof.Machine.execSetLag s
  | .resync => Sys2Proof.Machine.execResync s
  | .mirrorState => Sys2Proof.Machine.execMirrorState s
  | .putValueLanded adm => Sys2Proof.Machine.execPutValueLanded adm s
  | .writeWaitTimeout adm => Sys2Proof.Machine.execWriteWaitTimeout adm s
  | .writeWaitResume adm => Sys2Proof.Machine.execWriteWaitResume adm s
  | .assemblyExpiry asm => Sys2Proof.Machine.execAssemblyExpiry asm s
  | .hello rx dg => Sys2Proof.Machine.execHello rx dg s
  | .cmd rx dg => Sys2Proof.Machine.execCmd rx dg s
  | .ack rx dg => Sys2Proof.Machine.execAck rx dg s
  | .keepalive rx dg => Sys2Proof.Machine.execKeepalive rx dg s
  | .close rx dg => Sys2Proof.Machine.execClose rx dg s
  | .closeAck sid => Sys2Proof.Machine.execCloseAck sid s
  | .sessionFree sid => Sys2Proof.Machine.execSessionFree sid s
  | .sessionExpiry sid => Sys2Proof.Machine.execSessionExpiry sid s
  | .heldCmdExpiry sid seq => Sys2Proof.Machine.execHeldCmdExpiry sid seq s
  | .ipFragment f => Sys2Proof.Machine.execIpFragment f s
  | .reassemblyTimeout port srcAddr ident => Sys2Proof.Machine.execReassemblyTimeout port srcAddr ident s
  | .arpNdEchoRequest rx kind len => Sys2Proof.Machine.execArpNdEchoRequest rx kind len s
  | .connectionReq rx priv => Sys2Proof.Machine.execConnectionReq rx priv s
  | .doorbell qp offset data => Sys2Proof.Machine.execDoorbell qp offset data s
  | .entryFetchResponse qp entries => Sys2Proof.Machine.execEntryFetchResponse qp entries s
  | .payloadFetchResponse adm data => Sys2Proof.Machine.execPayloadFetchResponse adm data s
  | .completionWrite qp => Sys2Proof.Machine.execCompletionWrite qp s
  | .notifyTimer qp => Sys2Proof.Machine.execNotifyTimer qp s
  | .hostDisconnect qp => Sys2Proof.Machine.execHostDisconnect qp s
  | .connectionFailure qp => Sys2Proof.Machine.execConnectionFailure qp s
  | .payloadTransferNak adm => Sys2Proof.Machine.execPayloadTransferNak adm s
  | .queuePairFree qp => Sys2Proof.Machine.execQueuePairFree qp s
  | .drainPartialRowTimer st => Sys2Proof.Machine.execDrainPartialRowTimer st s
  | .drainRowProgrammed job => Sys2Proof.Machine.execDrainRowProgrammed job s
  | .mapRecordDurable jseq => Sys2Proof.Machine.execMapRecordDurable jseq s
  | .writeThroughDone adm => Sys2Proof.Machine.execWriteThroughDone adm s
  | .journalPageTimer => Sys2Proof.Machine.execJournalPageTimer s
  | .journalPageProgrammed => Sys2Proof.Machine.execJournalPageProgrammed s
  | .checkpointSlice => Sys2Proof.Machine.execCheckpointSlice s
  | .stashReinsert => Sys2Proof.Machine.execStashReinsert s
  | .reclaimSweep range => Sys2Proof.Machine.execReclaimSweep range s
  | .programUnitDone ch pos ok => Sys2Proof.Machine.execProgramUnitDone ch pos ok s
  | .pageReadDone read o => Sys2Proof.Machine.execPageReadDone read o s
  | .dieResetRetry ch pos ok => Sys2Proof.Machine.execDieResetRetry ch pos ok s
  | .channelRetrain ch ok => Sys2Proof.Machine.execChannelRetrain ch ok s
  | .segmentSeal seg => Sys2Proof.Machine.execSegmentSeal seg s
  | .gcSourceStart => Sys2Proof.Machine.execGcSourceStart s
  | .gcRowProgrammed job => Sys2Proof.Machine.execGcRowProgrammed job s
  | .copyDone seg => Sys2Proof.Machine.execCopyDone seg s
  | .eraseDone seg failed => Sys2Proof.Machine.execEraseDone seg failed s
  | .scrubCreditTick => Sys2Proof.Machine.execScrubCreditTick s
  | .scrubBlock ch pos slot o highErrors => Sys2Proof.Machine.execScrubBlock ch pos slot o highErrors s
  | .repackStart => Sys2Proof.Machine.execRepackStart s
  | .dramError ch e => Sys2Proof.Machine.execDramError ch e s
  | .pwrclsChange pads => Sys2Proof.Machine.execPwrclsChange pads s
  | .ilimitEvaluation sample => Sys2Proof.Machine.execIlimitEvaluation sample s
  | .ilimitClamp vin10mV => Sys2Proof.Machine.execIlimitClamp vin10mV s
  | .vinHigh vin10mV => Sys2Proof.Machine.execVinHigh vin10mV s
  | .tokenRequest cls tokens => Sys2Proof.Machine.execTokenRequest cls tokens s
  | .tokenReturn grant => Sys2Proof.Machine.execTokenReturn grant s
  | .holdVoltageStep v10mV => Sys2Proof.Machine.execHoldVoltageStep v10mV s
  | .holdVoltageFall v10mV fell10mVIn1s => Sys2Proof.Machine.execHoldVoltageFall v10mV fell10mVIn1s s
  | .holdAbsentTimeout rise10mV => Sys2Proof.Machine.execHoldAbsentTimeout rise10mV s
  | .capacitanceMeasurementDue => Sys2Proof.Machine.execCapacitanceMeasurementDue s
  | .capacitanceMeasurementDone uF ms => Sys2Proof.Machine.execCapacitanceMeasurementDone uF ms s
  | .measurementRetry => Sys2Proof.Machine.execMeasurementRetry s
  | .bankRetry => Sys2Proof.Machine.execBankRetry s
  | .underVoltageTrip => Sys2Proof.Machine.execUnderVoltageTrip s
  | .holdupDrainEnd => Sys2Proof.Machine.execHoldupDrainEnd s
  | .holdAt12v => Sys2Proof.Machine.execHoldAt12v s
  | .restartQualification straps => Sys2Proof.Machine.execRestartQualification straps s
  | .thermalSample ctrl16 dies16 => Sys2Proof.Machine.execThermalSample ctrl16 dies16 s
  | .thermalTrip => Sys2Proof.Machine.execThermalTrip s
  | .psIdleExpiry ps => Sys2Proof.Machine.execPsIdleExpiry ps s
  | .wakeEvent w => Sys2Proof.Machine.execWakeEvent w s
  | .powerStateTransitionDone => Sys2Proof.Machine.execPowerStateTransitionDone s
  | .pwrCtrlSnapshot => Sys2Proof.Machine.execPwrCtrlSnapshot s
  | .pwrCtrlMeasure => Sys2Proof.Machine.execPwrCtrlMeasure s
  | .pwrClassWrite v => Sys2Proof.Machine.execPwrClassWrite v s
  | .pwrIlimitWrite v => Sys2Proof.Machine.execPwrIlimitWrite v s
  | .registerWrite addr v => Sys2Proof.Machine.execRegisterWrite addr v s
  | .dmaPause ch on => Sys2Proof.Machine.execDmaPause ch on s
  | .dmaStop ch => Sys2Proof.Machine.execDmaStop ch s
  | .dmaShCommit ch => Sys2Proof.Machine.execDmaShCommit ch s
  | .dmaRetry ch => Sys2Proof.Machine.execDmaRetry ch s
  | .dmaPauseDrainEnd ch written => Sys2Proof.Machine.execDmaPauseDrainEnd ch written s
  | .dmaHandOver ch => Sys2Proof.Machine.execDmaHandOver ch s
  | .dmaError ch err written => Sys2Proof.Machine.execDmaError ch err written s
  | .mirrorHello rx body => Sys2Proof.Machine.execMirrorHello rx body s
  | .mirrorHelloAck rx body => Sys2Proof.Machine.execMirrorHelloAck rx body s
  | .mirrorPut m => Sys2Proof.Machine.execMirrorPut m s
  | .mirrorDelete m => Sys2Proof.Machine.execMirrorDelete m s
  | .mirrorRange m => Sys2Proof.Machine.execMirrorRange m s
  | .mirrorAck m => Sys2Proof.Machine.execMirrorAck m s
  | .heartbeat m => Sys2Proof.Machine.execHeartbeat m s
  | .heartbeatSend => Sys2Proof.Machine.execHeartbeatSend s
  | .mirrorResendTimer => Sys2Proof.Machine.execMirrorResendTimer s
  | .repairReq m => Sys2Proof.Machine.execRepairReq m s
  | .repairRsp m => Sys2Proof.Machine.execRepairRsp m s
  | .repairTimeout read => Sys2Proof.Machine.execRepairTimeout read s
  | .ksCfg m => Sys2Proof.Machine.execKsCfg m s
  | .syncMark m => Sys2Proof.Machine.execSyncMark m s
  | .refuse m => Sys2Proof.Machine.execRefuse m s
  | .refusedProbe ks => Sys2Proof.Machine.execRefusedProbe ks s
  | .mirrorClose m => Sys2Proof.Machine.execMirrorClose m s
  | .peerLost => Sys2Proof.Machine.execPeerLost s
  | .mirrorMarkStore => Sys2Proof.Machine.execMirrorMarkStore s
  | .deltaResyncStart => Sys2Proof.Machine.execDeltaResyncStart s
  | .linkUp port l => Sys2Proof.Machine.execLinkUp port l s
  | .linkDown port => Sys2Proof.Machine.execLinkDown port s
  | .trainingFailure port rate => Sys2Proof.Machine.execTrainingFailure port rate s
  | .fastRetrain port => Sys2Proof.Machine.execFastRetrain port s
  | .portReset port selfTestOk => Sys2Proof.Machine.execPortReset port selfTestOk s
  | .statSnap port => Sys2Proof.Machine.execStatSnap port s
  | .renegotiate port => Sys2Proof.Machine.execRenegotiate port s
  | .macnFcCfgWrite port v => Sys2Proof.Machine.execMacnFcCfgWrite port v s
  | .trafficSample s0 s1 => Sys2Proof.Machine.execTrafficSample s0 s1 s
  | .frameReceived port f => Sys2Proof.Machine.execFrameReceived port f s
  | .xon port => Sys2Proof.Machine.execXon port s
  | .pauseRefresh port => Sys2Proof.Machine.execPauseRefresh port s
  | .pauseFrameReceived port f => Sys2Proof.Machine.execPauseFrameReceived port f s
  | .pauseExpiry port tc => Sys2Proof.Machine.execPauseExpiry port tc s
  | .pauseWdog port tc => Sys2Proof.Machine.execPauseWdog port tc s
  | .pauseWdogBreakEnd port tc => Sys2Proof.Machine.execPauseWdogBreakEnd port tc s
  | .frameTransmitStart port => Sys2Proof.Machine.execFrameTransmitStart port s
  | .tasConfigChange port => Sys2Proof.Machine.execTasConfigChange port s
  | .tasSwap port => Sys2Proof.Machine.execTasSwap port s
  | .gateEntryAdvance port => Sys2Proof.Machine.execGateEntryAdvance port s
  | .tasEnableWrite port v => Sys2Proof.Machine.execTasEnableWrite port v s
  | .ptpEventMessage m => Sys2Proof.Machine.execPtpEventMessage m s
  | .ptpHoldover => Sys2Proof.Machine.execPtpHoldover s
  | .ppsInEdge => Sys2Proof.Machine.execPpsInEdge s
  | .ppsOutEdge => Sys2Proof.Machine.execPpsOutEdge s
  | .ptpCtrlStep => Sys2Proof.Machine.execPtpCtrlStep s
  | .ptpTimeNsRead => Sys2Proof.Machine.execPtpTimeNsRead s
  | .ptpPpsInNsRead => Sys2Proof.Machine.execPtpPpsInNsRead s
  | .ptpTsqData0Read q => Sys2Proof.Machine.execPtpTsqData0Read q s
  | .updVerificationDone badBlocks => Sys2Proof.Machine.execUpdVerificationDone badBlocks s
  | .partialBlockTimeout => Sys2Proof.Machine.execPartialBlockTimeout s
  | .updSessionAbandon => Sys2Proof.Machine.execUpdSessionAbandon s
  | .cfForwardRetry => Sys2Proof.Machine.execCfForwardRetry s
  | .selfActivation => Sys2Proof.Machine.execSelfActivation s
  | .activationStepDone e => Sys2Proof.Machine.execActivationStepDone e s
  | .selfTestPass => Sys2Proof.Machine.execSelfTestPass s
  | .confirmTimeout => Sys2Proof.Machine.execConfirmTimeout s
  | .authRefusalEnd addr => Sys2Proof.Machine.execAuthRefusalEnd addr s
  | .evrFlashCopy => Sys2Proof.Machine.execEvrFlashCopy s
  | .evrCursorHiWrite v => Sys2Proof.Machine.execEvrCursorHiWrite v s
  | .evrAdvance => Sys2Proof.Machine.execEvrAdvance s
  | .evrRefresh => Sys2Proof.Machine.execEvrRefresh s
  | .evrToOldest => Sys2Proof.Machine.execEvrToOldest s
  | .evrToNewest => Sys2Proof.Machine.execEvrToNewest s
  | .evrClear => Sys2Proof.Machine.execEvrClear s
  | .lensFillDone => Sys2Proof.Machine.execLensFillDone s
  | .evrSkippedRead => Sys2Proof.Machine.execEvrSkippedRead s
  | .evrNewestLoRead => Sys2Proof.Machine.execEvrNewestLoRead s
  | .evrOldestLoRead => Sys2Proof.Machine.execEvrOldestLoRead s
  | .evrMemFault flashRing bank => Sys2Proof.Machine.execEvrMemFault flashRing bank s
  | .resetPin => Sys2Proof.Machine.execResetPin s
  | .sideBandSoftReset v => Sys2Proof.Machine.execSideBandSoftReset v s
  | .resetCloseDone ended => Sys2Proof.Machine.execResetCloseDone ended s
  | .referenceLoss => Sys2Proof.Machine.execReferenceLoss s
  | .cpWatchdog cp => Sys2Proof.Machine.execCpWatchdog cp s
  | .engineWatchdog e => Sys2Proof.Machine.execEngineWatchdog e s
  | .supLockstepFailure sup => Sys2Proof.Machine.execSupLockstepFailure sup s
  | .ledgerFault l => Sys2Proof.Machine.execLedgerFault l s
  | .serviceResetEnd => Sys2Proof.Machine.execServiceResetEnd s
  | .serviceResetTimeout => Sys2Proof.Machine.execServiceResetTimeout s
  | .startUpPhaseDone verified => Sys2Proof.Machine.execStartUpPhaseDone verified s
  | .serviceInstant => Sys2Proof.Machine.execServiceInstant s
  | .mbx31Doorbell => Sys2Proof.Machine.execMbx31Doorbell s
  | .mbx31Cancel => Sys2Proof.Machine.execMbx31Cancel s
  | .spiWrite addr data => Sys2Proof.Machine.execSpiWrite addr data s
  | .spiRead addr words waitBytes => Sys2Proof.Machine.execSpiRead addr words waitBytes s
  | .spiStatus => Sys2Proof.Machine.execSpiStatus s
  | .i2cWrite dev addr data => Sys2Proof.Machine.execI2cWrite dev addr data s
  | .i2cRead dev addr words => Sys2Proof.Machine.execI2cRead dev addr words s
  | .i2cSclTimeout => Sys2Proof.Machine.execI2cSclTimeout s
  | .postedWriteApply => Sys2Proof.Machine.execPostedWriteApply s
  | .clkMeasSelWrite v => Sys2Proof.Machine.execClkMeasSelWrite v s
  | .clkMeasDone kHz => Sys2Proof.Machine.execClkMeasDone kHz s
  | .cfForwardResponse a => Sys2Proof.Machine.execCfForwardResponse a s
  | .lowPowerIdle port => Sys2Proof.Machine.execLowPowerIdle port s
  | .holdupChargeTimeout => Sys2Proof.Machine.execHoldupChargeTimeout s
  | .attestBusyTimeout adm => Sys2Proof.Machine.execAttestBusyTimeout adm s
  | .delayReqTimer port => Sys2Proof.Machine.execDelayReqTimer port s
  | .ppsOutFall => Sys2Proof.Machine.execPpsOutFall s
  | .resetRelease straps => Sys2Proof.Machine.execResetRelease straps s
  | .localAckTimeout qp => Sys2Proof.Machine.execLocalAckTimeout qp s
  | .ptpCfgWrite v => Sys2Proof.Machine.execPtpCfgWrite v s

end Sys2Proof.Machine
end

