-- ==== Sys2Proof/Machine/Tick.lean ====
section
/-! DEFINITION. The tick: what one microsecond does while no command waits (log 2). The clocks advance, lines and queues move on, and what waits for
an instant takes its turn; every event the spec times by a rule of its own is a row of the table. -/

namespace Sys2Proof.Machine

/-- The length of a tick, ns. -/
def tickNs : Nat := 1000

/-- The main island's clocks: PTP, which stands in PS4 (R230, R352). -/
def State.tickPtp (s : State) : State := if s.pwr.ps = 4 then s else s.setPtp Ptp.advance

/-- One microsecond of a port: the frame on the line ends, received frames are consumed, time in pause is counted (R339, R340, R357). -/
def State.tickPort (s : State) (p : Fin 2) : State :=
  let s := (s.endLine p).setPort p Port.consumeRx
  if (s.port p).tx.any (fun c => c.paused s.now) then s.setPort p fun q => q.count 38 1 else s

/-- The timestamp queues have a consumer in the SUP unless the side-band owns them; it stops reading during the role swap of an update, and a gap marker
goes out with the entries it follows (R352, R354, R355, R376). -/
def State.tickStamps (s : State) : State :=
  if s.ptp.source = 5 || s.servoPaused then s else s.setPtp fun t => { t with q := t.q.map fun x => { x with entries := [], gap := none } }

/-- The idle instant (R231), and the entry a PS_NOW asked for (R232). -/
def State.tickIdle (s : State) : State :=
  if s.life.phase ≠ 9 || s.life.svc.isSome then s
  else if !s.isIdle then s.setPwr fun p => { p with idleSince := none }
  else
    let s := s.setPwr fun p => { p with idleSince := p.idleSince.or (some s.now) }
    match s.pwr.psRequest with
    | some n =>
      if s.pwr.psBusy then s
      else
        let s := s.setPwr fun p => { p with psRequest := none, psStays := decide (p.ps ≤ n) && decide (n ≠ 0) }
        if s.pwr.ps < n then s.enterPs n else s
    | none => s

/-- The changed key-space table goes to configuration data, both copies at once, under the grant of a pSLC program in each: at once where a durable
KS_SET_LIMIT waits, else half a second after the change, within the second R67 allows (log 57). -/
def State.tickTable (s : State) : State :=
  match s.kv.tableAt with
  | none => s
  | some t =>
    if s.shutting || s.life.phase < 9 || 11 < s.life.phase || (s.kv.tableWaits.isEmpty && !s.past t (500 * ms)) then s
    else if (s.grantFor .table).isSome then (s.returnFor .table).saveTable
    else if s.pwr.queue.any fun q => q.why == .table then s
    else s.askTokens 0 12 .table

/-- What waits for a turn of a unit: FORMAT or SANITIZE, the signer, the self-test, the Mirror engine, ports that train (R210),
the drain. -/
def State.tickUnits (s : State) : State :=
  let s := if s.running then ((s.trySanitize).pumpSign).watchSelfTest else s
  let s := (s.mirrorTurn).tickTable
  let s := if s.running && s.upd.fwd.state = 2 then s.fwdPump else s
  let s := (s.raisePort 0).raisePort 1
  if s.running || s.shutting then s.pumpDrain else s

/-- One microsecond of powered time. -/
def State.tick (s : State) : State :=
  if !s.life.aonOn then s
  else
    let s := s.setLife fun l => { l with clock := l.clock + tickNs }
    if !s.life.mainOn then s
    else ((((((s.tickPtp).tickPort 0).tickPort 1).tickStamps).tickUnits).tickDma).tickIdle

end Sys2Proof.Machine
end

