-- ==== Sys2Proof/Safety.lean ====
section
/-! DEFINITION. What the claims call safe: the canonical form of the addressed memories, the balances of the ledgers (01 R34-R37), and a run that
never stops. -/

namespace Sys2Proof.Safety

open Sys2Proof.Machine

/-- The four byte memories stand in their canonical form: the mailbox's request and response buffers, data DRAM and CP SRAM. -/
def MemOk (s : State) : Prop :=
  memWf s.mbx.reqBuf = true ∧ memWf s.mbx.rspBuf = true ∧ memWf s.dram.mem = true ∧ memWf s.dram.sram = true

/-- Ledger 1: every command admitted is completed or outstanding (01 R34). -/
def CmdsBalance (l : CmdLedger) : Prop := l.admitted = l.completed + l.outstanding

/-- Ledger 2: every credit granted is in a window or returned (01 R34). -/
def CreditsBalance (l : CreditLedger) : Prop := l.granted = l.inUse + l.returned

/-- Ledger 3: the cells of a port's pools (01 R35). -/
def CellsBalance (q : Port) : Prop := q.rxFree + q.rxInUse = 768 ∧ q.txFree + q.txInUse = 384

/-- Ledger 4: granted and free tokens make up the budget (01 R36). -/
def TokensBalance (p : Power) : Prop := p.granted + p.free = p.budget

/-- Ledger 5: the hold-up charge (01 R37). -/
def ChargeBalance (l : Landing) : Prop := l.resLanding + l.resShutdown + l.freeCharge = l.usable

/-- A run of `k` steps that ends in a next state. -/
def Runs (k : Nat) (s : State) : Prop := ∃ t, Host.Core.run Sys2Proof.core k s = .next t

/-- A datagram of type `typ` for the port's own address that names an open session on a usable port (04 R126, R130, R134): the row of that type acts on the session after its ack field
has been taken. -/
def OnSession (s : State) (rx : Rx) (dg : Bytes) (typ : Nat) (x : Session) (h : SkiffIn) : Prop :=
  s.ownAddr rx.port rx.localAddr = true ∧ parseSkiff dg = some h ∧ h.typ = typ ∧ s.accepting = true ∧ s.portUsable rx.port = true ∧ s.sessionFor rx h = some x

/-- The parts of the state, by their field of `State`; the powered time inside `life` is named apart, since only time itself moves it. -/
inductive Field where
  | part | ident | stored | life | sb | mbx | tr | cmds | kv | land | prism | jrn | flash | dram
  | dma | mover | pwr | hold | thm | mir | ports | ptp | upd | sec | evr | freeCtr | pending | clock
  deriving DecidableEq, Repr

/-- A part of the state reads in `t` as in `s`. -/
def Field.same (f : Field) (s t : State) : Prop :=
  match f with
  | .part => t.part = s.part
  | .ident => t.ident = s.ident
  | .stored => t.stored = s.stored
  | .life => t.life = s.life
  | .sb => t.sb = s.sb
  | .mbx => t.mbx = s.mbx
  | .tr => t.tr = s.tr
  | .cmds => t.cmds = s.cmds
  | .kv => t.kv = s.kv
  | .land => t.land = s.land
  | .prism => t.prism = s.prism
  | .jrn => t.jrn = s.jrn
  | .flash => t.flash = s.flash
  | .dram => t.dram = s.dram
  | .dma => t.dma = s.dma
  | .mover => t.mover = s.mover
  | .pwr => t.pwr = s.pwr
  | .hold => t.hold = s.hold
  | .thm => t.thm = s.thm
  | .mir => t.mir = s.mir
  | .ports => t.ports = s.ports
  | .ptp => t.ptp = s.ptp
  | .upd => t.upd = s.upd
  | .sec => t.sec = s.sec
  | .evr => t.evr = s.evr
  | .freeCtr => t.freeCtr = s.freeCtr
  | .pending => t.pending = s.pending
  | .clock => t.life.clock = s.life.clock

/-- `t` differs from `s` at most in the named parts. -/
def Only (l : List Field) (s t : State) : Prop := ∀ f : Field, f ∉ l → f.same s t

/-- The parts of the state that a command can change, in any state and with any operands: what the rules of its row let it reach. A command that completes
another one reaches the mailboxes, the transports, the command table, the ports its answer leaves by and what waited for the completion. -/
def reach (i : Instr) : List Field :=
  match i with
  | .put _ | .mapRecordDurable _ =>
        [.mbx, .tr, .cmds, .kv, .land, .prism, .jrn, .flash, .pwr, .mir, .ports, .upd, .evr, .mover]
  | .get _ | .existsKey _ | .mget _ =>
        [.mbx, .tr, .cmds, .kv, .land, .prism, .jrn, .flash, .pwr, .mir, .ports, .upd, .freeCtr, .mover]
  | .delete _ | .discardRange _ | .putValueLanded _ | .writeWaitResume _ | .writeThroughDone _ | .journalPageProgrammed | .scrubBlock _ _ _ _ _
  | .repairTimeout _ =>
        [.mbx, .tr, .cmds, .kv, .land, .prism, .jrn, .flash, .pwr, .mir, .ports, .upd, .evr, .freeCtr, .mover]
  | .list _ =>
        [.mbx, .tr, .cmds, .kv, .land, .prism, .flash, .pwr, .mir, .ports, .upd, .freeCtr, .mover]
  | .putPart _ =>
        [.mbx, .tr, .cmds, .kv, .land, .prism, .jrn, .flash, .pwr, .mir, .ports, .upd, .mover]
  | .flush _ | .dieResetRetry _ _ _ | .channelRetrain _ _ | .eraseDone _ _ =>
        [.mbx, .tr, .cmds, .kv, .land, .jrn, .flash, .pwr, .mir, .ports, .upd, .evr, .mover]
  | .flushDone _ | .ksDelete | .ident | .logRead | .certRead | .setPolicy | .setLag | .mirrorState =>
        [.mbx, .tr, .cmds, .kv, .land, .mir, .ports, .upd, .mover]
  | .abort _ | .mbx31Cancel | .attestBusyTimeout _ =>
        [.mbx, .tr, .cmds, .kv, .land, .flash, .pwr, .mir, .ports, .upd, .sec, .mover]
  | .summary | .getFeature =>
        [.mbx, .tr, .cmds, .kv, .land, .mir, .ports, .upd, .freeCtr, .mover]
  | .ksCreate | .doorbell _ _ _ | .entryFetchResponse _ _ | .hostDisconnect _ | .connectionFailure _ | .payloadTransferNak _ | .localAckTimeout _ =>
        [.mbx, .tr, .cmds, .kv, .land, .flash, .pwr, .mir, .ports, .upd, .sec, .evr, .mover]
  | .ksDeleteTakesEffect _ =>
        [.mbx, .tr, .cmds, .kv, .land, .prism, .jrn, .flash, .pwr, .mir, .ports, .upd, .sec, .evr, .mover]
  | .ksSetLimit | .logClear | .updConfirm | .unpair | .writeWaitTimeout _ | .peerLost =>
        [.mbx, .tr, .cmds, .kv, .land, .mir, .ports, .upd, .evr, .mover]
  | .format | .sanitize =>
        [.mbx, .tr, .cmds, .kv, .land, .prism, .jrn, .flash, .dram, .pwr, .mir, .ports, .upd, .sec, .evr, .mover]
  | .sanitizeDone =>
        [.stored, .mbx, .tr, .cmds, .kv, .land, .prism, .jrn, .flash, .dram, .pwr, .hold, .mir, .ports, .upd, .sec, .evr, .freeCtr, .mover]
  | .setFeature =>
        [.stored, .mbx, .tr, .cmds, .kv, .land, .flash, .pwr, .thm, .mir, .ports, .upd, .sec, .evr, .mover]
  | .updOffer | .pair | .mirrorHello _ _ =>
        [.mbx, .tr, .cmds, .kv, .land, .mir, .ports, .upd, .evr, .freeCtr, .mover]
  | .updBlock =>
        [.mbx, .tr, .cmds, .kv, .land, .flash, .pwr, .mir, .ports, .upd, .evr, .mover]
  | .updActivate | .dramError _ _ | .restartQualification _ | .updVerificationDone _ | .selfActivation | .confirmTimeout | .resetPin
  | .sideBandSoftReset _ | .resetCloseDone _ | .referenceLoss | .cpWatchdog _ | .engineWatchdog _ | .supLockstepFailure _ | .ledgerFault _
  | .serviceResetTimeout | .startUpPhaseDone _ | .resetRelease _ =>
        [.life, .sb, .mbx, .tr, .cmds, .kv, .land, .prism, .jrn, .flash, .dram, .dma, .pwr, .hold, .thm, .mir, .ports, .ptp, .upd, .sec, .evr,
     .freeCtr, .mover]
  | .attest | .cmd _ _ | .mbx31Doorbell =>
        [.mbx, .tr, .cmds, .kv, .land, .pwr, .mir, .ports, .upd, .sec, .mover]
  | .attestSigningDone =>
        [.mbx, .tr, .cmds, .kv, .land, .pwr, .mir, .ports, .upd, .sec, .freeCtr, .mover]
  | .resync | .pageReadDone _ _ | .mirrorHelloAck _ _ | .mirrorPut _ | .mirrorDelete _ | .mirrorRange _ | .mirrorAck _ | .heartbeat _ | .heartbeatSend
  | .repairReq _ | .repairRsp _ | .ksCfg _ | .syncMark _ | .refuse _ | .mirrorClose _ | .deltaResyncStart =>
        [.mbx, .tr, .cmds, .kv, .land, .prism, .jrn, .flash, .pwr, .mir, .ports, .upd, .sec, .evr, .freeCtr, .mover]
  | .assemblyExpiry _ =>
        [.kv, .land]
  | .hello _ _ =>
        [.tr, .kv, .land, .ports, .sec, .evr, .freeCtr]
  | .ack _ _ | .keepalive _ _ | .closeAck _ | .queuePairFree _ =>
        [.tr, .ports]
  | .close _ _ =>
        [.tr, .kv, .land, .ports]
  | .sessionFree _ | .heldCmdExpiry _ _ | .ipFragment _ | .reassemblyTimeout _ _ _ =>
        [.tr]
  | .sessionExpiry _ =>
        [.tr, .kv, .land]
  | .arpNdEchoRequest _ _ _ =>
        [.pwr, .ports]
  | .connectionReq _ _ =>
        [.tr, .ports, .sec, .evr, .freeCtr]
  | .payloadFetchResponse _ _ =>
        [.mbx, .tr, .cmds, .land, .ports]
  | .completionWrite _ | .notifyTimer _ =>
        [.tr, .ports, .freeCtr]
  | .drainPartialRowTimer _ | .programUnitDone _ _ _ =>
        [.kv, .land, .jrn, .flash, .pwr, .evr, .mover]
  | .drainRowProgrammed _ =>
        [.land, .prism, .jrn, .flash, .pwr]
  | .journalPageTimer | .reclaimSweep _ =>
        [.jrn, .pwr]
  | .checkpointSlice =>
        [.kv, .land, .prism, .jrn, .flash, .pwr, .evr, .mover]
  | .stashReinsert =>
        [.prism]
  | .segmentSeal _ =>
        [.jrn, .flash, .pwr, .evr]
  | .gcSourceStart =>
        [.jrn, .flash, .pwr]
  | .gcRowProgrammed _ =>
        [.land, .prism, .jrn, .flash, .pwr, .evr, .mover]
  | .copyDone _ =>
        [.prism, .jrn, .flash, .pwr, .mir]
  | .scrubCreditTick | .repackStart =>
        [.flash]
  | .pwrclsChange _ | .ilimitEvaluation _ =>
        [.pwr, .thm, .evr]
  | .ilimitClamp _ =>
        [.pwr, .evr]
  | .vinHigh _ | .evrCursorHiWrite _ | .evrAdvance | .evrRefresh | .evrToOldest | .evrToNewest | .evrClear | .lensFillDone =>
        [.evr]
  | .tokenRequest _ _ | .tokenReturn _ | .psIdleExpiry _ | .wakeEvent _ | .pwrCtrlSnapshot =>
        [.pwr]
  | .holdVoltageStep _ | .holdVoltageFall _ _ | .holdAbsentTimeout _ | .capacitanceMeasurementDue | .capacitanceMeasurementDone _ _
  | .measurementRetry | .pwrCtrlMeasure | .holdupChargeTimeout =>
        [.land, .pwr, .hold, .evr]
  | .bankRetry =>
        [.pwr, .hold]
  | .underVoltageTrip | .thermalTrip =>
        [.life, .mbx, .tr, .cmds, .kv, .land, .jrn, .flash, .dma, .pwr, .thm, .mir, .ports, .ptp, .upd, .sec, .evr, .mover]
  | .holdupDrainEnd =>
        [.life, .mbx, .tr, .cmds, .kv, .land, .prism, .jrn, .flash, .pwr, .mir, .ports, .ptp, .upd, .sec, .evr, .freeCtr, .mover]
  | .holdAt12v =>
        [.life, .mbx, .tr, .cmds, .kv, .pwr, .hold, .mir, .ports, .ptp, .upd, .sec, .evr]
  | .thermalSample _ _ =>
        [.land, .jrn, .flash, .pwr, .thm, .evr, .mover]
  | .powerStateTransitionDone =>
        [.mbx, .tr, .cmds, .kv, .land, .prism, .flash, .pwr, .hold, .thm, .mir, .ports, .ptp, .upd, .sec, .evr, .mover]
  | .pwrClassWrite _ | .pwrIlimitWrite _ =>
        [.stored, .pwr, .thm, .evr]
  | .registerWrite _ _ | .spiWrite _ _ | .spiRead _ _ _ | .i2cWrite _ _ _ | .i2cRead _ _ _ | .postedWriteApply =>
        [.stored, .life, .sb, .mbx, .tr, .cmds, .kv, .land, .prism, .jrn, .flash, .dram, .dma, .pwr, .hold, .thm, .mir, .ports, .ptp, .upd, .sec,
     .evr, .freeCtr, .mover]
  | .dmaPause _ _ | .dmaStop _ | .dmaShCommit _ =>
        [.dma]
  | .dmaRetry _ =>
        [.dma, .evr]
  | .dmaPauseDrainEnd _ _ | .dmaHandOver _ =>
        [.dram, .dma, .evr]
  | .dmaError _ _ _ =>
        [.mbx, .tr, .cmds, .kv, .land, .flash, .dram, .dma, .pwr, .mir, .ports, .upd, .sec, .evr, .mover]
  | .mirrorResendTimer =>
        [.mir, .ports]
  | .refusedProbe _ =>
        [.kv, .land, .flash, .pwr, .mir, .ports, .mover]
  | .mirrorMarkStore =>
        [.mir]
  | .linkUp _ _ =>
        [.tr, .pwr, .mir, .ports, .ptp, .evr]
  | .linkDown _ | .renegotiate _ | .trafficSample _ _ =>
        [.pwr, .mir, .ports, .ptp, .evr]
  | .trainingFailure _ _ =>
        [.pwr, .ports, .evr]
  | .fastRetrain _ | .pauseWdog _ _ | .frameTransmitStart _ | .tasSwap _ | .lowPowerIdle _ =>
        [.ports, .evr]
  | .portReset _ _ =>
        [.life, .mbx, .tr, .cmds, .kv, .land, .flash, .pwr, .thm, .mir, .ports, .ptp, .upd, .sec, .evr, .mover]
  | .statSnap _ | .xon _ | .pauseRefresh _ | .pauseFrameReceived _ _ | .pauseExpiry _ _ | .pauseWdogBreakEnd _ _ | .tasConfigChange _
  | .gateEntryAdvance _ | .tasEnableWrite _ _ =>
        [.ports]
  | .macnFcCfgWrite _ _ =>
        [.stored, .mbx, .tr, .cmds, .kv, .land, .flash, .pwr, .thm, .mir, .ports, .ptp, .upd, .sec, .evr, .mover]
  | .frameReceived _ _ =>
        [.tr, .pwr, .ports]
  | .ptpEventMessage _ | .ppsInEdge =>
        [.ports, .ptp, .evr, .freeCtr]
  | .ptpHoldover | .ppsOutEdge | .ppsOutFall | .ptpCfgWrite _ =>
        [.ptp]
  | .ptpCtrlStep =>
        [.ports, .ptp, .evr]
  | .ptpTimeNsRead | .ptpPpsInNsRead | .ptpTsqData0Read _ =>
        [.sb, .ptp]
  | .partialBlockTimeout =>
        [.upd]
  | .updSessionAbandon | .selfTestPass =>
        [.upd, .evr]
  | .cfForwardRetry =>
        [.ports, .upd, .evr, .freeCtr]
  | .activationStepDone _ =>
        [.life, .mbx, .tr, .cmds, .kv, .land, .jrn, .flash, .pwr, .mir, .ports, .ptp, .upd, .sec, .evr, .mover]
  | .authRefusalEnd _ =>
        [.sec]
  | .evrFlashCopy | .evrMemFault _ _ =>
        [.flash, .pwr, .evr, .mover]
  | .evrSkippedRead | .evrNewestLoRead | .evrOldestLoRead =>
        [.sb, .evr]
  | .serviceResetEnd =>
        [.life, .mbx, .tr, .cmds, .kv, .land, .prism, .jrn, .flash, .pwr, .thm, .mir, .ports, .upd, .sec, .evr, .freeCtr, .mover]
  | .serviceInstant =>
        [.life, .mir, .ports, .ptp, .evr, .freeCtr]
  | .spiStatus | .i2cSclTimeout =>
        [.sb]
  | .clkMeasSelWrite _ | .clkMeasDone _ =>
        [.life]
  | .cfForwardResponse _ =>
        [.pwr, .ports, .upd, .evr]
  | .delayReqTimer _ =>
        [.ports, .ptp]

end Sys2Proof.Safety
end

