-- ==== Sys2Proof/Certificates/Slice0/Obligations.lean ====
section
/-! DEFINITION. The statements of this slice, for the provers: what every command answers and where (with its result written out), what every step keeps,
what every command leaves alone, the checks before a command, the ledgers, the byte memories, the capability words and the reset. -/

open Sys2Proof Sys2Proof.Machine

/-- A step takes the command at the front of the queue and runs it on the state with the queue's rest (the block's own rule, log 2). -/
def Obligations.StepRunsFrontCommand : Prop :=
  ∀ (c : Instr) (q : List Instr) (s : State), step { s with pending := c :: q } = exec c { s with pending := q }

/-- A step on an empty queue is one tick of 1,000 ns (the model's choice, log 2). No row of the command table has bits: no word spells a command, and
putting one in front changes nothing (the model's form, log 3). -/
def Obligations.EmptyQueueTicksAndNoWordSpells : Prop :=
  (∀ s : State, s.pending = [] → step s = .next s.tick) ∧
  (∀ (nbits w : Nat) (s : State), decodeTableWord nbits w = none ∧ s.withFetchWord nbits w = s)

/-- A write at the front of its executor that passes its checks (02 R75): PUT reserves the record of its value, leaves the mailbox and has its value
transferred (03 R91); DELETE and DISCARD_RANGE write their record (03 R93, R94); a non-final opening PUT_PART reserves for the whole value, stores its
bytes, opens the assembly and completes with the bytes received; a further part stores its bytes behind them (02 R51-R53; 03 R100). -/
def Obligations.WritesPastTheirChecks : Prop :=
  (∀ (cp : Fin 8) (s : State) (c : Cmd) (k : KeySpace), s.frontOf cp.val 0x01 = some c → s.precheck c = none →
    roRefuses (s.roAt c.adm) 0x01 = false → (s.keyChecks c [(c.entry.ks, c.key)] true).1 = false →
    let u := ((s.keyChecks c [(c.entry.ks, c.key)] true).2).dropSeen c.entry.ks c.adm c.key
    u.spaceOf c = some k → u.stale c = false → u.valueGate c k c.entry.valueLen = .go →
    exec (.put cp) s = .next ((u.reserveValue c).1.transfer c (u.reserveValue c).2 0 c.entry.valueLen)) ∧
  (∀ (cp : Fin 8) (s : State) (c : Cmd) (k : KeySpace) (e : IdxEntry), s.frontOf cp.val 0x03 = some c → s.precheck c = none →
    roRefuses (s.roAt c.adm) c.entry.opcode = false → (s.keyChecks c [(c.entry.ks, c.key)] true).1 = false →
    let u := (s.keyChecks c [(c.entry.ks, c.key)] true).2
    roRefuses (u.roAt c.adm) c.entry.opcode = false → u.lookup c.entry.ks c.key = some e → (u.find c.entry.ks c.key).1.isSome = true →
    u.spaceOf c = some k → (u.find c.entry.ks c.key).2.stale c = false → (u.find c.entry.ks c.key).2.pauseGate k c false false = false →
    (u.find c.entry.ks c.key).2.roomGate 1 0 = true →
    exec (.delete cp) s = .next ((u.find c.entry.ks c.key).2.writeRecord c .tombstone [])) ∧
  (∀ (cp : Fin 8) (s : State) (c : Cmd) (k : KeySpace), s.frontOf cp.val 0x05 = some c → s.precheck c = none → c.payload.isSome = true →
    roRefuses (s.roAt c.adm) c.entry.opcode = false → s.spaceOf c = some k → s.pauseGate k c false false = false →
    s.rangesHeld < 1024 → s.roomGate 1 0 = true →
    exec (.discardRange cp) s = .next (s.writeRecord c .range (c.entry.tailOf (c.payload.getD []) (c.entry.arg 40 1)))) ∧
  (∀ (cp : Fin 8) (s : State) (c : Cmd) (k : KeySpace), s.frontOf cp.val 0x08 = some c → s.precheck c = none → c.payload.isSome = true →
    c.entry.opens = true → c.entry.isFinal = false → roRefuses (s.roAt c.adm) c.entry.opcode = false →
    (s.keyChecks c [(c.entry.ks, c.key)] true).1 = false →
    let u := ((s.keyChecks c [(c.entry.ks, c.key)] true).2).dropSeen c.entry.ks c.adm c.key
    u.spaceOf c = some k → u.valueGate c k c.entry.valueLen = .go → u.asmRoom c = true → u.asmOf c = none →
    exec (.putPart cp) s = .next (
      let b := u.reserveValue c
      let part := c.entry.tailOf (c.payload.getD []) c.entry.partLen
      let t := b.1.storePart c b.2 0 part
      (t.setKv fun kv => { kv with
        assemblies := kv.assemblies ++ [{ id := t.kv.nextAsm, src := c.src, ks := c.entry.ks, key := c.key, total := c.entry.valueLen,
                                          got := part.length, rec_ := b.2, lastPart := t.now, openAdm := c.adm }]
        nextAsm := kv.nextAsm + 1 }).ok { c with rec_ := some b.2 } part.length 0)) ∧
  (∀ (cp : Fin 8) (s : State) (c : Cmd) (a : Assembly), s.frontOf cp.val 0x08 = some c → s.precheck c = none → c.payload.isSome = true →
    c.entry.opens = false → c.entry.isFinal = false → roRefuses (s.roAt c.adm) c.entry.opcode = false → s.asmOf c = some a →
    a.total = c.entry.arg 44 4 → a.got = c.entry.arg 40 4 → a.got + c.entry.partLen ≤ a.total →
    exec (.putPart cp) s = .next (
      ((s.setKv fun kv => { kv with assemblies := kv.assemblies.map (fun x =>
          if x.id = a.id then { x with got := x.got + c.entry.partLen, lastPart := s.now } else x) }).storePart c a.rec_ a.got
            (c.entry.tailOf (c.payload.getD []) c.entry.partLen)).ok { c with rec_ := some a.rec_ } (a.got + c.entry.partLen) 0))

/-- A write in progress (01 R26; 02 R55, R75; 05 R177, R182): the last byte of a PUT's value makes its record valid, and in Landing mode the write becomes
visible; a write that has waited 100 ms at check 9 completes with ST_BUSY, with EV_INDEX_STASH_FULL where a new key met a full stash; a waiting PUT,
opening PUT_PART, DELETE or DISCARD_RANGE tries its gate again; an open assembly that received no part for 30 s is discarded. -/
def Obligations.WritesInProgressMoveOn : Prop :=
  (∀ (adm id : Nat) (s : State) (c : Cmd) (p : Bytes) (r : LRec), s.running = true → s.cmd? adm = some c → c.st = .filling →
    c.rec_ = some id → c.payload = some p → c.entry.opcode = 0x01 →
    let t := (s.moved adm).setRec id fun r =>
      { r with val := r.val ++ c.entry.tailOf p (c.entry.arg 40 4), st := .valid, adm := c.adm, epoch := s.life.bootEpoch, visAt := s.now }
    t.rec? id = some r → r.wt = false →
    exec (.putValueLanded adm) s = .next (t.becomeVisible id r.loc false)) ∧
  (∀ (adm : Nat) (s : State) (c : Cmd), s.running = true → s.cmd? adm = some c → s.waitedOut c = true → c.src ≠ .mirror →
    let full := (c.entry.opcode = 0x01 ∨ c.entry.opcode = 0x08) ∧ s.stashFull = true ∧ s.lookup c.entry.ks c.key = none
    (full → exec (.writeWaitTimeout adm) s = .next ((s.logEv evIndexStashFull uPrism c.entry.ks 0).fail c stBusy)) ∧
    (¬ full → exec (.writeWaitTimeout adm) s = .next (s.fail c stBusy))) ∧
  (∀ (adm t : Nat) (s : State) (c : Cmd), s.running = true → s.cmd? adm = some c → c.st = .waiting t →
    (c.entry.opcode = 0x01 → exec (.writeWaitResume adm) s = .next (s.putGate c)) ∧
    (c.entry.opcode = 0x08 → exec (.writeWaitResume adm) s = .next (s.openGate c)) ∧
    (c.entry.opcode = 0x03 → exec (.writeWaitResume adm) s = .next (s.deleteGate c)) ∧
    (c.entry.opcode = 0x05 → exec (.writeWaitResume adm) s = .next (s.discardGate c))) ∧
  (∀ (asm : Nat) (s : State) (a : Assembly), (s.kv.assemblies.find? fun x => x.id == asm) = some a → s.past a.lastPart (30 * oneSec) = true →
    s.asmOpen a = true → exec (.assemblyExpiry asm) s = .next (s.discardAsm asm))

/-- GET of a key whose stored value the module can serve at once, with no expected write identifier and an offset within the value, completes with ST_OK:
result0 holds the value's length and the bytes returned, result1 the write identifier, the payload the value's bytes from the offset on as far as the
response buffer goes, taken under a read reference where the value lies in a Landing record; a GET of a key that is not stored completes with
ST_NOT_FOUND (03 R92). GET and EXISTS of a key whose value stands on flash and not in the caches leave the mailbox and read its pages: those of the
header and key and of the bytes asked for, EXISTS only the header's page (01 R491; 03 R92, R93). EXISTS completes with ST_OK, the value's length and
its write identifier for a stored key whose header is at hand, and with ST_NOT_FOUND for a key that is not stored (03 R93). -/
def Obligations.GetAndExistsAnswer : Prop :=
  ((∀ (cp : Fin 8) (s : State) (c : Cmd) (x : IdxEntry) (len adm : Nat) (ep : BitVec 16), s.frontOf cp.val 0x02 = some c → s.precheck c = none →
     (s.keyChecks c [(c.entry.ks, c.key)] false).1 = false →
     let u := (s.keyChecks c [(c.entry.ks, c.key)] false).2
     let t := (u.find c.entry.ks c.key).2
     (u.find c.entry.ks c.key).1 = some x → t.infoAt x.loc = some (len, adm, ep) → x.loc.isLost = false → c.entry.arg 48 6 = 0 →
     c.entry.arg 40 4 ≤ len → t.servedAtOnce x.loc false = true →
     let data := slice (t.valueAt x.loc) (c.entry.arg 40 4) (min c.respRoom (len - c.entry.arg 40 4))
     let g := t.gotAt x.loc (c.entry.arg 40 4) data.length { status := stOk, len := len, r1 := writeId adm ep, data := data }
     let ids := g.rec_.toList.filter fun id => !c.refs.contains id
     exec (.get cp) s = .next (((((t.hitValue x.loc).dropSeen c.entry.ks c.adm c.key).takeRefs ids).copyOut { c with gets := [g] }
       [(0, g, c.entry.arg 40 4)]).complete { c with gets := [g], refs := c.refs ++ ids } stOk (len + 2 ^ 32 * data.length) (writeId adm ep) data)) ∧
   (∀ (cp : Fin 8) (s : State) (c : Cmd), s.frontOf cp.val 0x02 = some c → s.precheck c = none →
     (s.keyChecks c [(c.entry.ks, c.key)] false).1 = false →
     let u := (s.keyChecks c [(c.entry.ks, c.key)] false).2
     (u.find c.entry.ks c.key).1 = none →
     exec (.get cp) s = .next (((((u.find c.entry.ks c.key).2).dropSeen c.entry.ks c.adm c.key).copyOut { c with gets := [{ status := stNotFound }] }
       []).complete { c with gets := [{ status := stNotFound }] } stNotFound 0 0 []))) ∧
  ((∀ (cp : Fin 8) (s : State) (c : Cmd) (x : IdxEntry) (len adm : Nat) (ep : BitVec 16), s.frontOf cp.val 0x02 = some c → s.precheck c = none →
     (s.keyChecks c [(c.entry.ks, c.key)] false).1 = false →
     let u := (s.keyChecks c [(c.entry.ks, c.key)] false).2
     let t := (u.find c.entry.ks c.key).2
     (u.find c.entry.ks c.key).1 = some x → t.infoAt x.loc = some (len, adm, ep) → x.loc.isLost = false → c.entry.arg 48 6 = 0 →
     c.entry.arg 40 4 ≤ len → t.servedAtOnce x.loc false = false →
     let data := slice (t.valueAt x.loc) (c.entry.arg 40 4) (min c.respRoom (len - c.entry.arg 40 4))
     let g := t.gotAt x.loc (c.entry.arg 40 4) data.length { status := stOk, len := len, r1 := writeId adm ep, data := data }
     exec (.get cp) s = .next (((((t.leave c.adm fun _ => { c with gets := [g], st := .reading }).startRead c.adm 0 c.entry.ks c.key x.loc (c.entry.arg 40 4)
       data.length false).dropSeen c.entry.ks c.adm c.key)).pumpReads c.adm)) ∧
   (∀ (cp : Fin 8) (s : State) (c : Cmd) (x : IdxEntry) (len adm : Nat) (ep : BitVec 16), s.frontOf cp.val 0x04 = some c → s.precheck c = none →
     (s.keyChecks c [(c.entry.ks, c.key)] false).1 = false →
     let u := (s.keyChecks c [(c.entry.ks, c.key)] false).2
     let t := (u.find c.entry.ks c.key).2
     (u.find c.entry.ks c.key).1 = some x → t.infoAt x.loc = some (len, adm, ep) → x.loc.isLost = false → t.servedAtOnce x.loc true = false →
     exec (.existsKey cp) s = .next (((((t.leave c.adm fun _ => { c with gets := [{ status := stOk, len := len, r1 := writeId adm ep }], st := .reading }).startRead
       c.adm 0 c.entry.ks c.key x.loc 0 0 true).dropSeen c.entry.ks c.adm c.key)).pumpReads c.adm))) ∧
  ((∀ (cp : Fin 8) (s : State) (c : Cmd) (x : IdxEntry) (len adm : Nat) (ep : BitVec 16), s.frontOf cp.val 0x04 = some c → s.precheck c = none →
     (s.keyChecks c [(c.entry.ks, c.key)] false).1 = false →
     let u := (s.keyChecks c [(c.entry.ks, c.key)] false).2
     let t := (u.find c.entry.ks c.key).2
     (u.find c.entry.ks c.key).1 = some x → t.infoAt x.loc = some (len, adm, ep) → x.loc.isLost = false → t.servedAtOnce x.loc true = true →
     let c' := { c with gets := [{ status := stOk, len := len, r1 := writeId adm ep }] }
     exec (.existsKey cp) s = .next ((((t.hitValue x.loc).dropSeen c.entry.ks c.adm c.key).copyOut c' []).complete c' stOk len (writeId adm ep) [])) ∧
   (∀ (cp : Fin 8) (s : State) (c : Cmd), s.frontOf cp.val 0x04 = some c → s.precheck c = none →
     (s.keyChecks c [(c.entry.ks, c.key)] false).1 = false →
     let u := (s.keyChecks c [(c.entry.ks, c.key)] false).2
     (u.find c.entry.ks c.key).1 = none →
     let c' := { c with gets := [{ status := stNotFound }] }
     exec (.existsKey cp) s = .next (((((u.find c.entry.ks c.key).2).dropSeen c.entry.ks c.adm c.key).copyOut c' []).complete c' stNotFound 0 0 [])))

/-- MGET past its checks looks its elements up in table order and starts the reads of those that stand on flash. Where none has to be read it completes
with ST_OK: result0 counts the elements returned with ST_OK and those with ST_BUFFER_SHORT, result1 is one past the highest byte written, the payload
the offset list with the values behind it. A key outside the payload is ST_INVALID, a response buffer without room for the offset list ST_BUFFER_SHORT
(03 R97, R98; 01 R491). -/
def Obligations.MgetReturnsItsValues : Prop :=
  ∀ (cp : Fin 8) (s : State) (c : Cmd), s.frontOf cp.val 0x07 = some c → s.precheck c = none → c.payload.isSome = true →
    (s.keyChecks c (s.mgetKeys c) false).1 = false →
    let u := (s.keyChecks c (s.mgetKeys c) false).2
    (c.elemsFit = false → exec (.mget cp) s = .next (u.fail c stInvalid)) ∧
    (c.elemsFit = true → c.respRoom < 16 * c.entry.arg 40 2 → exec (.mget cp) s = .next (u.fail c stBufferShort)) ∧
    (c.elemsFit = true → 16 * c.entry.arg 40 2 ≤ c.respRoom →
      let found := (u.mgetFind c).2
      let v := (u.mgetFind c).1.mgetStart c found
      ((v.flash.reads.any fun r => r.serves c.adm) = true → exec (.mget cp) s = .next (((v.takeRefs (found.filterMap fun g => g.1.rec_)).setCmd c.adm fun x =>
        { x with refs := found.filterMap fun g => g.1.rec_ }).pumpReads c.adm)) ∧
      ((v.flash.reads.any fun r => r.serves c.adm) = false →
        let gs := found.map fun x => x.1
        let p := placeValues gs (alignTo 64 (16 * gs.length)) c.respRoom false
        let out := (p.1.zip gs).filterMap fun x => if x.1.2.2 = stOk then some (x.1.1, x.2, 0) else none
        let ids := (gs.filterMap fun g => g.rec_).filter fun id => !c.refs.contains id
        let top := ((p.2.1.filter fun x => !x.2.isEmpty).getLast?.map fun x => x.1 + x.2.length).getD (16 * gs.length)
        exec (.mget cp) s = .next (((v.takeRefs ids).copyOut { c with gets := gs } out).complete { c with gets := gs, refs := c.refs ++ ids } stOk
          ((p.1.filter fun x => x.2.2 == stOk).length + 65536 * (p.1.filter fun x => x.2.2 == stBufferShort).length) top
          (layOut (p.1.flatMap fun x => le 4 x.1 ++ le 4 x.2.1 ++ le 2 x.2.2.toNat ++ le 6 0) p.2.1))))

/-- LIST of an ordered key space whose index nodes are at hand completes with ST_OK: result0 holds the number of keys returned, and bit 16 where they are
the last of its range; the payload is one entry a key, result1 its length. A LIST of an unordered key space completes with ST_INVALID, one with a
response buffer under 256 bytes with ST_BUFFER_SHORT (02 R49, R50; 03 R95, R96). -/
def Obligations.ListReturnsItsPage : Prop :=
  ∀ (cp : Fin 8) (s : State) (c : Cmd) (k : KeySpace), s.frontOf cp.val 0x06 = some c → s.precheck c = none → c.payload.isSome = true →
    s.spaceOf c = some k →
    (k.ordered = false → exec (.list cp) s = .next (s.fail c stInvalid)) ∧
    (k.ordered = true → c.entry.respLen < 256 → exec (.list cp) s = .next (s.fail c stBufferShort)) ∧
    (k.ordered = true → 256 ≤ c.entry.respLen →
      let page := takeFit (c.entry.arg 40 2) c.respRoom (s.listShown c k)
      (s.nodesDue k c.key page ≠ [] → exec (.list cp) s = .next (s.readNodes c (s.nodesDue k c.key page))) ∧
      (s.nodesDue k c.key page = [] → exec (.list cp) s = .next (((s.useNodes k c.key page).freeSkip k.tree.length).complete c stOk
        (page.length + 65536 * b2n (decide (page.length = (s.listShown c k).length))) (page.flatMap listEntry).length (page.flatMap listEntry))))

/-- FLUSH completes at once with result0 0 when no write it covers is unfinished, and otherwise leaves the mailbox and waits for the writes it covers (02
R69; 03 R101); FLUSH_DONE completes it once they are all done. -/
def Obligations.FlushWaitsForItsWrites : Prop :=
  (∀ (cp : Fin 8) (s : State) (c : Cmd), s.frontOf cp.val 0x09 = some c → s.precheck c = none → s.cmds = [c] → s.land.recs = [] → s.mir.sendq = [] →
    exec (.flush cp) s = .next (s.ok c 0 0)) ∧
  (∀ (cp : Fin 8) (s : State) (c : Cmd) (r : LRec), s.frontOf cp.val 0x09 = some c → s.precheck c = none → r ∈ s.land.recs → r.wt = false →
    r.superseded = false → r.src ≠ .mirror → r.adm < c.adm → (c.entry.ks = 0xFF ∨ r.ks = c.entry.ks) → r.st = .visible →
    ∃ f : FlushWait, f.adm = c.adm ∧ r.adm ∈ f.covered ∧
      exec (.flush cp) s = .next (((s.leave c.adm fun x => { x with st := .flushing }).setKv fun k => { k with flushes := k.flushes ++ [f] }).pumpDrain)) ∧
  (∀ (adm : Nat) (s : State) (c : Cmd) (f : FlushWait), s.running = true → s.cmd? adm = some c → (s.kv.flushes.find? fun x => x.adm == adm) = some f →
    f.covered = [] → f.acks = [] →
    exec (.flushDone adm) s = .next ((s.setKv fun k => { k with flushes := k.flushes.filter fun x => x.adm != adm }).ok c 0 0))

/-- ABORT of a command of its own source that has not reached its commit point cancels it and completes with ST_OK; of one that has, with ST_ALREADY_DONE;
with its own tag or another ABORT's, with ST_INVALID (03 R102, R103). -/
def Obligations.AbortDecidesOnItsTarget : Prop :=
  ∀ (adm : Nat) (s : State) (c : Cmd), s.running = true → s.pwr.ps = 0 → s.cmd? adm = some c → c.entry.opcode = 0x0A → c.st = .posted →
    s.precheck c = none →
    let tag := BitVec.ofNat 16 (c.entry.arg 40 2)
    let mine := s.cmds.filter fun y => y.src == c.src && y.entry.tag == tag && decide (y.adm < c.adm)
    (tag = c.entry.tag → exec (.abort adm) s = .next (s.fail c stInvalid)) ∧
    (∀ x : Cmd, tag ≠ c.entry.tag → s.unwritten c.src = [] → mine = [x] →
      (x.entry.opcode = 0x0A → exec (.abort adm) s = .next (s.fail c stInvalid)) ∧
      (x.entry.opcode ≠ 0x0A → x.cancellable = true → exec (.abort adm) s = .next ((s.cancel x).ok c 0 0)) ∧
      (x.entry.opcode ≠ 0x0A → x.cancellable = false → exec (.abort adm) s = .next (s.fail c stAlreadyDone))) ∧
    (tag ≠ c.entry.tag → s.unwritten c.src = [] → mine = [] → exec (.abort adm) s = .next (s.fail c stAlreadyDone))

/-- KS_CREATE past its checks makes the key space and completes; KS_DELETE marks it from its admission position on and leaves the mailbox; it takes effect
once every earlier command has completed: what the key space held is forgotten, and it completes with the bytes and keys it had; KS_SET_LIMIT puts the
new limits in force and returns the old ones, a durable one once the table is written (02 R44, R45, R67; 03 R107-R109). -/
def Obligations.KeySpaceCommandsPastTheirChecks : Prop :=
  (∀ (s : State) (c : Cmd), s.supFront 0x10 = some c → s.precheck c = none → c.entry.arg 56 4 ≤ s.prism.keyLimit →
    (s.kv.spaces.any fun k => k.ks == c.entry.ks) = false → policyOf (bitsOf (c.entry.arg 40 1) 2 1) = .off →
    roRefuses (s.roAt c.adm) 0x10 = false →
    exec .ksCreate s = .next ((s.newSpace c.entry.ks c.adm (bitOf (c.entry.arg 40 1) 0) ⟨c.entry.arg 48 8, c.entry.arg 56 4⟩ .off
      (bitOf (c.entry.arg 40 1) 3) false).writeKeys.ok c 0 0)) ∧
  (∀ (s : State) (c : Cmd), s.supFront 0x11 = some c → s.precheck c = none → c.entry.ks ≠ 0 → roRefuses (s.roAt c.adm) 0x11 = false →
    exec .ksDelete s = .next ((s.setSpaces (inSpace c.entry.ks c.adm) fun k => { k with deletedAt := some c.adm }).leave c.adm fun x =>
      { x with st := .deleting })) ∧
  (∀ (adm : Nat) (s : State) (c : Cmd) (k : KeySpace), s.running = true → s.cmd? adm = some c → c.st = .deleting →
    (s.kv.spaces.find? fun k => k.ks == c.entry.ks && k.deletedAt == some adm) = some k → s.earlierOut adm = false →
    k.policyNow = .off →
    exec (.ksDeleteTakesEffect adm) s = .next (
      (((s.setKv fun v => { v with spaces := v.spaces.filter fun x => !(x.ks == k.ks && x.deletedAt == some adm) }).forgetSpace k.ks).writeKeys.reviewCapacity).ok
        c k.bytes k.keys)) ∧
  (∀ (s : State) (c : Cmd) (k : KeySpace), s.supFront 0x12 = some c → s.precheck c = none →
    (bitOf (c.entry.arg 40 1) 0 || bitOf (c.entry.arg 40 1) 1) = true → c.entry.ks ≠ 0xFF → s.spaceOf c = some k →
    exec .ksSetLimit s = .next ((s.setSpaces (inSpace c.entry.ks c.adm) fun x => { x with limits := (c.adm,
      ⟨if bitOf (c.entry.arg 40 1) 0 then c.entry.arg 48 8 else (k.limitsAt c.adm).capacity,
       if bitOf (c.entry.arg 40 1) 1 then c.entry.arg 56 4 else (k.limitsAt c.adm).keys⟩) :: x.limits }).limitSet c (k.limitsAt c.adm).capacity
        (k.limitsAt c.adm).keys)) ∧
  (∀ (s : State) (c : Cmd) (a b : Nat), let t := s.setKv fun v => { v with tableAt := v.tableAt.or (some s.now) }
    (t.isDurable c = false → s.limitSet c a b = t.ok c a b) ∧
    (t.isDurable c = true → s.limitSet c a b = (t.leave c.adm fun x => { x with st := .tableWait, committed := true, res0 := a, res1 := b }).setKv fun v =>
      { v with tableWaits := v.tableWaits ++ [c.adm] }))

/-- KS_SET_LIMIT with key space 0xFF sets the committed capacity, which starts at the user capacity; a value above the maximum completes with ST_INVALID
(02 R77). -/
def Obligations.CommittedCapacity : Prop :=
  (∀ (s : State) (c : Cmd), s.supFront 0x12 = some c → s.precheck c = none → bitOf (c.entry.arg 40 1) 0 = true → bitOf (c.entry.arg 40 1) 1 = false →
    c.entry.ks = 0xFF → c.entry.arg 48 8 ≤ s.kv.maxCommitted →
    exec .ksSetLimit s = .next (((s.setKv fun k => { k with committed := (c.adm, c.entry.arg 48 8) :: k.committed }).reviewCapacity).limitSet
      c (s.committedAt c.adm) s.prism.keyLimit)) ∧
  (∀ (s : State) (c : Cmd), s.supFront 0x12 = some c → s.precheck c = none → bitOf (c.entry.arg 40 1) 0 = true → c.entry.ks = 0xFF →
    s.kv.maxCommitted < c.entry.arg 48 8 → exec .ksSetLimit s = .next (s.fail c stInvalid)) ∧
  State.reset.committedNow = State.reset.part.userCap

/-- FORMAT and SANITIZE leave the mailbox and destroy what is stored once no earlier command is outstanding; the tokens of its work are asked for, and
once they are granted SANITIZE_DONE formats the module, returns them and completes the command (03 R110, R111; 06 R209; 12 R403, R405). -/
def Obligations.SanitizeRuns : Prop :=
  (∀ (s : State) (c : Cmd), s.supFront 0x18 = some c → s.precheck c = none →
    exec .format s = .next ((s.leave c.adm fun x => { x with st := .sanitizing }).trySanitize)) ∧
  (∀ (s : State) (c : Cmd), s.supFront 0x19 = some c → s.precheck c = none →
    exec .sanitize s = .next ((s.leave c.adm fun x => { x with st := .sanitizing }).trySanitize)) ∧
  (∀ s : State, s.running = true → s.sec.san.state = 1 → s.sec.san.stage = 0 → (s.sec.san.adm.any fun a => s.earlierOut a) = false →
    s.upd.state = 0 → s.upd.rollback = false → s.mir.pairing = none →
    s.trySanitize = (((s.setSec fun x => { x with san := { x.san with stage := 1, runFrom := some s.now } }).destroyAll).logEv evSanitize uCrypto s.sec.san.mode 1).askMedium) ∧
  (∀ s : State, s.running = true → s.sec.san.state = 1 → s.sec.san.stage = 1 → s.grantFor .medium = none →
    exec .sanitizeDone s = .next s.askMedium) ∧
  (∀ (s : State) (c : Cmd) (a : Nat), s.running = true → s.sec.san.state = 1 → s.sec.san.stage = 1 → (s.grantFor .medium).isSome = true →
    s.sec.san.adm = some a →
    let u := ((s.formatted).returnFor .medium).logEv evSanitize uCrypto s.sec.san.mode 0
    let t := u.setSec fun y => { y with san := { y.san with
      state := 2, adm := none, elapsedNs := s.sec.san.elapsedNs + (s.sec.san.runFrom.map fun t => u.now - t).getD 0, runFrom := none } }
    t.cmd? a = some c → exec .sanitizeDone s = .next (t.ok c 0 0))

/-- The commands that return a structure, past their checks and with room for it: SUMMARY, IDENT, MIRROR_STATE, GET_FEATURE, LOG_READ of either log (the
number it returns where it returns no record is the model's choice, log 58) and CERT_READ (03 R106, R113, R115, R118; 09 R323; 12 R390; 13 R418).
SET_FEATURE with a value in range puts it in force from its admission position on and returns the old values; LOG_CLEAR empties a log and says so (02
R74; 03 R115, R116; 13 R419). -/
def Obligations.StructuresFeaturesAndLogs : Prop :=
  ((∀ (s : State) (c : Cmd), s.supFront 0x0B = some c → s.precheck c = none → 4096 ≤ c.respRoom →
     exec .summary s = .next ((s.complete c stOk 0 0 (s.summaryBlock c)).freeNext)) ∧
   (∀ (s : State) (c : Cmd), s.supFront 0x20 = some c → s.precheck c = none → 1024 ≤ c.respRoom →
     exec .ident s = .next (s.complete c stOk 0 0 s.identStruct)) ∧
   (∀ (s : State) (c : Cmd), s.supFront 0x41 = some c → s.precheck c = none → 2112 ≤ c.respRoom →
     exec .mirrorState s = .next (s.complete c stOk 2112 0 s.mirrorStruct)) ∧
   (∀ (s : State) (c : Cmd), s.supFront 0x22 = some c → s.precheck c = none → s.featureStatus (c.entry.arg 40 2) c.entry.ks c.adm = none →
     c.entry.arg 40 2 ≠ 0x000C →
     exec .getFeature s = .next (s.ok c (s.featureValue (c.entry.arg 40 2) c.entry.ks c.adm).1 (s.featureValue (c.entry.arg 40 2) c.entry.ks c.adm).2)) ∧
   (∀ (s : State) (c : Cmd), s.supFront 0x28 = some c → s.precheck c = none → c.entry.arg 40 1 = 2 → 256 ≤ c.respRoom → c.entry.arg 48 8 ≤ 255 →
     exec .logRead s = .next (
       let got := (s.kv.deferred.drop (c.entry.arg 48 8)).take (min (c.entry.arg 56 4) (c.respRoom / 256))
       s.complete c stOk got.length (c.entry.arg 48 8 + got.length) (got.flatMap Deferred.bytes))) ∧
   (∀ (s : State) (c : Cmd), s.supFront 0x28 = some c → s.precheck c = none → c.entry.arg 40 1 = 1 → 32 ≤ c.respRoom → c.entry.arg 48 8 ≤ s.evr.next →
     exec .logRead s = .next (
       let first := max (c.entry.arg 48 8) s.evr.oldest
       let got := (s.evr.held.filter fun e => decide (first ≤ e.seq)).take (min (c.entry.arg 56 4) (c.respRoom / 32))
       s.complete c stOk got.length ((got.getLast?.map fun e => e.seq + 1).getD first) (got.flatMap EvRec.bytes))) ∧
   (∀ (s : State) (c : Cmd), s.supFront 0x39 = some c → s.precheck c = none → c.entry.arg 40 1 ≤ 2 →
     c.entry.arg 44 4 ≤ ((Config.cert (c.entry.arg 40 1)).take 2048).length →
     ((Config.cert (c.entry.arg 40 1)).take 2048).length - c.entry.arg 44 4 ≤ c.respRoom →
     exec .certRead s = .next (s.complete c stOk ((Config.cert (c.entry.arg 40 1)).take 2048).length 0
       (((Config.cert (c.entry.arg 40 1)).take 2048).drop (c.entry.arg 44 4))))) ∧
  ((∀ (s : State) (c : Cmd), s.supFront 0x21 = some c → s.precheck c = none → s.featureStatus (c.entry.arg 40 2) c.entry.ks c.adm = none →
     c.entry.arg 40 2 ≠ 0x0020 → s.featureOk (c.entry.arg 40 2) (c.entry.arg 48 8) (c.entry.arg 56 8) = true →
     exec .setFeature s = .next ((s.putFeature (c.entry.arg 40 2) c.entry.ks c.adm (c.entry.arg 48 8) (c.entry.arg 56 8)).ok c
       (s.featureValue (c.entry.arg 40 2) c.entry.ks c.adm).1 (s.featureValue (c.entry.arg 40 2) c.entry.ks c.adm).2)) ∧
   (∀ (s : State) (c : Cmd), s.supFront 0x29 = some c → s.precheck c = none → c.entry.arg 40 1 = 2 →
     exec .logClear s = .next (((s.setKv fun k => { k with deferred := [], defOverflow := 0 }).logEv evLogCleared uEvr 2 s.kv.deferred.length).ok c 0 0)) ∧
   (∀ (s : State) (c : Cmd), s.supFront 0x29 = some c → s.precheck c = none → c.entry.arg 40 1 = 1 →
     exec .logClear s = .next ((s.clearLog1).ok c 0 0)) ∧
   (∀ s : State, exec .evrClear s = .next s.clearLog1))

/-- ATTEST past its checks leaves its mailbox and joins those that wait for the signer; the end of a signing completes its ATTEST with the 864 bytes of
the quote, its latched body and the RSASSA-PSS signature over its digest under the identity key, and returns the signer's grant; an ATTEST that has
waited 100 ms while another one is signed completes with ST_BUSY (03 R120; 12 R392, R393). -/
def Obligations.AttestRuns : Prop :=
  (∀ (s : State) (c : Cmd), s.supFront 0x38 = some c → s.precheck c = none → 864 ≤ c.respRoom →
    exec .attest s = .next (((s.leave c.adm fun x => { x with st := .signWait s.now }).setSec fun x => { x with attestQ := x.attestQ ++ [c.adm] }).pumpSign)) ∧
  (∀ (s : State) (c : Cmd) (g : Nat), let u := s.pumpSign
    u.sec.signGrant = some g → (u.cmds.find? fun x => x.st == .signing) = some c →
    exec .attestSigningDone s = .next (
      ((((u.freeNext).setSec fun x => { x with signGrant := none, quote := [] }).returnGrant g).complete c stOk 864 0
        (fit 480 u.sec.quote ++ pssSign Config.identityKey (sha256 u.sec.quote) (be 32 u.freeVal))).pumpSign)) ∧
  (∀ (adm t g : Nat) (s : State) (c : Cmd), s.sec.signGrant = some g → s.cmd? adm = some c → c.st = .signWait t → s.past t (100 * ms) = true →
    exec (.attestBusyTimeout adm) s = .next (((s.releaseHeld c).fail c stBusy).pumpSign))

/-- The MIRROR_CFG actions past their checks (09 R304, R310-R312, R318): SET_LAG stores the bounds; UNPAIR without a mirrored key space completes and ends
the pairing; SET_POLICY sends the policy to the peer and waits; RESYNC of the whole module starts a full copy of every mirrored key space that is not
hidden; PAIR of an unpaired module stores the pairing, opens the link and completes. -/
def Obligations.MirrorCfgActions : Prop :=
  (∀ (s : State) (c : Cmd), s.supFront 0x40 = some c → s.precheck c = none → c.entry.arg 40 1 = 4 → cfgClean (c.payload.getD []) [(64, 12)] = true →
    (s.spaceOf c).isSome = true → 1048576 ≤ fieldAt (c.payload.getD []) 64 8 → fieldAt (c.payload.getD []) 64 8 ≤ 1073741824 →
    100 ≤ fieldAt (c.payload.getD []) 72 4 → fieldAt (c.payload.getD []) 72 4 ≤ 60000 →
    exec .setLag s = .next ((s.setSpaces (inSpace c.entry.ks c.adm) fun k =>
      { k with lagBytes := fieldAt (c.payload.getD []) 64 8, lagMs := fieldAt (c.payload.getD []) 72 4 }).ok c 0 0)) ∧
  (∀ (s : State) (c : Cmd), s.supFront 0x40 = some c → s.precheck c = none → c.entry.arg 40 1 = 2 → c.entry.ks = 0 →
    cfgClean (c.payload.getD []) [] = true → s.mir.pairing.isSome = true → s.mir.unpairAt = none → s.mirrored = [] →
    exec .unpair s = .next (((s.setMir fun m => { m with unpairAt := some c.adm, resyncq := [] }).ok c 0 0).endUnpair)) ∧
  (∀ (s : State) (c : Cmd) (k : KeySpace), s.supFront 0x40 = some c → s.precheck c = none → c.entry.arg 40 1 = 3 →
    cfgClean (c.payload.getD []) [(56, 1)] = true → fieldAt (c.payload.getD []) 56 1 ≤ 2 → s.spaceOf c = some k → s.mir.state = 2 → s.mir.unpairAt = none →
    k.policyNow ≠ .off →
    exec .setPolicy s = .next ((s.sendCfg k.ks 3 k.ordered (policyOf (fieldAt (c.payload.getD []) 56 1))).1.leave c.adm fun x =>
      { x with st := .mirrorWait, lseq := (s.sendCfg k.ks 3 k.ordered (policyOf (fieldAt (c.payload.getD []) 56 1))).2 })) ∧
  (∀ (s : State) (c : Cmd), s.supFront 0x40 = some c → s.precheck c = none → c.entry.arg 40 1 = 5 → cfgClean (c.payload.getD []) [(56, 2)] = true →
    fieldAt (c.payload.getD []) 56 1 = 0 → fieldAt (c.payload.getD []) 57 1 = 1 → c.entry.ks = 0 → s.mir.state = 2 → s.mir.unpairAt = none →
    exec .resync s = .next ((((s.mirrored.filter fun k => !k.hidden).foldl (fun s k => s.startFull k.ks) s).ok c 0 0).mirrorTurn)) ∧
  (∀ (s : State) (c : Cmd), s.supFront 0x40 = some c → s.precheck c = none → c.entry.arg 40 1 = 1 → c.entry.ks = 0 →
    cfgClean (c.payload.getD []) [(2, 20), (24, 32)] = true → fieldAt (c.payload.getD []) 2 1 ≤ 1 → fieldAt (c.payload.getD []) 3 1 = 0xFF →
    1024 ≤ fieldAt (c.payload.getD []) 20 2 → fieldAt (c.payload.getD []) 20 2 ≠ 4791 → fieldAt (c.payload.getD []) 20 2 ≠ s.stored.skiffPort →
    s.mir.state ≠ 2 → s.portUsable (Fin.ofNat 2 (fieldAt (c.payload.getD []) 2 1)) = true → s.mir.pairing = none →
    let pr : Pairing := { port := Fin.ofNat 2 (fieldAt (c.payload.getD []) 2 1), alt := none, addr := slice (c.payload.getD []) 4 16,
                          udp := fieldAt (c.payload.getD []) 20 2, secret := slice (c.payload.getD []) 24 32,
                          rank := if s.ident.mac0.toNat < (Config.peerMac (slice (c.payload.getD []) 4 16)).toNat then 0 else 1 }
    exec .pair s = .next (((s.setMir fun m => { m with pairing := some pr, unpairAt := none }).openLink).ok c 0 0))

/-- A HELLO to one of the port's addresses with an accepted credential opens a session; a HELLO that repeats the one of an open session is answered with
that session's HELLO_ACK (04 R133). -/
def Obligations.HelloOpensASession : Prop :=
  (∀ (rx : Rx) (dg : Bytes) (s : State) (h : SkiffIn) (x : Session), parseSkiff dg = some h → h.typ = 1 → s.accepting = true →
    s.ownAddr rx.port rx.localAddr = true → s.portUsable rx.port = true → rx.localUdp = s.stored.skiffPort →
    (s.tr.sessions.find? fun x => (x.st == .opened && x.rx.hostAddr == rx.hostAddr && x.rx.hostUdp == rx.hostUdp) &&
      x.nonce == BitVec.ofNat 32 (fieldAt (dg.drop 32) 12 4)) = some x →
    exec (.hello rx dg) s = .next (s.sendSkiff x.rx (s.helloAck x))) ∧
  (∀ (rx : Rx) (dg : Bytes) (s : State) (h : SkiffIn) (role : Nat), parseSkiff dg = some h → h.typ = 1 → s.accepting = true →
    s.ownAddr rx.port rx.localAddr = true → s.portUsable rx.port = true → rx.localUdp = s.stored.skiffPort → s.tr.sessions = [] → helloFieldsOk (dg.drop 32) = true →
    let k := s.checkCred rx rx.hostUdp ((dg.drop 32).take 16) (slice (dg.drop 32) 16 48) (fieldAt (dg.drop 32) 4 1)
    k.2 = .granted role → exec (.hello rx dg) s = .next (k.1.openSession rx (dg.drop 32) role))

/-- What a datagram does on its session: ACK takes host_ack, KEEPALIVE is answered with an ACK, CLOSE stops admission and discards the session's open
assemblies, the next CMD in order is admitted, and held CMDs behind it (04 R135, R136, R143, R145). -/
def Obligations.SessionDatagrams : Prop :=
  (∀ (rx : Rx) (dg : Bytes) (s : State) (x : Session) (h : SkiffIn), Safety.OnSession s rx dg 5 x h →
    exec (.ack rx dg) s = .next (s.setSession x.uid fun _ => x.takeAck h.ack s.now s.stored.skiffIdle)) ∧
  (∀ (rx : Rx) (dg : Bytes) (s : State) (x : Session) (h : SkiffIn), Safety.OnSession s rx dg 8 x h →
    exec (.keepalive rx dg) s = .next ((s.setSession x.uid fun _ => x.takeAck h.ack s.now s.stored.skiffIdle).sendAck (x.takeAck h.ack s.now s.stored.skiffIdle) h.seq.toNat 0)) ∧
  (∀ (rx : Rx) (dg : Bytes) (s : State) (x : Session) (h : SkiffIn), Safety.OnSession s rx dg 6 x h → (x.takeAck h.ack s.now s.stored.skiffIdle).st = .opened →
    exec (.close rx dg) s = .next (((s.setSession x.uid fun _ => x.takeAck h.ack s.now s.stored.skiffIdle).setSession x.uid fun y =>
      { y with st := .closing, since := s.now }).discardOf (.skiff x.uid))) ∧
  (∀ (rx : Rx) (dg : Bytes) (s : State) (x y : Session) (h : SkiffIn), Safety.OnSession s rx dg 3 x h → y = x.takeAck h.ack s.now s.stored.skiffIdle →
    y.st = .opened → fwd 32 y.hostAck.toNat h.seq.toNat = fwd 32 y.hostAck.toNat y.nextExpected.toNat →
    fwd 32 y.hostAck.toNat h.seq.toNat < 256 → s.life.svc = none → h.flags / 8 % 2 = 0 →
    ((s.setSession x.uid fun _ => y).cmdNext y h.seq dg).2 = true →
    exec (.cmd rx dg) s = .next (State.drainHeld 256 ((((s.setSession x.uid fun _ => y).cmdNext y h.seq dg).1).setTr fun t =>
      { t with hold := t.hold.filter fun z => !(z.uid == x.uid && z.seq == h.seq) }) x.uid))

/-- How a session ends: CLOSE_ACK once nothing is outstanding, freed 2 s later, expired after its idle time of silence (04 R144-R146). Held CMDs leave the
hold pool after 50 ms and are counted; a new fragment opens a reassembly, which leaves after 50 ms; an echo request is answered (04 R127, R137). -/
def Obligations.SessionsEndAndHeldDatagramsLeave : Prop :=
  ((∀ (sid : Fin 512) (s : State) (x : Session),
     (s.tr.sessions.find? fun x => x.sid == sid.val && x.st == .closing && x.cmds.outstanding == 0) = some x →
     exec (.closeAck sid) s = .next ((s.sendSkiff x.rx (x.hdr 7 0 0 0 0 0)).setSession x.uid fun y => { y with st := .closeAcked s.now })) ∧
   (∀ (sid : Fin 512) (s : State) (x : Session) (t : Nat), (s.tr.sessions.find? fun x => x.sid == sid.val) = some x → x.st = .closeAcked t →
     s.past t (2 * oneSec) = true → exec (.sessionFree sid) s = .next (s.freeSession x.uid)) ∧
   (∀ (sid : Fin 512) (s : State) (x : Session), (s.tr.sessions.find? fun x => x.sid == sid.val && (x.st == .opened || x.st == .closing)) = some x →
     s.past x.lastRx (x.idleS * oneSec) = true → exec (.sessionExpiry sid) s = .next (s.expireSession x.uid))) ∧
  ((∀ (sid : Fin 512) (seq : BitVec 32) (s : State),
     exec (.heldCmdExpiry sid seq) s = .next (
       let due := fun (h : Held) => h.seq == seq && s.past h.since (50 * ms) && (s.session? h.uid).any fun x => x.sid == sid.val
       s.setTr fun t => { t with hold := t.hold.filter (fun h => !due h),
                                 counters := { t.counters with holdDiscard := (t.counters.holdDiscard + (s.tr.hold.filter due).length) % 2 ^ 32 } })) ∧
   (∀ (f : Fragment) (s : State), s.accepting = true → s.portUsable f.port = true → s.skiffUdp f.dstUdp = true → s.ownAddr f.port f.dstAddr = true →
     (s.tr.reasm.find? fun r => r.port == f.port && r.srcAddr == f.srcAddr && r.ident == f.ident) = none → s.tr.reasm.length < 1024 →
     f.offset + f.data.length ≤ 8712 →
     exec (.ipFragment f) s = .next (s.setTr fun t =>
       { t with reasm := t.reasm ++ [{ port := f.port, srcAddr := f.srcAddr, ident := f.ident, frags := [f], since := s.now }] })) ∧
   (∀ (port : Fin 2) (a : Bytes) (n : Nat) (s : State),
     exec (.reassemblyTimeout port a n) s = .next (
       let due := fun (r : Reasm) => r.port == port && r.srcAddr == a && r.ident == n && s.past r.since (50 * ms)
       (s.setTr fun t => { t with reasm := t.reasm.filter fun r => !due r }).countReasm (s.tr.reasm.filter due).length)) ∧
   (∀ (rx : Rx) (k : EchoKind) (n : Nat) (s : State), s.portUsable rx.port = true → s.life.mainOn = true → (s.port rx.port).link = true →
     s.answers rx.port k rx.localAddr = true →
     exec (.arpNdEchoRequest rx k n) s = .next (s.wake.sendIp rx.port rx.hostAddr (s.portCfg rx.port).txPcp 0 n (.echo k rx.hostAddr n))))

/-- A connection request with an accepted credential opens a queue pair; a doorbell moves its tail and fetching goes on; fetched entries are admitted in
slot order, those that come during a service reset after it (the model's choice, log 74); a fetched payload goes to its command; a completion is
written behind the last one and a notification sent with it or on its timer (04 R149, R152-R155, R157, R159). How a queue pair ends: the host's
disconnect, a failed connection, the timeout behind the seventh retry, a NAK of a payload transfer, which completes its command, or one whose
completion is still to be written, with ST_HOST_ACCESS and without effect (03 R84); a timeout before retransmits; the number of a queue pair leaves
its quarantine after 2 s (04 R147, R162, R163). -/
def Obligations.QueuePairsMoveOnAndEnd : Prop :=
  ((∀ (rx : Rx) (priv : Bytes) (s : State) (role : Nat), s.part.ta = true → s.accepting = true → s.portUsable rx.port = true →
     s.ownAddr rx.port rx.localAddr = true → reqFieldsOk priv = true →
     let k := s.checkCred rx 0 (priv.take 40) (slice priv 40 48) (fieldAt priv 1 1)
     k.2 = .granted role → exec (.connectionReq rx priv) s = .next (k.1.openQp rx priv role)) ∧
   (∀ (qp : Fin 1024) (data : Bytes) (s : State) (q : Qp), s.qpOf qp.val = some q → q.st = .opened → s.qpUp q = true → s.life.svc = none →
     data.length = 8 → fieldAt data 0 2 < q.sqEntries →
     q.cqHead < q.cqEntries → (q.cqHead + q.cqEntries - q.cqHead) % q.cqEntries ≤ (q.cqTail + q.cqEntries - q.cqHead) % q.cqEntries →
     exec (.doorbell qp 0 data) s = .next ((s.setQp q.uid fun q' => { q'.moveHead q.cqHead with sqTail := fieldAt data 0 2, retries := 0 }).fetchMore
       128 q.uid)) ∧
   (∀ (qp : Fin 1024) (entries : List Bytes) (s : State) (q : Qp) (rest : List Nat), s.qpOf qp.val = some q → q.reads = entries.length :: rest →
     q.st = .opened → s.life.svc = none → s.accepting = true → s.qpUp q = true →
     exec (.entryFetchResponse qp entries) s = .next (
       (((s.setQp q.uid fun q' => { q' with reads := rest, retries := 0, sentAt := s.now }).admitFetched q.uid entries).fetchMore 128 q.uid).pumpPay
         (.ferry q.uid))) ∧
   (∀ (uid : Nat) (entries : List Bytes) (s : State) (q : Qp), s.qpById uid = some q →
     s.admitFetched uid entries = (s.setQp uid fun q' => { q' with fetchPos := (q.fetchPos + entries.length) % q.sqEntries }).admitEntries
       uid ((q.fetchPos + entries.length) % q.sqEntries) (((List.range entries.length).map fun i => (q.fetchPos + i) % q.sqEntries).zip entries)) ∧
   (∀ (qp : Fin 1024) (entries : List Bytes) (s : State) (q : Qp) (rest : List Nat), s.qpOf qp.val = some q → q.reads = entries.length :: rest →
     q.st = .opened → s.life.svc.isSome = true → s.accepting = true → s.qpUp q = true →
     exec (.entryFetchResponse qp entries) s = .next ((s.setQp q.uid fun q' => { q' with reads := rest, retries := 0, sentAt := s.now }).setQp
       q.uid fun q' => { q' with fetched := q'.fetched ++ [entries] })) ∧
   (∀ (adm : Nat) (data : Bytes) (s : State) (q : Qp) (c : Cmd), (s.openQps.find? fun q => q.payReads.head? == some adm) = some q → s.qpUp q = true →
     s.cmd? adm = some c → data.length = c.entry.reqLen →
     exec (.payloadFetchResponse adm data) s = .next (
       let t := s.setQp q.uid fun q => { q with payReads := q.payReads.drop 1, retries := 0, sentAt := s.now }
       ((t.takePayload c data).fetchMore 128 q.uid).pumpPay (.ferry q.uid))) ∧
   (∀ (qp : Fin 1024) (s : State) (q : Qp) (k : Completion) (rest : List Completion), s.qpOf qp.val = some q → q.cplWait = k :: rest → q.cqRoom = true →
     s.qpUp q = true → q.rnr = false →
     exec (.completionWrite qp) s = .next (
       let tail := (q.cqTail + 1) % q.cqEntries
       let note := q.notifies s.now
       let t := (s.setQp q.uid fun q =>
         { q with cplWait := rest, posted := q.posted ++ [k.adm], cqTail := tail, phase := if tail = 0 then !q.phase else q.phase, defFlag := false,
                  unNotified := if note || q.notifyMode ≠ 2 then 0 else q.unNotified + 1,
                  oldestUn := if q.unNotified = 0 then s.now else q.oldestUn, cmds := q.cmds.finish, sentAt := s.now }).sendRoce q.rx q.qp
           (.writeCompletion (q.cqAddr + 32 * q.cqTail) ({ k with def_ := q.defFlag }.entry q.phase) (if note then some (q.imm tail) else none)) 48
       (((if note then t.spendReceive q.uid else t).fetchMore 128 q.uid).settleQp q.uid))) ∧
   (∀ (qp : Fin 1024) (s : State) (q : Qp), s.qpOf qp.val = some q → q.notifyMode = 2 → 0 < q.unNotified → s.past q.oldestUn (q.notifyUs * 1000) = true →
     q.cplWait = [] → q.st = .opened → s.qpUp q = true → q.rnr = false →
     exec (.notifyTimer qp) s = .next
       (((s.setQp q.uid fun q' => { q' with unNotified := 0, sentAt := s.now }).sendRoce q.rx q.qp (.immediate (q.imm q.cqTail)) 0).spendReceive q.uid))) ∧
  ((∀ (qp : Fin 1024) (s : State) (q : Qp), s.qpOf qp.val = some q →
     exec (.hostDisconnect qp) s = .next (s.endConnection q.uid false) ∧ exec (.connectionFailure qp) s = .next (s.endConnection q.uid false)) ∧
   (∀ (qp : Fin 1024) (s : State) (q : Qp), s.qpOf qp.val = some q → s.past q.sentAt (67 * ms) = true →
     (7 ≤ q.retries → exec (.localAckTimeout qp) s = .next (s.endConnection q.uid false)) ∧
     (q.retries < 7 → exec (.localAckTimeout qp) s = .next ((s.setQp q.uid fun q' => { q' with retries := q'.retries + 1, sentAt := s.now }).sendRoce
       q.rx q.qp .retransmit 0))) ∧
   (∀ (adm : Nat) (s : State) (q : Qp) (c : Cmd), s.qpOfTransfer adm = some q → s.cmd? adm = some c → (c.cancellable || c.payload.isNone) = true →
     exec (.payloadTransferNak adm) s = .next ((((((s.setQp q.uid fun q => { q with st := .ended false }).failMoves c).releaseHeld c).fail
       c stHostAccess).endConnection q.uid false).discardOf (.ferry q.uid))) ∧
   (∀ (adm : Nat) (s : State) (q : Qp), s.qpOfTransfer adm = some q → s.cmd? adm = none →
     exec (.payloadTransferNak adm) s = .next (((((s.setQp q.uid fun q => { q with st := .ended false }).setUpd fun u => u.undoOffer adm).setQp
       q.uid fun q => { q with cplWait := q.cplWait.map fun k => if k.adm = adm then
         { k with status := stHostAccess, result0 := 0, result1 := 0, early := false, part := none } else k }).endConnection q.uid false).discardOf
           (.ferry q.uid))) ∧
   (∀ (qp : Fin 1024) (s : State), s.qpOf qp.val = none →
     exec (.queuePairFree qp) s = .next (s.setTr fun t => { t with qps := t.qps.filter fun q =>
       !(q.qp == qp.val && (match q.st with | .freed a => s.past a (2 * oneSec) | _ => false)) })))

/-- UPD_OFFER past the common checks: a malformed header ends with ST_INVALID, a response buffer below 128 bytes with ST_BUFFER_SHORT; the running image
answers that everything is held; an image for another variant, out of its version range or rejected before ends with ST_UPD_INCOMPATIBLE; an offer of
the open session's image joins it; an offer of another image by the session's own source, its first, replaces a session in receiving or ready, any
other gets ST_UPD_BUSY; with no session open the offer opens one. From a source of the session it starts the abandonment timer again; what it found is
kept until its response has been taken (03 R84; 11 R366, R368). -/
def Obligations.UpdOfferRuns : Prop :=
  ∀ (s : State) (c : Cmd), s.supFront 0x30 = some c → s.precheck c = none →
    let h := c.payload.getD []
    let n := blockCount h
    let u := s.upd
    let t := if u.has (s.srcOf c) then s.setUpd fun u => { u with idleS := s.now } else s
    let known := fun (x : Slot) => x.state == 5 && x.hash == sha256 h
    let own := u.sources.head?.any fun x => x.same (s.srcOf c)
    let fits := bitOf (hdr h 4 1) s.part.hdrBit &&
      (s.life.recovery || (decide (verKey (hdr h 16 8) ≤ verKey s.fwActive) && decide (verKey s.fwActive ≤ verKey (hdr h 24 8)))) &&
      !(known u.slotA || known u.slotB)
    (headerOk h = false → exec .updOffer s = .next (t.fail c stInvalid)) ∧
    (headerOk h = true → c.respRoom < 128 → exec .updOffer s = .next (t.fail c stBufferShort)) ∧
    (headerOk h = true → 128 ≤ c.respRoom → s.runningSlot.hash = sha256 h →
      exec .updOffer s = .next (t.complete c stOk (n + 1) 0 (bitmap (List.range (n + 1))))) ∧
    (headerOk h = true → 128 ≤ c.respRoom → s.runningSlot.hash ≠ sha256 h →
      (fits = false → exec .updOffer s = .next (t.fail c stUpdIncompatible)) ∧
      (fits = true → u.state ≠ 0 → sha256 u.header = sha256 h → exec .updOffer s = .next
        (((t.setUpd fun u => { u with sources := if u.has (s.srcOf c) then u.sources else u.sources ++ [s.srcOf c], idleS := t.now }).noteOffer t c
          (s.srcOf c)).complete c stOk u.held.length 0 (bitmap u.held))) ∧
      (fits = true → (u.state = 1 ∨ u.state = 3) → sha256 u.header ≠ sha256 h → own = true →
        exec .updOffer s = .next ((((t.abandonUpdate).openUpdate (s.srcOf c) h).noteOffer t c (s.srcOf c)).complete c stOk 0 0 (bitmap []))) ∧
      (fits = true → u.state ≠ 0 → sha256 u.header ≠ sha256 h → (¬(u.state = 1 ∨ u.state = 3) ∨ own = false) →
        exec .updOffer s = .next (t.complete c stUpdBusy (hdr u.header 8 8) ((u.sources.head?.map UpdSrc.code).getD 0) [])) ∧
      (fits = true → u.state = 0 → exec .updOffer s = .next (((t.openUpdate (s.srcOf c) h).noteOffer t c (s.srcOf c)).complete c stOk 0 0 (bitmap []))))

/-- UPD_BLOCK past the common checks: out of receiving, or from a source that is none of the session's, it ends with ST_UPD_STATE; a chunk beyond its
block with ST_INVALID; a chunk of a held block with ST_OK; a chunk that does not continue its partial block with ST_SEQ; a chunk that does not fill
the block is kept and the command ends with ST_OK; the chunk that fills it completes the block (03 R119; 11 R367). -/
def Obligations.UpdBlockRuns : Prop :=
  ∀ (s : State) (c : Cmd), s.supFront 0x31 = some c → s.precheck c = none →
    let src := s.srcOf c
    let i := c.entry.arg 40 4
    let data := c.payload.getD []
    let t := if s.upd.has src then s.setUpd fun u => { u with idleS := s.now } else s
    let old := s.upd.partials.find? fun p => p.index == i
    let goesOn := match old with
      | some p => p.owner.same src && c.entry.arg 44 4 == p.data.length
      | none => c.entry.arg 44 4 == 0
    let all := ((old.map fun p => p.data).getD []) ++ data
    ((s.upd.state ≠ 1 ∨ s.upd.has src = false) → exec .updBlock s = .next (t.fail c stUpdState)) ∧
    (s.upd.state = 1 → s.upd.has src = true →
      ((blockCount s.upd.header < i ∨ blockLen s.upd.header i < c.entry.arg 44 4 + data.length) → exec .updBlock s = .next (t.fail c stInvalid)) ∧
      (i ≤ blockCount s.upd.header → c.entry.arg 44 4 + data.length ≤ blockLen s.upd.header i →
        (s.upd.held.contains i = true → exec .updBlock s = .next (t.ok c 1 0)) ∧
        (s.upd.held.contains i = false →
          (goesOn = false → exec .updBlock s = .next (t.fail c stSeq)) ∧
          (goesOn = true → all.length ≠ blockLen s.upd.header i → exec .updBlock s = .next ((t.setUpd fun u =>
            { u with partials := u.partials.filter (fun p => p.index != i) ++ [{ index := i, owner := src, data := all, at_ := s.now }] }).ok c 0 0)) ∧
          (goesOn = true → all.length = blockLen s.upd.header i → exec .updBlock s = .next (t.blockComplete c src i all)))))

/-- UPD_ACTIVATE past the common checks: in ready it begins activation, or ends with ST_UPD_INCOMPATIBLE where the image is not compatible with the
running state; in verifying it waits; with no session it ends with ST_UPD_BAD_SIG behind a bad signature and with ST_UPD_STATE otherwise, as in every
other state. UPD_CONFIRM confirms in confirming and ends with ST_UPD_STATE in every other state (11 R370, R375, R379). -/
def Obligations.UpdActivateAndConfirmRun : Prop :=
  (∀ (s : State) (c : Cmd), s.supFront 0x32 = some c → s.precheck c = none →
    let t := if s.upd.has (s.srcOf c) then s.setUpd fun u => { u with idleS := s.now } else s
    (s.upd.state = 3 → (s.life.recovery = true ∨ s.compatible = true) → exec .updActivate s = .next (t.beginActivation (some c.adm))) ∧
    (s.upd.state = 3 → s.life.recovery = false → s.compatible = false → exec .updActivate s = .next (t.fail c stUpdIncompatible)) ∧
    (s.upd.state = 2 → exec .updActivate s = .next ((t.leave c.adm fun c => { c with st := .activating }).setUpd fun u => { u with waitAct := u.waitAct ++ [c.adm] })) ∧
    (s.upd.state = 0 → exec .updActivate s = .next (t.fail c (if s.upd.badSigLast then stUpdBadSig else stUpdState))) ∧
    (s.upd.state ≠ 0 → s.upd.state ≠ 2 → s.upd.state ≠ 3 → exec .updActivate s = .next (t.fail c stUpdState))) ∧
  (∀ (s : State) (c : Cmd), s.supFront 0x33 = some c → s.precheck c = none →
    (s.upd.state = 5 → exec .updConfirm s = .next ((s.confirm 1).ok c 0 0)) ∧
    (s.upd.state ≠ 5 → exec .updConfirm s = .next (s.fail c stUpdState)))

/-- Confirmation makes the active slot the confirmed slot, sets the result to confirmed (1), returns the session to idle and writes EV_UPD_CONFIRM; the
slot of the previous image stays previous (11 R380). A session in receiving or ready that has been idle for 1 h of powered time is abandoned: the
target slot becomes empty, the session returns to idle, the result becomes abandoned (6), EV_UPD_END is written (11 R368). -/
def Obligations.UpdateSessionsEnd : Prop :=
  (∀ (s : State) (by_ : Nat), (s.confirm by_).upd.confirmed = s.upd.active % 2 ∧ (s.confirm by_).upd.result = 1 ∧ (s.confirm by_).upd.state = 0 ∧
     (∃ (t : State) (n : Nat), s.confirm by_ = t.logEv evUpdConfirm uUpdate by_ n) ∧
     (s.upd.confirmed ≠ s.upd.active → s.upd.confirmed < 2 → s.upd.active < 2 →
       ((s.confirm by_).upd.slot s.upd.confirmed).state = if (s.upd.slot s.upd.confirmed).state = 3 then 4 else (s.upd.slot s.upd.confirmed).state)) ∧
  ((∀ s : State, (s.upd.state = 1 ∨ s.upd.state = 3) → s.past s.upd.idleS (3600 * oneSec) = true → exec .updSessionAbandon s = .next s.abandonUpdate) ∧
   (∀ s : State, s.abandonUpdate.upd.slot s.abandonUpdate.upd.target = {} ∧ s.abandonUpdate.upd.state = 0 ∧ s.abandonUpdate.upd.result = 6 ∧
     ∃ t : State, s.abandonUpdate = t.logEv evUpdEnd uUpdate 6 0))

/-- An update session moves on by itself: verification ends when its tokens are held (the image becomes ready, or is bad where its signature does not
verify; blocks that fail their CRC-32C are wanted again), a partial block expires after 10 s, the forward retries after 2 s and takes its answers, its
commands leave in Skiff CMDs whose tag is the low half of the sequence number (the model's choice, log 24), an image activates itself once, an
activation step ends once the CPs it drains are drained, and step 2 reverts the activation where a required record does not convert (11 R367, R369,
R372, R373, R376, R378). The self-test confirms the image; 10 min in confirming without confirmation fall back with cause 2 (11 R379, R381). -/
def Obligations.UpdateSessionsMoveOnAndConfirm : Prop :=
  ((∀ (bad : List Nat) (s : State), s.upd.state = 2 → s.running = true → (s.grantFor .verifying).isSome = true →
     let t := s.returnFor .verifying
     ((t.upd.held.any fun i => bad.contains i) = true → exec (.updVerificationDone bad) s = .next (
       (t.setUpd fun u => { (u.setSlot u.target fun x => { x with blocks := x.blocks.filter (fun b => !bad.contains b.1) }) with
         state := 1, held := u.held.filter fun i => !bad.contains i }).decideWaiting)) ∧
     ((t.upd.held.any fun i => bad.contains i) = false → exec (.updVerificationDone bad) s = .next (
       if (t.upd.slot t.upd.target).verifies then
         ((t.setUpd fun u => { (u.setSlot u.target fun x => { x with state := 2 }) with state := 3 }).logEv evUpdVerified uUpdate
           (verParam (t.upd.slot t.upd.target).version) ((t.now - t.upd.verifyAt) / ms)).decideWaiting
       else
         ((((t.fwdAbandon.setUpd fun u => u.setSlot u.target fun x => { x with state := 6 }).endSession 4).setUpd fun u =>
           { u with badSigLast := true }).logEv evUpdBadSig uUpdate (verParam (t.upd.slot t.upd.target).version) 0).decideWaiting))) ∧
   (∀ s : State, exec .partialBlockTimeout s = .next (s.setUpd fun u =>
     { u with partials := u.partials.filter fun p => !s.past p.at_ (10 * oneSec) })) ∧
   (∀ s : State, s.upd.fwd.state = 6 → s.running = true → s.past s.upd.fwd.lastTry (2 * oneSec) = true →
     s.past s.upd.fwd.since (3600 * oneSec) = false → exec .cfForwardRetry s = .next s.fwdHello) ∧
   (∀ s : State, s.upd.fwd.state = 1 → s.running = true →
     ∀ (sid : Nat) (cookie : BitVec 32), exec (.cfForwardResponse (.helloAck sid cookie)) s = .next (
       ((s.setFwd fun f => { f with sid := sid, cookie := cookie }).fwdFlight none).fwdCmd 0x30 128 [] s.upd.fwd.header)) ∧
   (∀ (s : State) (op resp : Nat) (args payload : Bytes), s.fwdCmd op resp args payload = (s.setFwd fun f => { f with seq := f.seq + 1 }).fwdSend
     (skiffHdr 3 s.upd.fwd.sid 0 s.upd.fwd.seq.toNat s.upd.fwd.ack.toNat 0 0 0 s.upd.fwd.cookie.toNat 0 ++
       fwdEntry op (s.upd.fwd.seq.toNat % 65536) payload.length resp args ++ payload)) ∧
   (∀ (s : State) (i : Nat), s.upd.fwd.state = 2 → s.running = true → s.upd.fwd.sent.contains i = true → s.upd.fwd.held.contains i = false →
     exec (.cfForwardResponse (.blockOk i)) s = .next (
       (s.setFwd fun f => { f.answered (some i) with held := f.held ++ [i], status := stOk, since := s.now }).fwdPump)) ∧
   (∀ s : State, s.upd.state = 3 → s.running = true → s.upd.fwd.value0.getLsbD 4 = true → (s.upd.sources.head?.any fun x => x.kind == 3) = true →
     s.upd.fwd.state = 3 → s.upd.autoUsed = false → s.compatible = true →
     exec .selfActivation s = .next ((s.setUpd fun u =>
       { u with autoUsed := true, autoDone := u.autoDone ++ [(u.slot u.target).hash] }).beginActivation none)) ∧
   (∀ (e : StepEnd) (s : State), s.running = true → s.upd.state = 4 → s.life.recovery = false → s.upd.rollback = false → 1 ≤ s.upd.step → s.stepDrained = true →
     (s.upd.step = 2 → e.converts = false → exec (.activationStepDone e) s = .next (
       let f := s.fwdAbandon
       let t := (f.setLife fun l => { l with sups := modAt l.sups (1 - l.supActive.val) fun p => { p with image := f.upd.active } }).measureSlot 3 f.upd.active
       (((t.setUpd fun u => (u.setSlot u.target fun x => { x with state := 5 }).restoreCfg).endSession 5).logEv evUpdFallback uUpdate 5 4).endActivate
         stUpdIncompatible)) ∧
     (s.upd.step < 5 → (s.upd.step = 2 → e.converts = true) → exec (.activationStepDone e) s = .next (
       ((s.logEv evUpdStep uUpdate s.upd.step e.holdUs).stepEffect s.upd.step s.upd.target).setUpd fun u => { u with step := u.step + 1 })) ∧
     (s.upd.step = 5 → exec (.activationStepDone e) s = .next (
       ((s.logEv evUpdStep uUpdate 5 e.holdUs).stepEffect 5 s.upd.target).stepsEnd)))) ∧
  ((∀ s : State, s.upd.state = 5 → s.running = true → s.selfTest = true →
     exec .selfTestPass s = .next ((s.setUpd fun u => { u with testOk := true, cpDone := 0xFF }).confirm 0)) ∧
   (∀ s : State, s.upd.state = 5 → s.past s.upd.confirmAt (600 * oneSec) = true → exec .confirmTimeout s = .next (s.fallback 2)))

/-- The drain: a partial row is programmed on its timer, a programmed row is journalled, a durable map record moves its locator, or journals the copy as
dead where its record was superseded meanwhile, a write-through write becomes visible once its record is durable (05 R188-R191). -/
def Obligations.TheDrainMovesOn : Prop :=
  (∀ s : State, exec (.drainPartialRowTimer .small) s = .next ((s.drainStream 8 0).pumpSummaries) ∧
    exec (.drainPartialRowTimer .large) s = .next ((s.drainStream 8 1).pumpSummaries)) ∧
  (∀ (job : Nat) (s : State) (j : Job), (s.flash.jobs.find? fun j => j.id == job) = some j → j.chans = [] → j.journalled = false →
    (j.kind = .drain ∨ j.kind = .writeThrough) → s.mapTooEarly j = false → exec (.drainRowProgrammed job) s = .next (s.journalJob j)) ∧
  (∀ (job : Nat) (s : State) (j : Job), (s.flash.jobs.find? fun j => j.id == job) = some j → j.chans = [] → j.journalled = false →
    j.kind = .relocation → s.shutting = false → exec (.gcRowProgrammed job) s = .next (((s.journalJob j).finishCopy).pumpReloc)) ∧
  (∀ (jseq : Nat) (s : State) (j : Job) (i : JobItem) (r : LRec), (s.flash.jobs.find? fun j => j.items.any fun i => i.jseq == some jseq) = some j →
    (j.items.find? fun i => i.jseq == some jseq) = some i → s.jDurable jseq = true → i.old = none → i.land.bind s.rec? = some r → r.wt = false →
    (((s.jrn.at_ jseq).any JRec.isMapSet && s.overtaken r) = true → exec (.mapRecordDurable jseq) s = .next (s.journalDead j i r.ks)) ∧
    (((s.jrn.at_ jseq).any JRec.isMapSet && s.overtaken r) = false →
      exec (.mapRecordDurable jseq) s = .next (((s.itemDone j jseq).drained j.seg i r ((s.jrn.at_ jseq).any JRec.isMapSet)).pumpDrain))) ∧
  (∀ (adm n : Nat) (s : State) (r : LRec) (j : Job) (i : JobItem),
    (s.land.recs.find? fun r => r.wt && r.adm == adm && r.epoch == s.life.bootEpoch) = some r →
    (s.flash.jobs.find? fun j => j.items.any fun i => i.land == some r.id) = some j → (j.items.find? fun i => i.land == some r.id) = some i →
    i.jseq = some n → s.jDurable n = true →
    exec (.writeThroughDone adm) s = .next (
      let t := ((s.itemDone j n).makeVisible r.id (flashLoc j.seg i.rec_) true).freeRec r.id
      (if r.kind == .value then t.cacheValue j.seg i.rec_.off else t).pumpDrain)) ∧
  (∀ (ch : Fin 18) (pos : Fin 4) (ok : Bool) (s : State) (j : Job), s.jobOn ch.val pos.val = some j →
    exec (.programUnitDone ch pos ok) s = .next (((s.programEnded j ch.val ok).pumpReloc).pumpDrain))

/-- The journal: its page is programmed when it is due, its records become durable when the programs have ended, and what waited for them goes on; a
checkpoint slice begins after 8 sealed segments or 512 MiB and ends when its begin is durable and its nodes are written; a programmed segment is
sealed, full or short (05 R195; 07 R245, R252, R254, R257). The index: stash entries move back into buckets; the sweep of a discarded range journals
the removal of its keys and then its end, in an ordered key space at once, in an unordered one with the tokens of its reads (05 R177, R179, R194). -/
def Obligations.TheJournalAndTheIndexMoveOn : Prop :=
  ((∀ s : State, exec .journalPageTimer s = .next s.pumpJournal) ∧
   (∀ s : State, s.jrn.flying ≠ [] → (s.grantFor .journal).isSome = true →
     exec .journalPageProgrammed s = .next (
       let t := s.setJrn fun j => { j with log := j.log ++ j.flying, flying := [], pagesDurable := j.pagesDurable + 1 }
       ((((((t.metaProgram 65536).returnFor .journal).pumpJournal).runActs).beginCopy).pumpErases))) ∧
   (∀ s : State, s.jrn.writing = none → s.serving = true → (8 ≤ s.jrn.sealsSince ∨ 536870912 ≤ s.jrn.bytesSince) →
     exec .checkpointSlice s = .next ((s.beginSlice).pumpReloc)) ∧
   (∀ (s : State) (x : Slice), s.jrn.writing = some x → (s.grantFor .checkpoint).isSome = true → s.jDurable x.beginJseq = true → s.nodesWritten = true →
     exec .checkpointSlice s = .next (s.endSlice x)) ∧
   (∀ (seg : Nat) (s : State) (g : Segment), s.seg? seg = some g → g.st = .full → g.cap ≤ g.prog → g.tail = [] →
     (s.flash.jobs.any fun j => j.seg == seg && !j.chans.isEmpty) = false →
     exec (.segmentSeal seg) s = .next (
       ((s.setSeg seg fun g => { g with st := .sealed, sealedAt := s.now, rebuild := g.rebuild || s.onRetired g }).noteRebuild.journal
         (if g.short then .segSeal seg (g.rowOf g.next + g.lastUnits * g.unitRows - 1) (g.rowOf g.next) true
          else .segSeal seg (g.rows - 1) (g.rows - g.summaryRows g.recs.length) false) false).setJrn fun j => { j with sealsSince := j.sealsSince + 1 }))) ∧
  ((∀ s : State, s.serving = true →
     exec .stashReinsert s = .next (
       (s.prism.entries.filter fun e => !e.place.inBucket).foldl (fun s e => s.reinsert e) s)) ∧
   (∀ (range : Nat) (s : State) (r : Range), (s.kv.ranges.find? fun r => r.id == range) = some r → s.serving = true → s.rangeEnding range = false →
     s.sweepBehind r = false → (s.land.recs.any fun x => x.kind == .range && writeId x.adm x.epoch == range) = false →
     (s.orderedKs r.ks = true ∨ (s.grantFor (.sweep range)).isSome = true) →
     exec (.reclaimSweep range) s = .next (
       let t := (s.keysBefore r).foldl (fun s key => s.reclaimKey r.ks r.adm key false) s
       (t.journalThen (.rangeDone range r.ks) (.rangeDone range) false).returnFor (.sweep range))))

/-- The array: a page read ends on its die once the die may be suspended, is counted and marked and its tokens return; one of the spill table ends on the
copy that decodes; a page of a retired die is rebuilt from parity, and parity fails where the row misses another page; step 4 of the ladder first asks
the tokens of the row's other pages, then waits for dies whose suspensions are spent, then reads those pages and ends. A die that answers a reset is
reset, one that does not is reset again, after three tries retired; so is a channel's retraining (07 R248, R264-R266, R273, R274, R276). -/
def Obligations.TheArrayIsRetried : Prop :=
  (∀ (read : Nat) (o : ReadOutcome) (s : State) (r : ReadOp) (gr : Grant), (s.flash.reads.find? fun r => r.id == read) = some r →
    s.grantFor (.read read) = some gr →
    (r.seg = spillSeg → exec (.pageReadDone read o) s = .next ((s.returnGrant gr.id).pageEnded r .hard)) ∧
    (∀ g : Segment, r.seg ≠ spillSeg → s.seg? r.seg = some g →
      let byte := r.plan.getD r.done r.off
      let ch := (g.pageAt byte).1
      let pos := segPos r.seg
      let o' := s.outcomeAt g byte ch o
      let four := o' = .parity ∨ o' = .failed
      let read1 := if s.dieServes ch pos then (s.suspendDie ch pos).countRead r.seg ch (readsOf o') else s
      (s.dieServes ch pos = true → s.suspendSpent ch pos = false → ¬ four → exec (.pageReadDone read o) s = .next (
        ((read1.returnGrant gr.id).readMarks r.seg ch pos o').pageEnded r o').mirrorTurn) ∧
      ((s.dieServes ch pos = true → s.suspendSpent ch pos = false) → four → s.rebuildPage r g byte ch = none → exec (.pageReadDone read o) s = .next (
        (((read1.rowRead r g byte ch).returnGrant gr.id).readMarks r.seg ch pos o').pageEnded r o').mirrorTurn) ∧
      (∀ t : State, (s.dieServes ch pos = true → s.suspendSpent ch pos = false) → four → s.rebuildPage r g byte ch = some t →
        exec (.pageReadDone read o) s = .next t))) ∧
  (∀ (s : State) (r : ReadOp) (g : Segment) (byte ch : Nat),
    let others := (g.rowChans byte).filter fun c => c != ch && s.dieServes c (segPos g.seg)
    let held := (s.pwr.grants.filter fun x => x.why == .rebuild r.id).length
    (held = 0 → others ≠ [] → (s.pwr.queue.any fun q => q.why == .rebuild r.id) = false →
      s.rebuildPage r g byte ch = some (others.foldl (fun s _ => s.askTokens r.why.powerClass 4 (.rebuild r.id)) s)) ∧
    (others.length ≤ held → (others.any fun c => s.suspendSpent c (segPos g.seg)) = true → s.rebuildPage r g byte ch = some s) ∧
    (others.length ≤ held → (others.any fun c => s.suspendSpent c (segPos g.seg)) = false → s.rebuildPage r g byte ch = none)) ∧
  (∀ (s : State) (g : Segment) (byte ch : Nat) (o : ReadOutcome),
    let missing := (g.rowChans byte).any fun c => c != ch && !s.dieServes c (segPos g.seg)
    (s.dieServes ch (segPos g.seg) = true → o ≠ .parity → s.outcomeAt g byte ch o = o) ∧
    (o ≠ .failed → (o = .parity ∨ s.dieServes ch (segPos g.seg) = false) → s.outcomeAt g byte ch o = if missing then .failed else .parity) ∧
    (s.outcomeAt g byte ch .failed = .failed)) ∧
  (∀ (ch : Fin 18) (pos : Fin 4) (s : State) (d : Die), (s.flash.dies.find? fun d => d.ch == ch.val && d.pos == pos.val && !d.retired) = some d →
    let tries := fun k : Nat => s.setFlash fun f => { f with dies := f.dies.map fun x => if x.ch = d.ch && x.pos = d.pos then { x with resetTries := k } else x }
    exec (.dieResetRetry ch pos true) s = .next ((tries 0).logEv evDieReset uFlash (d.ch + 256 * d.pos) (d.resetTries + 1)) ∧
    (d.resetTries + 1 < 3 → exec (.dieResetRetry ch pos false) s = .next (tries (d.resetTries + 1))) ∧
    (3 ≤ d.resetTries + 1 → exec (.dieResetRetry ch pos false) s = .next ((tries 0).retireDie d.ch d.pos))) ∧
  (∀ (ch : Fin 18) (s : State), (s.flash.channels.getD ch.val {}).retired = false →
    let n := (s.flash.channels.getD ch.val {}).retrains + 1
    let tries := fun k : Nat => (s.logEv evChannelRetrain uFlash ch.val n).setFlash fun f =>
      { f with channels := modAt f.channels ch.val fun x => { x with retrains := k } }
    exec (.channelRetrain ch true) s = .next (tries 0) ∧
    (n < 3 → exec (.channelRetrain ch false) s = .next (tries n)) ∧
    (3 ≤ n → exec (.channelRetrain ch false) s = .next ((tries 0).retireChannel ch.val)))

/-- Garbage collection, scrub and repacking: a source is chosen and its begin journalled, in place of a copy that heat holds; the counts of a copy taken
up again go on; behind a durable COPY_DONE the caches drop the source and its erase is journalled; the erases end and the segment is free; scrub
credit accrues; a due block's sample asks its tokens and is read when they are held: its results replace the read references, and a metadata block
whose sample fails counts as worn (the model's choice, log 83); repacking starts 10 min after the module cooled (06 R228; 07 R259-R263, R266-R268,
R271, R275). -/
def Obligations.TheArrayIsKept : Prop :=
  (∀ (s : State) (g : Segment) (why : Nat), s.serving = true → s.flash.copy = none → s.sec.san.state ≠ 1 → s.gcSource = some (g, why) →
    exec .gcSourceStart s = .next (s.startCopy g why)) ∧
  (∀ (s : State) (g : Segment) (why : Nat), s.serving = true → s.flash.copy.isSome = true → s.copyIdle = true → s.sec.san.state ≠ 1 →
    s.gcSource = some (g, why) → exec .gcSourceStart s = .next ((s.setAside).startCopy g why)) ∧
  (∀ (s : State) (g : Segment) (why : Nat),
    let begun := fun (t : State) => (t.setFlash fun f => { f with copy := some { seg := g.seg } }).journal (.segCopyBegin g.seg why) true
    (∀ w : Nat, g.st = .copying w → s.startCopy g why = begun (s.setSeg g.seg fun x => { x with st := .copying why })) ∧
    (g.st = .sealed → s.startCopy g why = begun (s.setSeg g.seg fun x => { x with st := .copying why, moved := 0, deadFound := 0 }))) ∧
  (∀ (seg : Nat) (s : State) (g : Segment), s.seg? seg = some g → g.st = .copied → s.shutting = false →
    s.jAllDurable (JRec.isCopyDone seg) = true →
    exec (.copyDone seg) s = .next (
      let t := (s.setPrism fun p => { p with valueCache := p.valueCache.filter (fun x => x.1 != seg),
                                             headerCache := p.headerCache.filter (fun x => x.1 != seg),
                                             nodeCache := p.nodeCache.filter fun x => x.1 != seg }).setMir fun m =>
        { m with staged := m.staged.filter fun x => x.1 != seg }
      (t.setSeg seg fun g => { g with st := .erasing, eraseAsked := false }).journal (.eraseIntent seg) true)) ∧
  (∀ (seg : Nat) (failed : List (Fin 18)) (s : State) (g : Segment), s.seg? seg = some g → g.st = .erasing → g.eraseAsked = true → s.shutting = false →
    let chs := (List.range 18).filter fun c => g.usesCh c && s.dieServes c (segPos seg)
    (chs.all fun c => (s.grantFor (.erase seg c)).isSome) = true →
    exec (.eraseDone seg failed) s = .next (
      let t := ((List.range 18).filter fun c => (s.grantFor (.erase seg c)).isSome).foldl (fun s c => s.returnFor (.erase seg c)) s
      let t := t.setFlash fun f => { f with dies := f.dies.map fun d => if d.pos = segPos seg && chs.contains d.ch then { d with suspends := 0 } else d }
      let t := (dedup (g.retireCh.map (fun c => (c, 1)) ++ (failed.map fun c => (c.val, 2)))).foldl (fun s b =>
        s.retireBlock b.1 (segPos seg) (segSlot seg) b.2) t
      let t := t.freeSeg seg
      ((t.journal (.eraseDone seg (chs.map fun c => t.blockErases c seg)) false).endRebuild).reviewWear)) ∧
  (∀ s : State, exec .scrubCreditTick s = .next (s.setFlash fun f =>
    { f with dies := f.dies.map fun d => { d with credit := d.credit + scrubRate d.temp16 } })) ∧
  (∀ (ch : Fin 18) (pos : Fin 4) (slot : Nat) (o : ReadOutcome) (hi : Bool) (s : State), s.serving = true →
    120960000 ≤ s.scrubCredit ch.val pos.val slot → s.holdsData ch.val pos.val slot = true → s.dieServes ch.val pos.val = true →
    s.suspendSpent ch.val pos.val = false → (s.grantFor (.scrub ch.val pos.val slot)).isSome = true →
    let now := ((s.flash.dies.find? fun d => d.ch == ch.val && d.pos == pos.val).map fun d => d.credit).getD 0
    let t := ((s.suspendDie ch.val pos.val).returnFor (.scrub ch.val pos.val slot)).setFlash fun f =>
      { f with scrubMarks := ((ch.val, pos.val, slot), now) :: f.scrubMarks.filter fun m => m.1 != (ch.val, pos.val, slot) }
    (∀ g : Segment, slot < 7040 → t.seg? (7040 * pos.val + slot) = some g →
      exec (.scrubBlock ch pos slot o hi) s = .next (t.scrubSeg g ch.val pos.val o hi)) ∧
    (7040 ≤ slot → o ≠ .failed → exec (.scrubBlock ch pos slot o hi) s = .next (t.recalibrate ch.val pos.val slot)) ∧
    (7040 ≤ slot → o = .failed → exec (.scrubBlock ch pos slot o hi) s = .next (t.retireMeta ch.val pos.val slot 3))) ∧
  (∀ (ch : Fin 18) (pos : Fin 4) (slot : Nat) (o : ReadOutcome) (hi : Bool) (s : State), s.serving = true →
    120960000 ≤ s.scrubCredit ch.val pos.val slot → s.holdsData ch.val pos.val slot = true → s.dieServes ch.val pos.val = true →
    s.suspendSpent ch.val pos.val = false → s.grantFor (.scrub ch.val pos.val slot) = none →
    (s.pwr.queue.any fun q => q.why == .scrub ch.val pos.val slot) = false →
    exec (.scrubBlock ch pos slot o hi) s = .next (s.askTokens 3 8 (.scrub ch.val pos.val slot))) ∧
  (∀ s : State, s.serving = true → (s.flash.coolSince.any fun t => s.past t (600 * oneSec)) = true → (s.flash.segs.any fun g => g.pslc) = true →
    exec .repackStart s = .next (s.setFlash fun f => { f with repacking := true }))

/-- Power: the idle timer enters a power state, a wake leaves it, a transition ends at a budget-change instant with reason 4; at PS3 and PS4 the cache
buckets are lost, PS4 renegotiates the ports, PS0 lets the charge and the ports go on (06 R230, R231, R233, R234). VIN_HIGH writes EV_VIN_HIGH with
VIN in 10 mV units in p0 and takes no other action (06 R204). -/
def Obligations.PowerStatesChangeAndHighInputIsLogged : Prop :=
  ((∀ (ps : Fin 5) (s : State), s.life.phase = 9 → s.life.svc = none → s.isIdle = true → ps ≠ 0 → s.stored.psIdle.getD (ps.val - 1) 0 ≠ 0 →
     ps.val ≤ s.stored.psCap → s.pwr.ps < ps → s.pwr.psBusy = false → s.pwr.psStays = false →
     (s.pwr.idleSince.any fun c => s.past c (s.stored.psIdle.getD (ps.val - 1) 0 * ms)) = true → exec (.psIdleExpiry ps) s = .next (s.enterPs ps)) ∧
   (∀ (w : WakeSource) (s : State), w ≠ .psNowZero → exec (.wakeEvent w) s = .next s.wake) ∧
   (∀ s : State, exec (.wakeEvent .psNowZero) s = .next ((s.setPwr fun p => { p with psRequest := none }).wake)) ∧
   (∀ s : State, s.pwr.psBusy = true → s.shutting = false → s.life.mainOn = true →
     exec .powerStateTransitionDone s = .next (
       let new := s.pwr.psTarget
       let t := s.setPwr fun p => { p with ps := new, psBusy := false }
       let t := if 3 ≤ new.val then t.setPrism fun p => { p with cacheBuckets := [] } else t
       let t := ((if new = 4 then t.ps4Entry else t).budgetChange 4).pwrInt 5
       let t := if new = 0 then t.enterPs0 else t
       if s.pwr.ps = 4 ∧ new = 0 then t.ps4Exit else t))) ∧
  (∀ (v : Nat) (s : State), s.life.mainOn = true → exec (.vinHigh v) s = .next (s.logEv evVinHigh uPower v 0))

/-- Tokens are asked for and returned; PWR_CTRL.snapshot latches both ledgers (06 R209, R212, R236). The class and the input limit: the pads, the
input-limit controller and the two registers (06 R205-R208). -/
def Obligations.TokensClassAndLimit : Prop :=
  ((∀ (cls : Fin 4) (n : Nat) (s : State), s.life.mainOn = true → exec (.tokenRequest cls n) s = .next ((s.wake).askTokens cls.val n .unit_)) ∧
   (∀ (g : Nat) (s : State), (s.pwr.grants.any fun x => x.id == g && x.why == .unit_) = true → exec (.tokenReturn g) s = .next (s.returnGrant g)) ∧
   (∀ s : State, s.life.mainOn = true → exec .pwrCtrlSnapshot s = .next s.powerSnapshot)) ∧
  ((∀ (pads : Fin 8) (s : State), BitVec.ofNat 3 pads.val ≠ s.pwr.pads → s.life.mainOn = true →
     (4 ≤ pads.val → exec (.pwrclsChange pads) s = .next (
       ((s.setPwr fun p => { p with pads := BitVec.ofNat 3 pads.val }).logEv evPwrclsInvalid uPower pads.val 0).reviewClass)) ∧
     (pads.val < 4 → exec (.pwrclsChange pads) s = .next ((s.setPwr fun p => { p with pads := BitVec.ofNat 3 pads.val }).reviewClass))) ∧
   (∀ (v i w : Nat) (s : State), s.life.mainOn = true →
     exec (.ilimitEvaluation ⟨v, i, w⟩) s = .next
       ((s.setPwr fun p => { p with vin10mV := v, inMa := i, pinMw := v * i / 100, pinPeakMw := w }).evalIlimit) ∧
     exec (.ilimitClamp v) s = .next (((s.setPwr fun p => { p with clamp := true }).pwrInt 4).logEv evIlimitClamp uPower s.stored.ilimit v)) ∧
   (∀ (v : Word) (s : State), s.life.mainOn = true →
     (v.toNat / 16 % 8 < 4 → exec (.pwrClassWrite v) s = .next ((s.setStored fun x => { x with powerClass := v.toNat / 16 % 8 }).reviewClass)) ∧
     (4 ≤ v.toNat / 16 % 8 → exec (.pwrClassWrite v) s = .next s)) ∧
   (∀ (v : Word) (s : State), s.life.mainOn = true →
     (500 ≤ v.toNat % 65536 → v.toNat % 65536 ≤ 6000 →
       exec (.pwrIlimitWrite v) s = .next ((s.setStored fun x => { x with ilimit := v.toNat % 65536 }).evalIlimit)) ∧
     (v.toNat % 65536 < 500 → exec (.pwrIlimitWrite v) s = .next s) ∧ (6000 < v.toNat % 65536 → exec (.pwrIlimitWrite v) s = .next s)))

/-- The hold-up bank: HOLD rises, above 20.0 V the metering asks its tokens, the usable energy is published at each 0.5 V, at 35.0 V the charge ends,
above 37 V the bank is faulty; HOLD falls, by more than 2 V within 1 s or under the charger to faulty (that 0.3 V under a running charge shows it is
the model's choice, log 54), by 0.5 V to a new publication, by more than 2 V in all to charging, by 0.3 V to a top-up; a charge without its rise of 1
V in 200 ms finds no bank (one from 34.0 V up is not tested: the model's choice, log 78), one beyond its time a faulty one; a bank out of service is
charged again after 60 s (06 R185, R217, R218, R220). The capacitance is measured again 24 h after the last published measurement and on request,
waits for the charger, and is tried again after 60 s where the charge at 34.0 V would not do; at 35.0 V and in the metering window a measurement takes
the capacitance in steps of 10 uF, up to 10,000, is logged and published: below 500 uF the bank is absent, below 2,200 below its rating, and from
there on healthy at 35.0 V (a bank that was healthy stays so and logs no change) or charging in the window (06 R218-R220). -/
def Obligations.TheBankIsWatchedAndMeasured : Prop :=
  ((∀ (v : Nat) (s : State), s.life.mainOn = true → s.shutting = false →
     let t := (s.setHold fun h => { h with v10mV := v }).startMetering
     let step := if t.hold.capUf ≠ 0 ∧ t.hold.vPub10mV < min 3500 (v / 50 * 50) then t.publish (min 3500 (v / 50 * 50)) 2 else t
     (3700 < v → exec (.holdVoltageStep v) s = .next (t.bankFails .faulty)) ∧
     (v ≤ 3700 → t.hold.charging = false → exec (.holdVoltageStep v) s = .next t) ∧
     (v < 3500 → t.hold.charging = true → exec (.holdVoltageStep v) s = .next step) ∧
     (3500 ≤ v → v ≤ 3700 → t.hold.charging = true → step.hold.charging = true → exec (.holdVoltageStep v) s = .next step.charged)) ∧
   (∀ (v fell : Nat) (s : State),
     let t := s.setHold fun h => { h with v10mV := v }
     let falls := 200 < fell ∨ (s.hold.charging = true ∧ v + 30 ≤ s.hold.chargeFrom10mV)
     let a := if s.hold.capUf ≠ 0 ∧ v + 50 ≤ s.hold.vPub10mV then t.publish (v / 50 * 50) 2 else t
     let b := if a.hold.st = .healthy ∧ v + 200 < 3500 then a.bankState .charging else a
     ((s.life.mainOn = false ∨ s.shutting = true ∨ s.hold.measuring = true) → exec (.holdVoltageFall v fell) s = .next t) ∧
     (s.life.mainOn = true → s.shutting = false → s.hold.measuring = false →
       (falls → exec (.holdVoltageFall v fell) s = .next (t.bankFails .faulty)) ∧
       (¬ falls → (v + 30 ≤ 3500 ∧ b.hold.bad = false ∧ b.hold.charging = false) → exec (.holdVoltageFall v fell) s = .next b.startCharge) ∧
       (¬ falls → ¬ (v + 30 ≤ 3500 ∧ b.hold.bad = false ∧ b.hold.charging = false) → exec (.holdVoltageFall v fell) s = .next b))) ∧
   (∀ (rise : Nat) (s : State), s.hold.charging = true → s.past s.hold.chargeSince (200 * ms) = true → s.shutting = false →
     (rise < 100 → s.hold.chargeFrom10mV < 3400 → exec (.holdAbsentTimeout rise) s = .next (s.bankFails .absent)) ∧
     ((100 ≤ rise ∨ 3400 ≤ s.hold.chargeFrom10mV) → exec (.holdAbsentTimeout rise) s = .next s)) ∧
   (∀ s : State, s.hold.charging = true → s.hold.capUf ≠ 0 → s.past s.hold.chargeSince (chargeBound s.hold.capUf s.hold.chargeFrom10mV) = true →
     s.shutting = false → exec .holdupChargeTimeout s = .next (s.bankFails .faulty)) ∧
   (∀ s : State, s.hold.bad = true → s.hold.charging = false → s.past s.hold.retryAt 0 = true → s.running = true →
     exec .bankRetry s = .next ((s.setHold fun h => { h with retrying := true, retryAt := s.now + 60 * oneSec }).startCharge))) ∧
  ((∀ s : State, s.hold.capUf ≠ 0 → s.past s.hold.capAt (86400 * oneSec) = true → s.hold.measuring = false → s.hold.measureAsked = false →
     s.running = true → exec .capacitanceMeasurementDue s = .next s.wantMeasure) ∧
   (∀ s : State, s.life.mainOn = true → s.hold.measuring = false → exec .pwrCtrlMeasure s = .next s.wantMeasure) ∧
   (∀ s : State, s.hold.measureAsked = true → s.hold.charging = false → s.past s.hold.retryAt 0 = true → s.running = true →
     exec .measurementRetry s = .next s.tryMeasure) ∧
   (∀ s : State, s.shutting = false → s.hold.measuring = false →
     let free34 : Int := usableEnergy s.hold.capUf 3400 - s.land.resLanding - s.land.resShutdown
     (s.hold.capUf ≠ 0 → free34 < 0 → s.tryMeasure = s.setHold fun h => { h with measureAsked := true, retryAt := s.now + 60 * oneSec }) ∧
     (s.hold.capUf ≠ 0 → 0 ≤ free34 → s.tryMeasure = (s.publish 3400 3).startMeasure) ∧
     (s.hold.capUf = 0 → s.tryMeasure = s.startMeasure)) ∧
   (∀ (uF t : Nat) (s : State), s.shutting = false → s.life.mainOn = true →
     let c := min 10000 (uF / 10 * 10)
     let m := (((s.setHold fun h =>
         { h with measuring := false, measureAsked := false, retrying := false, capUf := c, capAt := s.now, commissionDue := false,
                  commissionUf := if s.hold.commissionDue then c else h.commissionUf,
                  v10mV := if s.hold.measuring then 3500 else h.v10mV }).returnFor .measurement).logEv evHoldupMeasure uPower c t).pwrInt 6
     let d := if s.hold.commissionDue = false ∧ 100 * c < 80 * s.hold.commissionUf then m.logEv evHoldupAged uPower s.hold.commissionUf c else m
     let window := fun x : State => x.publish (min 3500 (x.hold.v10mV / 50 * 50)) 1
     (s.hold.measuring = true →
       (c < 500 → exec (.capacitanceMeasurementDone uF t) s = .next ((d.bankFails .absent).publish 3500 1)) ∧
       (500 ≤ c → c < 2200 → exec (.capacitanceMeasurementDone uF t) s = .next ((d.bankFails .belowRating).publish 3500 1)) ∧
       (2200 ≤ c → d.hold.st = .healthy → exec (.capacitanceMeasurementDone uF t) s = .next ((d.publish 3500 1).startCharge)) ∧
       (2200 ≤ c → d.hold.st ≠ .healthy → exec (.capacitanceMeasurementDone uF t) s = .next
         ((((d.bankState .charging).bankState .healthy).publish 3500 1).startCharge))) ∧
     (s.hold.measuring = false → s.hold.meters = true → 2500 ≤ s.hold.v10mV → (s.grantFor .measurement).isSome = true →
       (c < 500 → exec (.capacitanceMeasurementDone uF t) s = .next (window (d.bankFails .absent))) ∧
       (500 ≤ c → c < 2200 → exec (.capacitanceMeasurementDone uF t) s = .next (window (d.bankFails .belowRating))) ∧
       (2200 ≤ c → exec (.capacitanceMeasurementDone uF t) s = .next (window (d.bankState .charging))))))

/-- Trips and what follows: the hold-up sequence starts, ends with its drain or with HOLD at 12.0 V, where the AON island stops unless VIN feeds it, and
the module starts again, behind RESET# where that is low. That VIN counts as present from the restart threshold to the next under-voltage trip is the
model's choice (log 55) (06 R202, R222, R224, R229). Every 10 ms the temperature is the greatest of the sensors' and acts at the warning, derating and
write-pause points; with the main island off it is only taken (06 R226-R229). -/
def Obligations.HoldupAndTemperatureRun : Prop :=
  ((∀ s : State, exec .underVoltageTrip s = .next ((s.setLife fun l =>
     { l with vinPresent := false, aonOn := l.aonOn && !(!l.mainOn && l.thermalOff && decide (s.hold.v10mV ≤ 1200)) }).trip false)) ∧
   (∀ s : State, s.life.mainOn = true → s.life.holdup = false →
     exec .thermalTrip s = .next (((s.setThm fun t => { t with t := max t.t 152 }).logEv evThermal uThermal 3 (toField 32 (max s.thm.t 152))).trip true)) ∧
   (∀ s : State, s.life.holdup = true → s.drainEnded = true → exec .holdupDrainEnd s = .next ((s.closeJournal).powerOff true)) ∧
   (∀ s : State,
     let t := s.setHold fun h => { h with v10mV := 1200 }
     let stop := fun x : State => if x.life.vinPresent then x else x.setLife fun l => { l with aonOn := false, latched := none }
     (s.life.holdup = true → exec .holdAt12v s = .next (
       stop ((t.setHold fun h => { h with shortPending := true, shortJseq := t.jrn.lastDurable }).powerOff false))) ∧
     (s.life.holdup = false → s.life.mainOn = false → exec .holdAt12v s = .next (stop t)) ∧
     (s.life.holdup = false → s.life.mainOn = true → exec .holdAt12v s = .next t)) ∧
   (∀ (straps : BitVec 4) (s : State), s.life.mainOn = false → s.life.phase = 0 → (s.life.thermalOff = false ∨ s.thm.t ≤ 125) → s.life.latched = none →
     let t := (s.setLife fun l => { l with straps := straps, pads := straps, aonOn := true, vinPresent := true, thermalOff := false }).resumeElapsed
     let cause := if !s.life.aonOn then 1 else if s.life.huEnded then 9 else 10
     (s.life.resetLow = false → exec (.restartQualification straps) s = .next (t.startInstant cause straps[3] none)) ∧
     (s.life.resetLow = true → exec (.restartQualification straps) s = .next (t.setLife fun l => { l with latched := some { cause := cause } }))) ∧
   (∀ (straps : BitVec 4) (s : State), s.life.mainOn = false → s.life.phase = 0 → s.life.latched = none → s.life.thermalOff = true → 125 < s.thm.t →
     exec (.restartQualification straps) s = .next (s.setLife fun l => { l with vinPresent := true }))) ∧
  ((∀ (c : Int) (d : List Int) (s : State), s.life.mainOn = false →
     exec (.thermalSample c d) s = .next (s.setThm fun x => { x with t := tempOf c d, lastSample := s.now })) ∧
   (∀ (c : Int) (d : List Int) (s : State), s.life.mainOn = true →
     exec (.thermalSample c d) s = .next (
       let t := s.setThm fun x =>
         { x with ctrl16 := c, flash16 := d.foldl max (d.headD 0), hotDie := hottest d, t := tempOf c d,
                  hotMs := x.hotMs + (if 125 < tempOf c d then 10 else 0), lastSample := s.now }
       let t := t.setFlash fun f => { f with dies := (f.dies.zip (d ++ List.replicate f.dies.length 0)).map fun (x : Die × Int) => { x.1 with temp16 := x.2 } }
       let t := ((t.thermalWarn).thermalPause).thermalDerate
       if t.running then (((t.thermalFlash).reviewWear).pumpGcReads).pumpReloc else t)))

/-- A row of data DRAM that does not correct is failed, and so is one with its third corrected error within 24 h; a corrected error, a retraining and an
uncorrectable Landing read are logged; a channel that does not retrain at the third try is retired (05 R198). -/
def Obligations.DramErrorsAreHandled : Prop :=
  (∀ (ch : Fin 4) (bank row : Nat) (s : State), s.life.mainOn = true → ch.val < s.part.dramCh → (s.dram.chans.getD ch.val {}).retired = false →
    exec (.dramError ch (.uncorrectable bank row false)) s = .next (s.failRow ch.val bank row) ∧
    exec (.dramError ch (.uncorrectable bank row true)) s = .next ((s.logEv evDramCorrected uPrism (ch.val + 256 * bank) row).failRow ch.val bank row)) ∧
  (∀ (ch : Fin 4) (bank row : Nat) (s : State), s.life.mainOn = true → ch.val < s.part.dramCh → (s.dram.chans.getD ch.val {}).retired = false →
    exec (.dramError ch (.corrected bank row)) s = .next (
      let t := s.logEv evDramCorrected uPrism (ch.val + 256 * bank) row
      let errs := ((bank, row), t.now) :: (s.dram.chans.getD ch.val {}).rowErrors.filter fun x => decide (t.now < x.2 + 86400 * oneSec)
      let t := t.setDramCh ch.val fun c => { c with rowErrors := errs }
      if 3 ≤ (errs.filter fun x => x.1 == (bank, row)).length then t.failRow ch.val bank row else t)) ∧
  (∀ (ch : Fin 4) (s : State), s.life.mainOn = true → ch.val < s.part.dramCh → (s.dram.chans.getD ch.val {}).retired = false →
    exec (.dramError ch (.retrain true)) s = .next (
      (s.logEv evDramRetrain uPrism ch.val ((s.dram.chans.getD ch.val {}).retrains + 1)).setDramCh ch.val fun c => { c with retrains := 0 }) ∧
    ((s.dram.chans.getD ch.val {}).retrains = 2 → exec (.dramError ch (.retrain false)) s = .next (
      ((s.logEv evDramRetrain uPrism ch.val 3).setDramCh ch.val fun c => { c with retrains := 0 }).retireDram ch.val)))

/-- A DMA channel takes its controls (08 R288, R291, R292). A DMA channel hands over: the descriptor moves its bytes and completes, then the latched set
or the chain is promoted; an error of the move halts it, and so does an error that the bus or the memory reports on the way (08 R291, R292). -/
def Obligations.DmaChannelsRun : Prop :=
  ((∀ (ch : Fin 16) (s : State), s.dmaOpen = true →
     exec (.dmaPause ch true) s = .next (s.setDmaCh ch fun c => match c.st with
       | .idle => { c with pause := true, st := .paused, intStatus := c.intStatus ||| 4 }
       | .running => { c with pause := true, draining := true }
       | _ => { c with pause := true }) ∧
     exec (.dmaPause ch false) s = .next (s.setDmaCh ch fun c => match c.st with
       | .running => { c with pause := false, draining := c.stopping }
       | .paused => { c with pause := false, st := if c.active.isSome then .running else .idle, since := s.now }
       | _ => { c with pause := false })) ∧
   (∀ (ch : Fin 16) (s : State), s.dmaOpen = true →
     exec (.dmaStop ch) s = .next (s.setDmaCh ch fun c => if c.st = .running then { c with draining := true, stopping := true } else c.discard)) ∧
   (∀ (ch : Fin 16) (s : State), s.dmaOpen = true →
     exec (.dmaShCommit ch) s = .next (s.setDmaCh ch fun c =>
       if c.latch.isSome then { c with intStatus := c.intStatus ||| 8 } else { c with latch := some c.shadow })) ∧
   (∀ (ch : Fin 16) (s : State) (d : Desc), s.dmaOpen = true → (s.dmaCh ch).st = .halted → (s.dmaCh ch).active = some d →
     let t := s.setDmaCh ch fun c => { c with
       st := if c.pause then .paused else .running, err := 0, since := s.now, intStatus := if c.pause then c.intStatus ||| 4 else c.intStatus }
     (((s.dmaCh ch).counted = true ∨ d.fault = 0) → exec (.dmaRetry ch) s = .next t) ∧
     ((s.dmaCh ch).counted = false → d.fault ≠ 0 → exec (.dmaRetry ch) s = .next (t.dmaHalt ch d.fault))) ∧
   (∀ (ch : Fin 16) (w : Nat) (s : State) (d : Desc), s.dmaOpen = true → (s.dmaCh ch).active = some d → (s.dmaCh ch).draining = true →
     (s.dmaCh ch).counted = false →
     let m := s.dmaMove (min w (s.dmaCh ch).remain.toNat) ch d
     let t := m.1.setDmaCh ch fun c => if c.remain = 0 && !c.counted then c.complete d else c
     (m.2 ≠ 0 → exec (.dmaPauseDrainEnd ch w) s = .next (m.1.dmaHalt ch m.2)) ∧
     (m.2 = 0 → (s.dmaCh ch).stopping = true → exec (.dmaPauseDrainEnd ch w) s = .next (t.setDmaCh ch DmaCh.discard)) ∧
     (m.2 = 0 → (s.dmaCh ch).stopping = false → exec (.dmaPauseDrainEnd ch w) s = .next
       (t.setDmaCh ch fun c => { c with st := .paused, draining := false, intStatus := c.intStatus ||| 4 })))) ∧
  ((∀ (ch : Fin 16) (s : State) (d : Desc), s.dmaOpen = true → (s.dmaCh ch).draining = false → (s.dmaCh ch).pause = false →
     (s.dmaCh ch).st = .running → (s.dmaCh ch).active = some d → (s.dmaCh ch).counted = false →
     let m := s.dmaMove (s.dmaCh ch).remain.toNat ch d
     (m.2 = 0 → exec (.dmaHandOver ch) s = .next ((m.1.setDmaCh ch fun c => c.complete d).dmaPromote ch)) ∧
     (m.2 ≠ 0 → exec (.dmaHandOver ch) s = .next (m.1.dmaHalt ch m.2))) ∧
   (∀ (ch : Fin 16) (s : State), s.dmaOpen = true → (s.dmaCh ch).draining = false → (s.dmaCh ch).pause = false → (s.dmaCh ch).st = .idle →
     exec (.dmaHandOver ch) s = .next (s.dmaPromote ch)) ∧
   (∀ (ch : Fin 16) (w : Nat) (s : State) (d : Desc), s.dmaOpen = true → (s.dmaCh ch).active = some d → (s.dmaCh ch).st = .running →
     (s.dmaCh ch).counted = false →
     let m := s.dmaMove (min w (s.dmaCh ch).remain.toNat) ch d
     exec (.dmaError ch 4 w) s = .next (m.1.dmaHalt ch (if m.2 = 0 then 4 else m.2)) ∧
     exec (.dmaError ch 5 w) s = .next (m.1.dmaHalt ch (if m.2 = 0 then 5 else m.2))))

/-- Resets start: the pin, the key 0xC5A0, a lost reference, a watchdog (14 R430, R435, R442, R450). A supervisor's failure is logged as unit 1, the
model's choice (log 90). Resets end: the close is over or has taken 1.0 s, RESET# is released, a service reset ends or takes more than 1 s (14 R431,
R434-R436). -/
def Obligations.ResetsStartAndEnd : Prop :=
  ((∀ s : State, exec .resetPin s = .next ((s.setLife fun l => { l with resetLow := true }).requestFull { cause := 2 })) ∧
   (∀ (v : Word) (s : State), v.toNat / 65536 = 0xC5A0 → v.getLsbD 0 = true →
     exec (.sideBandSoftReset v) s = .next (s.requestFull { cause := 3, maint := v.getLsbD 1 })) ∧
   (∀ (v : Word) (s : State), v.toNat / 65536 ≠ 0xC5A0 → exec (.sideBandSoftReset v) s = .next s) ∧
   (∀ s : State, s.life.mainOn = true → s.life.refOk = true →
     exec .referenceLoss s = .next (
       (s.setLife fun l => { l with refOk := false, lockOk := false, lossCount := satAdd 32 l.lossCount 1 }).requestFull (s.fullOf 11))) ∧
   (∀ (cp : Fin 8) (e : Engine) (s : State), s.life.mainOn = true → s.life.phase ≠ 15 →
     let recent := s.life.wdog.filter fun t => decide (s.now < t + 3600 * oneSec)
     let full := decide (2 ≤ recent.length) || s.life.svc.isSome || !s.canService
     let end_ := fun (unit : Nat) =>
       let t := ((s.setLife fun l => { l with wdog := s.now :: recent }).seeFault).logEv evWatchdog uSup unit (b2n full)
       if full then t.requestFull (t.fullOf 4) else t.startService { cause := 5, since := t.now }
     exec (.cpWatchdog cp) s = .next (end_ (2 + cp.val)) ∧ exec (.engineWatchdog e) s = .next (end_ (engineUnit e))) ∧
   (∀ (sup : Fin 2) (s : State), s.life.mainOn = true → s.life.phase ≠ 15 → sup ≠ s.life.supActive → (s.life.sups.getD sup.val {}).retired = false →
     exec (.supLockstepFailure sup) s = .next (
       let fails := s.now :: (s.life.sups.getD sup.val {}).fails.filter fun t => decide (s.now < t + 86400 * oneSec)
       let t := (s.setLife fun l => { l with sups := modAt l.sups sup.val fun p => { p with fails := fails } }).seeFault
       let t := t.logEv evWatchdog uAon 1 0
       (if 3 ≤ fails.length then
         (t.setLife fun l => { l with sups := modAt l.sups sup.val fun p => { p with retired := true } }).logEv evSupRetire uAon sup.val 0 else t).fallback 1)) ∧
   (∀ (l : LedgerId) (s : State), s.life.mainOn = true → l.ledger ≠ 0 →
     let t := ((s.setLife fun x => { x with ledgerFaults := satAdd 32 x.ledgerFaults 1 }).seeFault).logEv evLedgerFault (ledgerUnit l) l.ledger.val
       ((ledgerNamed l).number % 65536 + 65536 * l.kind)
     (l.kind = 3 → l.number < 4 → exec (.ledgerFault l) s = .next ((t.resetPort (Fin.ofNat 2 (l.number / 2))).fallback 1)) ∧
     (¬ (l.kind = 3 ∧ l.number < 4) → s.shutting = true → exec (.ledgerFault l) s = .next t) ∧
     (¬ (l.kind = 3 ∧ l.number < 4) → t.shutting = false → (t.faultAgain l = true ∨ t.life.svc.isSome = true) →
       exec (.ledgerFault l) s = .next (t.requestFull (t.fullOf 4))) ∧
     (¬ (l.kind = 3 ∧ l.number < 4) → t.shutting = false → t.faultAgain l = false → t.life.svc = none →
       exec (.ledgerFault l) s = .next (t.startService { cause := 7, since := t.now, ledger := some l })))) ∧
  ((∀ (s : State) (r : FullReset), s.life.closing = some r →
     (s.drainEnded = true → exec (.resetCloseDone true) s = .next (s.fullReset r true)) ∧
     (s.past s.life.closeAt oneSec = true → exec (.resetCloseDone false) s = .next (s.fullReset r false))) ∧
   (∀ (straps : BitVec 4) (s : State) (r : FullReset), s.life.resetLow = true → s.life.latched = some r → s.life.phase = 0 → s.life.aonOn = true →
     exec (.resetRelease straps) s = .next (
       (s.setLife fun l => { l with resetLow := false, straps := straps, pads := straps }).startInstant r.cause straps[3] r.slot)) ∧
   (∀ (s : State) (v : SvcReset), s.life.svc = some v → s.closingShort = false →
     (v.compact = false ∨ (s.land.recs.isEmpty = true ∧ s.jrn.settled = true)) →
     exec .serviceResetEnd s = .next (
       let t := (((if v.compact then s.changeIndex else s).endSvc v).scanCells).resetEnds.glbInt 2
       (t.logEv evServiceReset uSup v.cause (min ((s.now - v.since) / ms) (2 ^ 32 - 1))).resumePosting)) ∧
   (∀ (s : State) (v : SvcReset), s.life.svc = some v → s.past v.since (if v.compact then 16 * oneSec else oneSec) = true →
     exec .serviceResetTimeout s = .next (s.requestFull (s.fullOf 4))))

/-- Start-up: what the end of each phase does, and what the service instant does (14 R436, R437). -/
def Obligations.StartUpRuns : Prop :=
  (∀ (v : List Bool) (s : State), s.life.mainOn = true → s.life.phaseEnded = false →
    (s.life.phase = 1 → exec (.startUpPhaseDone v) s = .next (
      (((s.setLife fun l => { l with refOk := true, lockOk := true, refLost := false }).goPhase 2).startCharge))) ∧
    (s.life.phase = 2 → exec (.startUpPhaseDone v) s = .next (((s.trainPort 0).trainPort 1).goPhase 3)) ∧
    (s.life.phase = 3 → exec (.startUpPhaseDone v) s = .next (s.bootRom v)) ∧
    (s.life.phase = 4 → exec (.startUpPhaseDone v) s = .next s.supStart) ∧
    (s.life.phase = 5 → exec (.startUpPhaseDone v) s = .next
      ((if !s.prism.compact && s.dram.chans.any (fun c => c.retired) then s.changeIndex else s).goPhase 6)) ∧
    (s.life.phase = 6 → exec (.startUpPhaseDone v) s = .next ((((s.logFromJournal).rebuildIndex).spillCompact).goPhase 7)) ∧
    (s.life.phase = 7 → exec (.startUpPhaseDone v) s = .next (((((s.recount).returnFor .replay).closeAllShort).pumpErases).goPhase 8)) ∧
    (s.life.phase = 8 → s.closingShort = false → exec (.startUpPhaseDone v) s = .next (s.setLife fun l => { l with phaseEnded := true }))) ∧
  (∀ s : State, s.life.phaseEnded = true → s.life.recovery = true →
    exec .serviceInstant s = .next (((s.setLife fun l => { l with phase := 11, phaseEnded := false }).glbInt 3).servoStart)) ∧
  (∀ s : State, s.life.phaseEnded = true → s.life.recovery = false → s.sec.san.state ≠ 1 →
    exec .serviceInstant s = .next ((((s.setLife fun l => { l with phase := 9, phaseEnded := false }).glbInt 3).servoStart).openLink))

/-- The handshake of the Mirror link: a HELLO of the peer is answered, on a connected link that has carried messages behind a new start of the link, with
a HELLO_ACK whose proof is over both nonces; a HELLO_ACK with the right proof connects the link, or moves a connected link to the port that answered;
a wrong one is EV_MIRROR_AUTH; CLOSE is queued in its turn, behind every earlier message, and ends the link there (09 R297, R298, R300, R310). -/
def Obligations.TheMirrorLinkOpens : Prop :=
  (∀ (rx : Rx) (body : Bytes) (s : State) (pr : Pairing), s.fromPeerAt rx = true → s.mir.pairing = some pr →
    exec (.mirrorHello rx body) s = .next (
      let again := s.mir.state = 2 && s.mir.portInUse == some rx.port && (s.mir.rxNext ≠ 1 || s.mir.lack ≠ 1)
      let t := (if again then s.peerGone else s).setMir fun m => { m with peerPcp := some rx.pcp }
      t.freeNext.mirrorTxOn rx.port (t.freeNext.mirrorDg 2 0 0 0 0 0
        (t.freeNext.helloBody (le 16 t.freeVal) (helloProof pr.secret (body.take 16) (le 16 t.freeVal) (slice body 16 24)
          (fit 24 t.freeNext.ident.serial)) t.freeNext.fwActive)))) ∧
  (∀ (rx : Rx) (body : Bytes) (s : State) (pr : Pairing) (t : Nat), s.fromPeerAt rx = true → s.mir.pairing = some pr → s.mir.helloSent = some t →
    slice body 49 32 = helloProof pr.secret s.mir.nonce (body.take 16) (fit 24 s.ident.serial) (slice body 16 24) → s.mir.state ≠ 2 →
    exec (.mirrorHelloAck rx body) s = .next (((s.setMir fun m =>
      { m with state := 2, stateAt := s.now, portInUse := some rx.port, linkLost := none, helloSent := none, peerPcp := m.peerPcp.or (some rx.pcp),
               peerSerial := slice body 16 24, peerFw := fieldAt body 40 8, lastRx := s.now,
               rttUs := min ((s.now - t) / 1000) 65535 }).logEv evMirrorState uMirror s.mir.state 2).mirrorTurn)) ∧
  (∀ (rx : Rx) (body : Bytes) (s : State) (pr : Pairing) (t : Nat), s.fromPeerAt rx = true → s.mir.pairing = some pr → s.mir.helloSent = some t →
    slice body 49 32 = helloProof pr.secret s.mir.nonce (body.take 16) (fit 24 s.ident.serial) (slice body 16 24) → s.mir.state = 2 →
    exec (.mirrorHelloAck rx body) s = .next ((s.setMir fun m =>
      { m with state := 2, portInUse := some rx.port, linkLost := none, helloSent := none, peerPcp := m.peerPcp.or (some rx.pcp),
               peerSerial := slice body 16 24, peerFw := fieldAt body 40 8, lastRx := s.now,
               rttUs := min ((s.now - t) / 1000) 65535 }).mirrorTurn)) ∧
  (∀ (rx : Rx) (body : Bytes) (s : State) (pr : Pairing) (t : Nat), s.fromPeerAt rx = true → s.mir.pairing = some pr → s.mir.helloSent = some t →
    slice body 49 32 ≠ helloProof pr.secret s.mir.nonce (body.take 16) (fit 24 s.ident.serial) (slice body 16 24) →
    exec (.mirrorHelloAck rx body) s = .next (
      (s.setMir fun m => { m with authFailed := true, helloSent := none }).logEv evMirrorAuth uMirror rx.port.val 0)) ∧
  (∀ (m : MirrorMsg) (s : State), s.mir.state = 2 → s.mirrorWorks = true → (s.mirrorHeard m).mir.state = 2 → unwrap 32 s.mir.rxNext m.lseq = s.mir.rxNext →
    exec (.mirrorClose m) s = .next ((s.mirrorHeard m).mirrorNext s.mir.rxNext 13 m)) ∧
  (∀ (s : State) (r : MRecv), r.typ = 13 → s.applyOther r = s.peerGone)

/-- What every message on a connected Mirror link does: the time of the last message, its acknowledgements and its stamp are taken; ACK and HEARTBEAT let
the link send; a message in order is queued for application and applied in turn, a message before the next one is answered with an acknowledgement,
one behind a gap is dropped (09 R298, R300, R307). -/
def Obligations.MirrorMessagesAreTaken : Prop :=
  (∀ (c : Instr) (typ : Nat) (m : MirrorMsg) (s : State),
    (c, typ) ∈ [(.mirrorPut m, 3), (.mirrorDelete m, 4), (.mirrorRange m, 5), (.repairReq m, 8), (.repairRsp m, 9), (.ksCfg m, 10), (.syncMark m, 11), (.mirrorClose m, 13)] →
    s.mir.state = 2 → s.mirrorWorks = true →
    exec c s = .next (
      if (s.mirrorHeard m).mir.state ≠ 2 then s.mirrorHeard m
      else if unwrap 32 s.mir.rxNext m.lseq = s.mir.rxNext then (s.mirrorHeard m).mirrorNext s.mir.rxNext typ m
      else if unwrap 32 s.mir.rxNext m.lseq < (s.mirrorHeard m).mir.rxNext then (s.mirrorHeard m).mirrorPlain 6 0 [] []
      else s.mirrorHeard m)) ∧
  (∀ (c : Instr) (m : MirrorMsg) (s : State), c ∈ [.mirrorAck m, .heartbeat m] → s.mir.state = 2 → s.mirrorWorks = true →
    exec c s = .next (if (s.mirrorHeard m).mir.state ≠ 2 then s.mirrorHeard m else (s.mirrorHeard m).mirrorTurn)) ∧
  (∀ (m : MirrorMsg) (s : State), s.mir.state = 2 → s.mirrorWorks = true → unwrap 32 s.mir.rxNext m.lseq = s.mir.rxNext →
    exec (.refuse m) s = .next (
      let t := (s.takeRefuse (fieldAt m.body 4 4) (BitVec.ofNat 16 (fieldAt m.body 0 2))).mirrorHeard m
      if t.mir.state ≠ 2 then t else t.mirrorNext s.mir.rxNext 12 m)) ∧
  (∀ (m : MirrorMsg) (s : State), s.mirrorHeard m =
    ((s.setMir fun x => { x with lastRx := s.now }).mirrorAcks m).setMir fun x => x.toStamp (max x.stamp (m.stamp.toNat / 2)))

/-- The timers of the Mirror link: heartbeat, resend, repair, probe of a refused key space (its value is read first; what is sent where no key is logged
is the model's choice, log 85), loss of the peer, mark, resynchronisation (09 R300, R301, R306, R316, R317, R321). -/
def Obligations.MirrorTimersRun : Prop :=
  (∀ (s : State) (pr : Pairing), s.mir.pairing = some pr → s.mirrorWorks = true → s.mir.authFailed = false →
    let t := s.mirrorTurn
    let helloDue := t.mir.helloSent.all fun a => t.past a (50 * ms)
    ((t.mir.state = 1 ∨ t.mir.state = 3) → exec .heartbeatSend s = .next (if helloDue && t.mir.unpairAt.isNone then t.sendHello pr.port else t)) ∧
    (t.mir.state = 2 → t.mir.linkLost = none → exec .heartbeatSend s = .next (if t.past t.mir.lastTx (50 * ms) then t.mirrorPlain 7 0 [] [] else t)) ∧
    (∀ p : Fin 2, t.mir.state = 2 → t.mir.linkLost.isSome = true → (if t.mir.portInUse == some pr.port then pr.alt else some pr.port) = some p →
      let u := if helloDue then t.sendHello p else t
      exec .heartbeatSend s = .next (if u.past u.mir.lastTx (50 * ms) then u.mirrorPlain 7 0 [] [] else u))) ∧
  (∀ s : State, s.mir.state = 2 → s.mirrorWorks = true → s.mir.lack < s.mir.sentTo → s.past s.mir.lackAt (s.mir.resendMs * ms) = true →
    exec .mirrorResendTimer s = .next ((s.setMir fun m =>
      { m with sentTo := m.lack, lackAt := s.now, resendMs := min 16 (2 * m.resendMs) }).mirrorPump)) ∧
  (∀ (read : Nat) (s : State) (r : ReadOp), (s.flash.reads.find? fun r => r.id == read) = some r → (r.peerSince.any fun t => s.past t (500 * ms)) = true →
    exec (.repairTimeout read) s = .next (s.readLost r)) ∧
  (∀ (ks : Fin 64) (s : State) (k : KeySpace) (i : MSync), s.space? ks.val = some k → k.ksState = 8 → k.refuseStatus ≠ stInvalid → s.mir.state = 2 →
    s.mirrorWorks = true → (((s.mir.probeAt.find? fun p => p.1 == ks.val).map fun p => p.2).all fun t => s.past t (60 * oneSec)) = true →
    s.probeItem ks.val = some i →
    ((s.itemRead i).1 = false → exec (.refusedProbe ks) s = .next (s.itemRead i).2) ∧
    ((s.itemRead i).1 = true → exec (.refusedProbe ks) s = .next (
      let u := (s.itemRead i).2
      let t := (u.setMir fun m => { m with probeAt := (ks.val, u.now) :: m.probeAt.filter fun p => p.1 != ks.val }).sendItem i
      (t.setMir fun m => { m with logRanges := u.mir.logRanges }).setSpace ks.val fun k => { k with probeLseq := some (t.mir.lseqNext - 1) }))) ∧
  (∀ (ks : Nat) (s : State) (e : LogEntry),
    (s.mir.log.find? fun e => e.ks == ks && (s.lookup ks e.key).all fun x => !x.loc.isLost) = some e → s.probeItem ks = some (.key ks e.key fResync)) ∧
  (∀ s : State, (s.mir.state = 1 ∨ s.mir.state = 2) → s.mirrorWorks = true →
    (s.past s.mir.lastRx (500 * ms) = true ∨ (s.mir.linkLost.any fun t => s.past t (500 * ms)) = true) → exec .peerLost s = .next s.peerGone) ∧
  (∀ s : State, s.mir.pairing.isSome = true → s.serving = true → s.past s.mir.markAt oneSec = true →
    exec .mirrorMarkStore s = .next (
      let mark := ((s.jrn.log.find? fun r => s.markBlocks r.2).map fun r => r.1 - 1).getD (s.jrn.jseqNext - 1 - s.jrn.page.length - s.jrn.flying.length)
      s.setMir fun m => { m with mark := some (max (m.mark.getD 0) mark), markAt := s.now })) ∧
  (∀ s : State, s.mir.state = 2 → s.mirrorWorks = true →
    exec .deltaResyncStart s = .next (
      let gone := s.mir.fullKs.filter fun ks => (s.space? ks).isNone
      let t := (dedup (s.mir.logDeletes ++ gone)).foldl (fun s ks => (s.sendCfg ks 2 false .off).1)
        (s.setMir fun m => { m with logDeletes := [], fullKs := m.fullKs.filter fun ks => !gone.contains ks })
      ((t.mirrored.filter fun k => k.ksState == 3 && k.cfgLseq.isNone).foldl State.startSync t).mirrorTurn)) ∧
  (∀ (s : State) (k : KeySpace),
    let u := s.setMir fun m => { m with fullKs := m.fullKs.filter fun x => x != k.ks }
    (k.seeding = true → s.startSync k = s) ∧
    (k.seeding = false → k.seedDue = true → s.startSync k = s.offerSeed k.ks) ∧
    (k.seeding = false → k.seedDue = false → s.mir.fullKs.contains k.ks = false → s.startSync k = s.startDelta k.ks) ∧
    (k.seeding = false → k.seedDue = false → s.mir.fullKs.contains k.ks = true →
      (s.mir.interrupted = true → s.startSync k = (u.askFull k.ks 2).syncState k.ks 6) ∧
      (s.mir.interrupted = false → (s.mir.pairing.any fun p => p.rank == 0) = true → s.startSync k = u.startFull k.ks) ∧
      (s.mir.interrupted = false → (s.mir.pairing.any fun p => p.rank == 0) = false → s.startSync k = (u.askFull k.ks 3).syncState k.ks 6)))

/-- A port's link comes up at the highest rate that both ends advertise and whose grant is free; one that goes down trains again, or finds no partner
where it trained (the model's reading, log 50); the third training failure in a row at one rate drops that rate; a fast retrain keeps the link; a port
reset trains the port again, and the third one in a row whose self-test fails retires it (06 R210; 10 R327, R329, R331). A port's controls: the
snapshot, flow control (a reserved mode or a cable length outside 1 to 100 is ignored, more than two lossless priorities are refused, an accepted
value starts a port reset), renegotiation, and the traffic sample once per second, which steps a port up, or down, P0 first (10 R331-R334, R341,
R357). -/
def Obligations.LinksAndPortControls : Prop :=
  ((∀ (port : Fin 2) (l : LinkInfo) (s : State), s.linkOk port l = true →
     exec (.linkUp port l) s = .next (
       let t := if (s.port port).ps4Nego then s else s.wake
       let t := t.setPort port fun q =>
         { q with link := true, rate := l.rate, eee := l.eee && (t.portCfg port).phy.getLsbD 4, training := false, partnerAdv := l.partnerAdv,
                  trainFails := [], upSince := some t.now, txIdleSince := t.now, ps4Nego := false, capRate := none, lastRate := some l.rate,
                  lastChange := if q.lastRate.all (fun r => r == l.rate) then q.lastChange else some t.now }
       let t := t.setPort port fun q => { q with stepped := (t.commonRates port).any fun r => decide (l.rate.val < r) }
       let t := ((t.macInt port 0).logEv evLink (uMac port) (port.val + 256) l.rate.val).setMir fun m =>
         if m.portInUse == some port then { m with linkLost := none } else m
       ((t.setPhyGrant port (phyTokens l.rate.val)).endNego port).resumePort port)) ∧
   (∀ (port : Fin 2) (s : State),
     ((s.port port).link = true → exec (.linkDown port) s = .next ((s.dropLink port).train port).wake) ∧
     ((s.port port).link = false → exec (.linkDown port) s = .next (s.stopTraining port).wake)) ∧
   (∀ (port : Fin 2) (rate : Fin 4) (s : State), s.portUsable port = true → (s.port port).link = false →
     let n := (((s.port port).trainFails.find? fun f => f.1 == rate.val).map fun f => f.2).getD 0 + 1
     (n < 3 → exec (.trainingFailure port rate) s = .next ((s.setPort port fun q => { q with trainFails := [(rate.val, n)] }).train port)) ∧
     (3 ≤ n → exec (.trainingFailure port rate) s = .next (
       let t := (s.setPort port fun q => { q with trainFails := [], dropped := q.dropped ||| BitVec.ofNat 4 (2 ^ rate.val) }).train port
       t.logEv evPortDownshift (uMac port) (port.val + 256 * rate.val)
         (([3, 2, 1, 0].filter fun r => (t.portCfg port).phy.getLsbD r && !(t.port port).dropped.getLsbD r).headD 0)))) ∧
   (∀ (port : Fin 2) (s : State), (s.port port).link = true → (s.port port).rate ≠ 0 →
     exec (.fastRetrain port) s = .next ((s.setPort port fun q => q.count 43 1).logEv evPortRetrain (uMac port) port.val 0)) ∧
   (∀ (port : Fin 2) (ok : Bool) (s : State), s.portUsable port = true → s.life.mainOn = true →
     exec (.portReset port ok) s = .next (
       let t := (s.portReset port).setPort port fun q => { q with resetFails := if ok then 0 else q.resetFails + 1 }
       let t := (if ok then t.train port else t).markSvcPort port
       if 3 ≤ (t.port port).resetFails then t.retirePort port else t))) ∧
  ((∀ (port : Fin 2) (s : State), exec (.statSnap port) s = .next (s.setPort port fun q => { q with snap := q.stats })) ∧
   (∀ (port : Fin 2) (v : Word) (s : State), s.portUsable port = true →
     (v.toNat % 4 = 3 ∨ v.toNat / 4096 % 128 < 1 ∨ 100 < v.toNat / 4096 % 128) → exec (.macnFcCfgWrite port v) s = .next s) ∧
   (∀ (port : Fin 2) (v : Word) (s : State), s.portUsable port = true → v.toNat % 4 = 2 → 1 ≤ v.toNat / 4096 % 128 → v.toNat / 4096 % 128 ≤ 100 →
     2 < ((List.range 8).filter fun i => v.getLsbD (4 + i)).length →
     exec (.macnFcCfgWrite port v) s = .next (s.setPort port fun q => { q with cfgReject := true })) ∧
   (∀ (port : Fin 2) (v : Word) (s : State), s.portUsable port = true → (v.toNat % 4 < 2 ∨ (v.toNat % 4 = 2 ∧ ((List.range 8).filter fun i => v.getLsbD (4 + i)).length ≤ 2)) → 1 ≤ v.toNat / 4096 % 128 → v.toNat / 4096 % 128 ≤ 100 →
     exec (.macnFcCfgWrite port v) s = .next (
       ((s.setStored fun c => { c with ports := modAt c.ports port.val fun x => { x with fc := v.setWidth 19 } }).portReset port).train port)) ∧
   (∀ (port : Fin 2) (s : State), s.portUsable port = true → (s.port port).link = true → (s.upTarget port).isSome = true →
     exec (.renegotiate port) s = .next (s.startNego port 4 none)) ∧
   (∀ (s0 s1 : TrafficSample) (s : State), ((s.port 0).sampledAt.all fun t => s.past t oneSec) = false → exec (.trafficSample s0 s1) s = .next s) ∧
   (∀ (s0 s1 : TrafficSample) (s : State), ((s.port 0).sampledAt.all fun t => s.past t oneSec) = true →
     let t := (s.setPort 0 fun q => { q.sample s0 with sampledAt := some s.now }).setPort 1 fun q => { q.sample s1 with sampledAt := some s.now }
     ((t.ports.any fun q => q.nego.isSome) = true → exec (.trafficSample s0 s1) s = .next t) ∧
     (∀ p : Fin 2, (t.ports.any fun q => q.nego.isSome) = false →
       ([0, 1].find? fun (p : Fin 2) => t.portUsable p && (t.upCause p).isSome) = some p →
       exec (.trafficSample s0 s1) s = .next ((t.startNego p ((t.upCause p).getD 2) none).setPort p fun q => { q with starved := 0 })) ∧
     ((t.ports.any fun q => q.nego.isSome) = false → ([0, 1].find? fun (p : Fin 2) => t.portUsable p && (t.upCause p).isSome) = none →
       exec (.trafficSample s0 s1) s = .next (
         if t.portUsable 0 && t.stepsDown 0 then t.startNego 0 1 (t.downTarget 0)
         else if t.portUsable 1 && t.stepsDown 1 then t.startNego 1 1 (t.downTarget 1)
         else t))))

/-- A received frame is activity on the port. Frames that are not stored are counted where the spec counts them, a symbol error beside the frame's other
count; a good one for the module is stored, before the service instant only what is answered there (10 R330, R336, R339, R357; 14 R436). Flow control:
XON, the refresh, what a received pause does to a class, its expiry and its watchdog (10 R342-R345). -/
def Obligations.FramesAndPausesRun : Prop :=
  ((∀ (port : Fin 2) (f : RxFrame) (s : State), s.portUsable port = true → (s.port port).link = true →
     let a := s.activity port
     let b := if f.symbolErr then a.setPort port fun q => q.count 15 1 else a
     let max := (s.portCfg port).maxFrame.toNat
     (f.len < 64 → exec (.frameReceived port f) s = .next (b.setPort port fun q => q.count (if f.fcsOk then 16 else 17) 1)) ∧
     (64 ≤ f.len → max < f.len → exec (.frameReceived port f) s = .next (b.setPort port fun q => q.count (if f.fcsOk then 18 else 19) 1)) ∧
     (64 ≤ f.len → f.len ≤ max → f.fcsOk = false → exec (.frameReceived port f) s = .next (b.setPort port fun q => q.count 14 1)) ∧
     (64 ≤ f.len → f.len ≤ max → f.fcsOk = true → f.symbolErr = true → exec (.frameReceived port f) s = .next b) ∧
     (64 ≤ f.len → f.len ≤ max → f.fcsOk = true → f.symbolErr = false → b.acceptsDst port f.dst = false →
       exec (.frameReceived port f) s = .next (b.setPort port fun q => q.count 21 1))) ∧
   (∀ (port : Fin 2) (f : RxFrame) (s : State), s.portUsable port = true → (s.port port).link = true → 64 ≤ f.len →
     f.len ≤ (s.portCfg port).maxFrame.toNat → f.symbolErr = false → f.fcsOk = true → (s.activity port).acceptsDst port f.dst = true →
     let t := (s.activity port).setPort port fun q => q.goodRx f
     let t := if f.dst = t.macOf port then t.wake else t
     let served := t.life.phase = 9 ∨ t.life.phase = 11
     let answered := f.proto = .arp ∨ f.proto = .ndisc ∨ f.proto = .echo
     (f.proto = .macControl → exec (.frameReceived port f) s = .next t) ∧
     (f.proto ≠ .macControl → (s.portCfg port).vlanOk f.tags = false → exec (.frameReceived port f) s = .next (t.setPort port fun q => q.count 20 1)) ∧
     (f.proto ≠ .macControl → (s.portCfg port).vlanOk f.tags = true → f.ipErr = true →
       exec (.frameReceived port f) s = .next (t.setPort port fun q => q.count 25 1)) ∧
     (f.proto ≠ .macControl → (s.portCfg port).vlanOk f.tags = true → f.ipErr = false → t.served f.proto = false →
       exec (.frameReceived port f) s = .next (t.setPort port fun q => q.count 24 1)) ∧
     (f.proto ≠ .macControl → (s.portCfg port).vlanOk f.tags = true → f.ipErr = false → t.served f.proto = true →
       ((served ∨ answered) → exec (.frameReceived port f) s = .next ((t.storeRx port f).portTakes port f.proto)) ∧
       (¬ served → ¬ answered → exec (.frameReceived port f) s = .next (t.setTr fun x =>
         { x with counters := { x.counters with dgramDiscard := (x.counters.dgramDiscard + 1) % 2 ^ 32 } }))))) ∧
  ((∀ (port : Fin 2) (s : State), (s.port port).xoff = true → 96 ≤ (s.port port).rxShared →
     exec (.xon port) s = .next (s.setPort port fun q => { q with xoff := false, macCtl := some ((s.portCfg port).pauseOf 0) })) ∧
   (∀ (port : Fin 2) (s : State), (s.port port).xoff = true → (s.port port).link = true →
     s.past (s.port port).xoffAt (quantaNs 0xFFFF (s.port port).rate.val / 2) = true →
     exec (.pauseRefresh port) s = .next (s.setPort port fun q =>
       { q with xoffAt := s.now, macCtl := some ((s.portCfg port).pauseOf 0xFFFF) })) ∧
   (∀ (port : Fin 2) (v : BitVec 16) (s : State), s.portUsable port = true → (s.port port).link = true →
     ((s.portCfg port).fc.getLsbD 2 = true → (s.portCfg port).fcMode = 1 → ((s.port port).tx.any fun t => t.breakUntil.isSome) = false →
       exec (.pauseFrameReceived port (.link v)) s = .next ((s.setPort port fun q => q.count 5 1).setPort port fun q =>
         { q with tx := q.tx.map fun t => t.pause (s.setPort port fun q => q.count 5 1).now (quantaNs v.toNat q.rate.val) })) ∧
     (((s.portCfg port).fc.getLsbD 2 = false ∨ (s.portCfg port).fcMode ≠ 1) →
       exec (.pauseFrameReceived port (.link v)) s = .next ((s.setPort port fun q => q.count 5 1).setPort port fun q => q.count 27 1)) ∧
     (∀ (en : BitVec 8) (vs : List (BitVec 16)), ((s.portCfg port).fc.getLsbD 2 = false ∨ (s.portCfg port).fcMode ≠ 2) →
       exec (.pauseFrameReceived port (.pfc en vs)) s = .next ((s.setPort port fun q => q.count 6 1).setPort port fun q => q.count 27 1))) ∧
   (∀ (port : Fin 2) (tc : Fin 8) (s : State), exec (.pauseExpiry port tc) s = .next (s.setPort port fun q =>
     { q with tx := modAt q.tx tc.val fun (t : TxClass) => if t.pausedUntil.any (fun u => decide (u ≤ s.now)) then { t with pausedUntil := none } else t })) ∧
   (∀ (port : Fin 2) (tc : Fin 8) (s : State) (c : TxClass), (s.port port).tx[tc.val]? = some c → (s.portCfg port).pauseWdog.toNat ≠ 0 →
     c.paused s.now = true → s.past c.pausedSince ((s.portCfg port).pauseWdog.toNat * ms) = true →
     exec (.pauseWdog port tc) s = .next (
       let brk := fun (x : TxClass) => { x with pausedUntil := none, breakUntil := some (s.now + (s.portCfg port).pauseWdog.toNat * ms) }
       let all := (s.portCfg port).fcMode == 1
       let t := s.setPort port fun q => { q with tx := if all then q.tx.map brk else modAt q.tx tc.val brk }.count 42 1
       (t.macInt port 2).logEv evPauseWdog (uMac port) (port.val + 256 * (if all then 0xFF else tc.val)) ((t.port port).stats.getD 42 0))) ∧
   (∀ (port : Fin 2) (tc : Fin 8) (s : State), exec (.pauseWdogBreakEnd port tc) s = .next (s.setPort port fun q =>
     { q with tx := modAt q.tx tc.val fun (t : TxClass) =>
       if t.breakUntil.any (fun u => decide (u ≤ s.now)) then { t with breakUntil := none, pausedUntil := none } else t })))

/-- The gate schedule and the transmit path (10 R328, R340, R346-R348). -/
def Obligations.GatesAndTransmission : Prop :=
  (∀ (port : Fin 2) (s : State), s.portUsable port = true →
    let q := s.port port
    let bad := q.tasPending = true ∨ q.gadmin.cycle.toNat < 400 ∨ q.gadmin.len.toNat < 1 ∨ 256 < q.gadmin.len.toNat ∨
      ((q.gadmin.entries.take q.gadmin.len.toNat).any fun e => e.2 == 0) = true
    (bad → exec (.tasConfigChange port) s = .next ((s.setPort port fun q => { q with tasCfgError := true }).macInt port 4)) ∧
    (¬ bad → exec (.tasConfigChange port) s = .next (
      let at_ := if q.tasRunning then nextCycle q.operAt q.goper.cycle.toNat (max q.gadmin.base s.ptp.time)
        else nextCycle q.gadmin.base q.gadmin.cycle.toNat s.ptp.time
      s.setPort port fun q => { q with tasPending := true, tasCfgError := false, swapAt := at_ }))) ∧
  (∀ (port : Fin 2) (s : State), (s.port port).tasPending = true → (s.port port).swapAt ≤ s.ptp.time →
    exec (.tasSwap port) s = .next (s.swapGates port)) ∧
  (∀ (port : Fin 2) (s : State), (s.port port).tasRunning = true → exec (.gateEntryAdvance port) s = .next (s.setGates port)) ∧
  (∀ (port : Fin 2) (v : Word) (s : State), s.portUsable port = true →
    exec (.tasEnableWrite port v) s = .next ((s.setPort port fun q =>
      { q with tasEnable := v.getLsbD 0, tasRunning := v.getLsbD 0 && decide (q.goper.len.toNat ≠ 0) }).setGates port)) ∧
  (∀ (port : Fin 2) (s : State),
    let t := s.endLine port
    ((t.port port).link = true → (t.port port).line = none →
      (∀ f : PauseFrame, (t.port port).macCtl = some f → exec (.frameTransmitStart port) s = .next ((t.activity port).setPort port fun q =>
        { (q.sent 31 64).count (match f with | .link _ => 33 | .pfc .. => 34) 1 with macCtl := none, txLpi := false, txIdleSince := t.now })) ∧
      ((t.port port).macCtl = none →
        let u := (List.range 8).foldl (fun s tc => s.dropOversize ((((s.port port).tx[tc]?).map fun c => c.queue.length).getD 0) port tc) t
        (∀ tc : Nat, ([7, 6, 5, 4, 3, 2, 1, 0].find? fun tc => u.mayStart port tc) = some tc →
          exec (.frameTransmitStart port) s = .next (u.startFrame port tc))))) ∧
  (∀ (port : Fin 2) (s : State),
    let t := s.endLine port
    (t.port port).link = true → (t.port port).eee = true → (t.port port).txLpi = false →
    (t.port port).line = none → (t.port port).macCtl = none → (t.port port).txWait = [] → ((t.port port).tx.all fun c => c.queue.isEmpty) = true →
    (t.port port).tasRunning = false → t.past (t.port port).txIdleSince (1000 * ((t.portCfg port).phy.toNat / 65536)) = true →
    exec (.lowPowerIdle port) s = .next ((t.setPort port fun q => { q with txLpi := true }).logEv evLpi (uMac port) port.val 0))

/-- The PTP unit: its messages (one whose timestamp is lost feeds no sample; a received Announce enters the choice of the time transmitter), holdover, the
PPS edges, the step, the requests and the configuration (10 R351-R353, R356, R359). -/
def Obligations.TheClockIsKept : Prop :=
  (∀ (m : PtpMsg) (s : State), m.domain.toNat = s.ptp.domain → m.transport.val = s.ptp.transport m.port → s.portUsable m.port = true → s.pwr.ps ≠ 4 →
    let t := ((s.ptpStamp m).1.ptpAnswer m).takeInterval m
    (m.announce = none → (s.ptpStamp m).2 = true → exec (.ptpEventMessage m) s = .next (t.ptpSample m)) ∧
    (m.announce = none → (s.ptpStamp m).2 = false → exec (.ptpEventMessage m) s = .next t) ∧
    (∀ a : Announce, m.announce = some a → m.sent = false → exec (.ptpEventMessage m) s = .next (t.takeAnnounce m a)) ∧
    (∀ a : Announce, m.announce = some a → m.sent = true → exec (.ptpEventMessage m) s = .next t)) ∧
  (∀ s : State, 1 ≤ s.ptp.source → s.ptp.source ≤ 4 → s.ptp.lastSample ≠ 0 →
    s.past s.ptp.lastSample ((if s.ptp.source = 4 then 2 else 3) * oneSec) = true →
    exec .ptpHoldover s = .next (s.setPtp fun t => { t with holdover := true, goodSamples := 0 })) ∧
  (∀ s : State,
    let t := (s.setPtp fun x => { x with ppsInNs := BitVec.ofNat 30 (nsOf s.ptp.time), ppsInSec := BitVec.ofNat 48 (secOf s.ptp.time) }).ptpInt 0
    ((s.ptp.source ≠ 4 ∨ s.servoPaused = true) → exec .ppsInEdge s = .next t) ∧
    (s.ptp.source = 4 → s.servoPaused = false → exec .ppsInEdge s = .next (t.servo (((s.ptp.time : Int) - s.ptp.setSec.toNat * secUnits) * 5 / 2)))) ∧
  (∀ s : State, s.ptp.ppsCfg.getLsbD 20 = true → (s.ptp.timeValid = true ∨ s.ptp.ppsCfg.getLsbD 21 = true) →
    (s.ptp.time + secUnits - unitsOf 0 s.ptp.ppsOffset.toNat % secUnits) % secUnits < 400 →
    exec .ppsOutEdge s = .next (s.setPtp fun t => { t with ppsOut := true, ppsRose := s.now })) ∧
  (∀ s : State, s.ptp.ppsOut = true → s.past s.ptp.ppsRose (1000 * (s.ptp.ppsCfg.toNat % 2 ^ 20)) = true →
    exec .ppsOutFall s = .next (s.setPtp fun t => { t with ppsOut := false })) ∧
  (∀ s : State, (s.ptp.source = 5 → exec .ptpCtrlStep s = .next (s.stepClock (unitsOf s.ptp.setSec.toNat s.ptp.setNs.toNat))) ∧
    (s.ptp.source ≠ 5 → exec .ptpCtrlStep s = .next s)) ∧
  (∀ (port : Fin 2) (s : State), s.samplesFrom port = true → (s.port port).link = true →
    s.past s.ptp.lastReq (intervalNs s.ptp.logInterval) = true →
    exec (.delayReqTimer port) s = .next ((s.sendPtp port (.delayReq (s.ptp.cfg.getLsbD 3) s.ptp.reqSeq) (if s.ptp.cfg.getLsbD 3 then 54 else 44)).setPtp
      fun t => { t with reqSeq := t.reqSeq + 1, lastReq := s.now })) ∧
  (∀ (v : Word) (s : State), v.toNat % 8 ≤ 5 → v.toNat / 16 % 4 ≠ 3 → v.toNat / 64 % 4 ≠ 3 →
    exec (.ptpCfgWrite v) s = .next (s.setPtp fun t =>
      { t with cfg := v.setWidth 19, goodSamples := if v.toNat % 8 = t.source then t.goodSamples else 0,
               q := if decide (v.toNat % 8 ≠ s.ptp.source) && (v.toNat % 8 == 5 || s.ptp.source == 5) then
                   t.q.map fun x => { x with entries := [], gap := none } else t.q }))

/-- Reads of the PTP and event-recorder registers that change what the next reads answer (10 R355, R359; 13 R429). -/
def Obligations.LatchingReads : Prop :=
  (∀ s : State, exec .ptpTimeNsRead s = .next ((s.setPtp fun t => { t with latchSec := BitVec.ofNat 48 (secOf t.time) }).setSb fun b =>
    { b with data := [BitVec.ofNat 32 (nsOf s.ptp.time)] })) ∧
  (∀ s : State, exec .ptpPpsInNsRead s = .next ((s.setPtp fun t => { t with ppsInLatch := t.ppsInSec }).setSb fun b =>
    { b with data := [s.ptp.ppsInNs.setWidth 32] })) ∧
  (∀ (q : Fin 4) (s : State) (e : TsEntry), s.ptp.source = 5 → ((s.ptp.q.getD q.val {}).pop).2 = some e →
    exec (.ptpTsqData0Read q) s = .next ((s.setPtp fun t => { t with q := modAt t.q q.val fun _ => ((s.ptp.q.getD q.val {}).pop).1 }).setSb fun b =>
      { b with data := [BitVec.ofNat 32 (fieldAt e.bytes 0 4)] })) ∧
  (∀ s : State, exec .evrSkippedRead s = .next ((s.setEvr fun r => { r with skipped := 0 }).setSb fun b => { b with data := [s.evr.skipped] })) ∧
  (∀ s : State, exec .evrNewestLoRead s = .next ((s.setEvr fun r => { r with newestHi := BitVec.ofNat 32 (r.newest / 2 ^ 32) }).setSb fun b =>
    { b with data := [BitVec.ofNat 32 s.evr.newest] })) ∧
  (∀ s : State, exec .evrOldestLoRead s = .next ((s.setEvr fun r => { r with oldestHi := BitVec.ofNat 32 (r.oldest / 2 ^ 32) }).setSb fun b =>
    { b with data := [BitVec.ofNat 32 s.evr.oldest] }))

/-- The Lens cursor. Writing EVR_CURSOR_LO has no effect until EVR_CURSOR_HI is written; then the two words take effect as one. advance moves the cursor
by min(128, next - cursor), to_oldest to the oldest held number, to_newest to max(oldest, next - 128); a write of a number below the oldest moves it
to the oldest held number, a write of a number above next to next (13 R421). -/
def Obligations.TheLensCursorMoves : Prop :=
  (∀ (v : Word) (s : State), s.life.aonOn = true → s.busReady = true →
    exec (.registerWrite 0x40008 v) s = .next (s.setEvr fun r => { r with cursorLo := v })) ∧
  (∀ (v : Word) (s t : State), exec (.evrCursorHiWrite v) s = .next t →
    let n := v.toNat * 2 ^ 32 + s.evr.cursorLo.toNat
    (n < s.evr.oldest → t.evr.cursor = s.evr.oldest) ∧ (s.evr.oldest ≤ n → s.evr.next < n → t.evr.cursor = s.evr.next) ∧
    (s.evr.oldest ≤ n → n ≤ s.evr.next → t.evr.cursor = n)) ∧
  (∀ s : State,
    ∃ a b c d, exec .evrAdvance s = .next a ∧ a.evr.cursor = s.evr.cursor + min 128 (s.evr.next - s.evr.cursor) ∧
      exec .evrToOldest s = .next b ∧ b.evr.cursor = s.evr.oldest ∧
      exec .evrToNewest s = .next c ∧ c.evr.cursor = max s.evr.oldest (s.evr.next - 128) ∧
      exec .evrRefresh s = .next d ∧ d.evr.cursor = s.evr.cursor)

/-- The recorder: the Lens window fills, records that are due are copied to flash under tokens, a failed flash ring and a failed bank are retired, an
address's refusal ends (12 R400; 13 R416, R420, R424). -/
def Obligations.TheRecorderRuns : Prop :=
  (∀ (v : Word) (s : State), exec (.evrCursorHiWrite v) s = .next (s.setEvr fun r =>
    { r with cursor := if v.toNat * 2 ^ 32 + r.cursorLo.toNat < r.oldest then r.oldest
                       else if r.next < v.toNat * 2 ^ 32 + r.cursorLo.toNat then r.next else v.toNat * 2 ^ 32 + r.cursorLo.toNat,
             cursorLost := false }.startFill)) ∧
  (∀ s : State, s.evr.filling = true →
    exec .lensFillDone s = .next (s.setEvr fun r =>
      { r with filling := false, ready := true, window := (List.range 128).map fun i => s.evr.at_ (s.evr.cursor + i) })) ∧
  (∀ s : State, s.evrCopyDue = true →
    ((s.grantFor .evrCopy).isSome = true → exec .evrFlashCopy s = .next (
      (((s.copyHouse 7 (32 * s.evr.uncopied.length) 16).returnFor .evrCopy).metaProgram (32768 * ((s.evr.uncopied.length + 511) / 512))).setEvr Recorder.copy)) ∧
    (s.grantFor .evrCopy = none → (s.pwr.queue.any fun q => q.why == .evrCopy) = false → exec .evrFlashCopy s = .next (s.askTokens 0 12 .evrCopy))) ∧
  (∀ (bank : Nat) (s : State), s.evr.flashOk = true →
    exec (.evrMemFault true bank) s = .next ((s.setEvr fun r =>
      { r with flashOk := false, flash := [], intStatus := r.intStatus ||| 2, ring := if r.ondieOk then r.ring else [] }).logEv evEvrMemFault uEvr 1 0)) ∧
  (∀ (bank : Nat) (s : State), s.evr.ondieOk = true → bank < s.evr.banks →
    exec (.evrMemFault false bank) s = .next (
      let inBank := fun (e : EvRec) => e.seq / 64 % s.evr.banks == bank
      let t := s.setEvr fun r =>
        { r with banks := r.banks - 1, ring := r.ring.filter (fun e => !inBank e), openRec := false, intStatus := r.intStatus ||| 2 }
      (if t.evr.banks < 4 then (t.copyEvents).setEvr fun r => { { r with ondieOk := false }.copy with ring := [] } else t).logEv evEvrMemFault uEvr 0
        (s.evr.uncopied.filter inBank).length)) ∧
  (∀ (addr : Bytes) (s : State),
    exec (.authRefusalEnd addr) s = .next (s.setSec fun x => { x with track := x.track.filter fun t =>
      !(t.addr == addr && t.refuseFrom.any fun f => decide (f + 60 * oneSec ≤ s.now)) }))

/-- An occurrence is folded into the last record started when that record is still open and the occurrence has the same code, source, p0 and p1: repeat
grows by one, folded is set, and uptime_ns, wall_ns and holdover take the values of the new occurrence. An occurrence that would take repeat beyond
65,535 starts a new record, as one that differs does (13 R413). -/
def Obligations.EqualEventsAreFolded : Prop :=
  (∀ (s : State) (c : EvCode) (u p0 p1 : Nat) (e : EvRec), s.evr.on = true → s.evr.ring.getLast? = some e → s.evr.openRec = true → e.code = c.1 →
    e.src = u → e.p0 = BitVec.ofNat 32 p0 → e.p1 = BitVec.ofNat 32 p1 → e.rep < 65535 →
    (s.logEv c u p0 p1).evr = { s.evr with ring := s.evr.ring.dropLast ++
      [{ e with rep := e.rep + 1, folded := true, up := s.uptime, wall := s.wallNs, holdover := s.ptp.holdover }] }) ∧
  (∀ (s : State) (c : EvCode) (u p0 p1 : Nat) (e : EvRec), s.evr.on = true → s.evr.ring.getLast? = some e →
    (s.evr.openRec = false ∨ e.code ≠ c.1 ∨ e.src ≠ u ∨ e.p0 ≠ BitVec.ofNat 32 p0 ∨ e.p1 ≠ BitVec.ofNat 32 p1 ∨ 65535 ≤ e.rep) →
    (s.logEv c u p0 p1).evr = s.evr.start
      { seq := s.evr.next, code := c.1, sev := c.2, holdover := s.ptp.holdover, src := u, up := s.uptime, wall := s.wallNs,
        p0 := BitVec.ofNat 32 p0, p1 := BitVec.ofNat 32 p1 } s.now)

/-- The side-band: posted writes apply in order, SPI and I2C transactions read and write, the status byte shows pending and dropped writes, a wake in
progress and maintenance mode, a clock held low ends an I2C transaction. That an I2C write whose data ends inside a word is still open is the model's
choice (log 92) (15 R455, R456, R458). The side-band mailbox: a doorbell while a command is outstanding only sets its cause, a doorbell with a length
that does not fit completes the command with ST_INVALID (before every other check: the model's choice, log 59), a cancel before the commit point
cancels, any other only waits, one in idle or done is ignored (15 R461, R462). -/
def Obligations.TheSideBandAndItsMailboxRun : Prop :=
  ((∀ (s : State) (a : Nat) (v : Word) (r : List (Nat × Word)), s.sb.fifo = (a, v) :: r → s.busReady = true →
     exec .postedWriteApply s = .next ((s.setSb fun b => { b with fifo := r }).writeReg a v)) ∧
   (∀ (addr : Nat) (data : Bytes) (s : State), s.life.spiEn = true → s.life.aonOn = true →
     exec (.spiWrite addr data) s = .next (s.postWords data.length addr data)) ∧
   (∀ (addr words wait : Nat) (s : State), s.life.spiEn = true → s.life.aonOn = true →
     exec (.spiRead addr words wait) s = .next (
       ((s.setSb fun b => { b with spiBusy := true }).sideRead addr words (decide (32 < wait))).setSb fun b => { b with spiBusy := false })) ∧
   (∀ s : State, s.life.spiEn = true → s.life.aonOn = true →
     ∃ v : Nat, exec .spiStatus s = .next (s.setSb fun b => { b with status := BitVec.ofNat 8 v, dropSeen := false }) ∧
       v.testBit 0 = !s.sb.fifo.isEmpty ∧ v.testBit 1 = s.sb.dropSeen ∧
         v.testBit 2 = (s.pwr.psBusy && decide (s.pwr.psTarget = 0) && decide (s.pwr.ps ≠ 0)) ∧ v.testBit 3 = s.dmaOpen) ∧
   (∀ (dev : BitVec 7) (addr : Nat) (data : Bytes) (s : State), s.i2cMine dev = true →
     exec (.i2cWrite dev addr data) s = .next ((s.postWords data.length addr data).setSb fun b => { b with i2cBusy := decide (data.length % 4 ≠ 0) })) ∧
   (∀ (dev : BitVec 7) (addr words : Nat) (s : State), s.i2cMine dev = true →
     exec (.i2cRead dev addr words) s = .next (
       ((s.setSb fun b => { b with i2cBusy := true, sdaDriven := true }).sideRead addr words false).setSb fun b =>
         { b with i2cBusy := false, sdaDriven := false })) ∧
   (∀ s : State, exec .i2cSclTimeout s = .next (s.setSb fun b => { b with i2cBusy := false, sdaDriven := false }))) ∧
  ((∀ s : State, s.mbxOpen = true → s.mbx.mbxState = 1 →
     exec .mbx31Doorbell s = .next (s.setMbx fun m => { m with intStatus := m.intStatus ||| 2 })) ∧
   (∀ (s : State) (e : Entry), s.mbxOpen = true → s.mbx.mbxState ≠ 1 → e = parseEntry (readCells s.mbx.reqBuf 0 64) → s.mbx.reqLen.toNat ≤ 16384 →
     s.mbx.reqLen.toNat = 64 + e.reqLen →
     exec .mbx31Doorbell s = .next ((s.setMbx fun m =>
       { m with mbxState := 1, cancelled := false, cancelLate := false, cancelPending := false, tag := e.tag, cmds := m.cmds.admitOne }).admitCmd
         (newCmd .mbx 1 false e (readCells s.mbx.reqBuf 64 e.reqLen) 16320))) ∧
   (∀ (s : State) (e : Entry) (c : Cmd), s.mbxOpen = true → s.mbx.mbxState ≠ 1 → e = parseEntry (readCells s.mbx.reqBuf 0 64) →
     (16384 < s.mbx.reqLen.toNat ∨ s.mbx.reqLen.toNat ≠ 64 + e.reqLen) →
     let t := (s.setMbx fun m =>
       { m with mbxState := 1, cancelled := false, cancelLate := false, cancelPending := false, tag := e.tag, cmds := m.cmds.admitOne }).admitCmd (newCmd .mbx 1 false e [] 16320)
     t.cmd? s.mbx.admNext = some c → exec .mbx31Doorbell s = .next (t.fail c stInvalid)) ∧
   (∀ (s : State) (c : Cmd), (s.cmds.find? fun c => c.src == .mbx) = some c → s.mbx.mbxState = 1 →
     (c.cancellable = true → exec .mbx31Cancel s = .next ((s.setMbx fun m => { m with cancelPending := true }).cancel c)) ∧
     (c.cancellable = false → exec .mbx31Cancel s = .next (s.setMbx fun m => { m with cancelPending := true }))) ∧
   (∀ s : State, (s.mbx.mbxState ≠ 1 ∨ (s.cmds.find? fun c => c.src == .mbx) = none) → exec .mbx31Cancel s = .next s) ∧
   (∀ s : State, s.mbxOpen = false → exec .mbx31Doorbell s = .next s))

/-- A register write does what its access code says: RW takes the value, W1C clears the bits written as 1 and no other, RO ignores it; an unaligned
address is ignored (01 R16, R17; 15 R466-R468). -/
def Obligations.RegisterWrites : Prop :=
  (∀ (v : Word) (s : State), s.life.aonOn = true →
    exec (.registerWrite 0x0002C v) s = .next (s.setLife fun l => { l with scratch := v }) ∧
    exec (.registerWrite 0x00038 v) s = .next (s.setLife fun l => { l with intEnable := v.setWidth 5 }) ∧
    exec (.registerWrite 0x00000 v) s = .next s ∧ exec (.registerWrite 0x00010 v) s = .next s) ∧
  (∀ (v : Word) (s : State), s.life.aonOn = true →
    exec (.registerWrite 0x00034 v) s = .next (s.setLife fun l => { l with intStatus := w1c l.intStatus v }) ∧
      (∀ i : Nat, i < 5 → (w1c s.life.intStatus v).getLsbD i = (s.life.intStatus.getLsbD i && !v.getLsbD i))) ∧
  (∀ (addr : Nat) (v : Word) (s : State), addr % 4 ≠ 0 → exec (.registerWrite addr v) s = .next s) ∧
  (∀ (off : Nat) (v : Word) (s : State), off < 0x4000 → off % 4 = 0 → s.life.aonOn = true → s.busReady = true → s.mbx.mbxState ≠ 1 →
    exec (.registerWrite (0x18000 + off) v) s = .next (s.setMbx fun m => { m with reqBuf := writeCells m.reqBuf off (le 4 v.toNat) })) ∧
  (∀ (v : Word) (s : State), s.life.aonOn = true →
    exec (.clkMeasSelWrite v) s = .next (s.setLife fun l =>
      { l with measSel := v &&& 63, measKhz := 0, measValid := false, measAt := if v.toNat % 64 ≤ 59 then some l.clock else none })) ∧
  (∀ (kHz : Nat) (s : State), (s.life.measAt.any fun t => s.past t ms) = true → s.domainRuns s.life.measSel.toNat = some true →
    exec (.clkMeasDone kHz) s = .next (s.setLife fun l => { l with measKhz := kHz % 2 ^ 31, measValid := true, measAt := none })) ∧
  (∀ (kHz : Nat) (s : State), (s.life.measAt.any fun t => s.past t ms) = true → s.domainRuns s.life.measSel.toNat = some false →
    exec (.clkMeasDone kHz) s = .next (s.setLife fun l => { l with measKhz := 0, measValid := true, measAt := none }))

/-- What every step keeps, whatever command it runs: the part and its identity words stay, the queue loses its front command and nothing else, and powered
time moves only in a step on an empty queue, by 1,000 ns (the tick is the model's choice, log 2). -/
def Obligations.EveryStepKeepsIdentityQueueAndTime : Prop :=
  ∀ s t : State, step s = .next t →
    t.part = s.part ∧ t.ident = s.ident ∧ t.pending = s.pending.tail ∧
      t.life.clock = if s.pending = [] ∧ s.life.aonOn = true then s.life.clock + 1000 else s.life.clock

/-- Ledger 4 balances through every step: from any state whose granted and free tokens make up the budget, every step leads to one where they do (01 R34,
R36, R37). -/
def Obligations.EveryStepBalancesTheTokens : Prop :=
  ∀ s t : State, Safety.TokensBalance s.pwr → step s = .next t → Safety.TokensBalance t.pwr

/-- Every step keeps the byte memories of data DRAM and CP SRAM in their canonical form (the model's form of a memory, log 4). -/
def Obligations.EveryStepKeepsTheDramCanonical : Prop :=
  ∀ s t : State, memWf s.dram.mem = true → memWf s.dram.sram = true → step s = .next t → memWf t.dram.mem = true ∧ memWf t.dram.sram = true

/-- At reset the byte memories stand in their canonical form, the ledgers balance, no command waits, and the registers hold what the spec gives them for
reset: EVR_ALERT_SEV 3, PTP_CFG 0x78003, MBX_STATE 0, side-band and SPI enabled, cause power-on. -/
def Obligations.ResetMeetsTheInvariants : Prop :=
  Safety.MemOk State.reset ∧ Safety.TokensBalance State.reset.pwr ∧ Safety.ChargeBalance State.reset.land ∧
    (∀ p : Fin 2, Safety.CellsBalance (State.reset.port p)) ∧ State.reset.pending = [] ∧ State.reset.cmds = [] ∧
    State.reset.evr.alertSev.toNat = 3 ∧ State.reset.ptp.cfg = 0x00078003 ∧ State.reset.mbx.mbxState = 0 ∧ State.reset.mbx.rspLen = 0 ∧
    State.reset.sb.fifo = [] ∧ State.reset.life.cause = 1 ∧ State.reset.life.i2cEn = true ∧ State.reset.life.spiEn = true

/-- The capability words of the three variants (00 R5). -/
def Obligations.CapabilityWords : Prop :=
  Part.ta16.capUnits = 0x000000FF ∧ Part.ta16.capPop = 0x1E201204 ∧ Part.ta08.capUnits = 0x000000FF ∧ Part.ta08.capPop = 0x1D101202 ∧
    Part.sb08.capUnits = 0x000000F8 ∧ Part.sb08.capPop = 0x1D101202 ∧
    ∀ s : State, (s.readReg 0x04).2.toNat = s.part.capUnits ∧ (s.readReg 0x08).2.toNat = s.part.capPop

/-- Outside service no command of a mailbox does anything: it waits (14 R434, R436). -/
def Obligations.NothingRunsOutOfService : Prop :=
  ∀ (s : State) (c : Instr), s.running = false →
    ((∃ cp : Fin 8, c ∈ [.put cp, .get cp, .delete cp, .existsKey cp, .discardRange cp, .list cp, .mget cp, .putPart cp, .flush cp]) ∨
      c ∈ [.summary, .ksCreate, .ksDelete, .ksSetLimit, .format, .sanitize, .ident, .setFeature, .getFeature, .logRead, .logClear, .updOffer, .updBlock,
           .updActivate, .updConfirm, .attest, .certRead, .pair, .unpair, .setPolicy, .setLag, .resync, .mirrorState]) →
    exec c s = .next s

/-- A command that fails a check completes with the status of the first check it fails, and does nothing else; checks a to c of R88 come first, in that
order: ST_UNSUPPORTED, ST_SANITIZING (of a command admitted while FORMAT or SANITIZE ran, R111), ST_DENIED (03 R88; 02 R75). -/
def Obligations.ChecksComeFirst : Prop :=
  (∀ (s : State) (cp : Fin 8) (c : Cmd) (st : Status) (i : Instr) (op : Nat),
    (i, op) ∈ [(.put cp, 0x01), (.get cp, 0x02), (.delete cp, 0x03), (.existsKey cp, 0x04), (.discardRange cp, 0x05), (.list cp, 0x06), (.mget cp, 0x07),
               (.putPart cp, 0x08), (.flush cp, 0x09)] →
    s.frontOf cp.val op = some c → (op = 0x05 → c.payload.isSome = true) → s.precheck c = some st → exec i s = .next (s.fail c st)) ∧
  (∀ (s : State) (c : Cmd) (st : Status) (i : Instr) (op : Nat),
    (i, op) ∈ [(.summary, 0x0B), (.ksCreate, 0x10), (.ksDelete, 0x11), (.ksSetLimit, 0x12), (.format, 0x18), (.sanitize, 0x19), (.ident, 0x20),
               (.setFeature, 0x21), (.getFeature, 0x22), (.logRead, 0x28), (.logClear, 0x29), (.updOffer, 0x30), (.updBlock, 0x31), (.updActivate, 0x32),
               (.updConfirm, 0x33), (.attest, 0x38), (.certRead, 0x39), (.mirrorState, 0x41)] →
    s.supFront op = some c → s.precheck c = some st → exec i s = .next (s.fail c st)) ∧
  (∀ (s : State) (c : Cmd),
    (opServed s.part c.entry.opcode = false → s.precheck c = some stUnsupported) ∧
    (opServed s.part c.entry.opcode = true → s.modeServes c.entry.opcode = true → c.inSan = true → c.entry.opcode ∉ [0x0B, 0x20, 0x0A, 0x22] → s.precheck c = some stSanitizing) ∧
    (opServed s.part c.entry.opcode = true → s.modeServes c.entry.opcode = true → c.inSan = false → c.permitted = false →
      s.precheck c = some stDenied))

/-- A completion retires its command: it leaves the command table and no other command does; on the side-band mailbox MBX_STATE is 2, the done cause is
set and MBX31_RSP_LEN counts the completion entry of 32 bytes and the response (03 R85; 15 R461). -/
def Obligations.CompletionRetiresItsCommand : Prop :=
  (∀ (s : State) (c : Cmd) (st : Status) (r0 r1 : Nat) (b : Bytes), c.src ≠ .mirror →
    (s.complete c st r0 r1 b).cmds = s.cmds.filter (fun x => x.adm != c.adm)) ∧
  (∀ (s : State) (c : Cmd) (st : Status) (r0 r1 : Nat) (b : Bytes), c.src = .mbx → b.length ≤ 16320 →
    (s.complete c st r0 r1 b).mbx.mbxState = 2 ∧ (s.complete c st r0 r1 b).mbx.intStatus.getLsbD 0 = true ∧
      (s.complete c st r0 r1 b).mbx.rspLen.toNat = 32 + b.length)

/-- A byte memory keeps its canonical form under writes, reads back what was written, and keeps every other byte (log 4). -/
def Obligations.MemoryKeepsItsForm : Prop :=
  (∀ (m : List Host.Cell) (x : Nat) (b : Bytes), memWf m = true → memWf (writeCells m x b) = true ∧ readCells (writeCells m x b) x b.length = b) ∧
  (∀ (m : List Host.Cell) (x y : Nat) (b : Bytes), (y < x ∨ x + b.length ≤ y) → readCell (writeCells m x b) y = readCell m y) ∧
  (∀ m n : List Host.Cell, memWf m = true → memWf n = true → (∀ a : Nat, readCell m a = readCell n a) → m = n)

/-- The command and credit ledgers of a source balance through their own operations: an admission, a completion, a raised window (01 R34). -/
def Obligations.SourceLedgersBalance : Prop :=
  (∀ l : CmdLedger, Safety.CmdsBalance l → Safety.CmdsBalance l.admitOne ∧ (0 < l.outstanding → Safety.CmdsBalance l.finish)) ∧
  (∀ (l : CreditLedger) (asked free : Nat), Safety.CreditsBalance l → Safety.CreditsBalance (raise l asked free) ∧
    (raise l asked free).inUse ≤ max l.inUse asked ∧ (raise l asked free).inUse ≤ l.inUse + free)

/-- What a command can change, in any state and with any operands, lies within its reach: every other part of the state, the queue of waiting commands and
the powered time among them, reads as before. -/
def Obligations.EveryCommandHasItsReach : Prop :=
  ∀ (i : Instr) (s t : State), exec i s = .next t → Safety.Only (Safety.reach i) s t
end

