-- ==== Sys2Proof/Laws/FrameBase.lean ====
section
/-! SUPPORT. Frames: what an operation can change, said once for each operation.

`view m s` is `s` with the fields of the mask `m` blanked. Bit `i` of a mask is this field of `State` (0 `part`, 1 `ident`, 2 `stored`, 3 `life`, 4 `sb`, 5 `mbx`, 6 `tr`, 7 `cmds`, 8 `kv`, 9 `land`, 10 `prism`,
11 `jrn`, 12 `flash`, 13 `dram`, 14 `dma`, 15 `pwr`, 16 `hold`, 17 `thm`, 18 `mir`, 19 `ports`, 20 `ptp`, 21 `upd`, 22 `sec`,
23 `evr`, 24 `freeCtr`, 25 `pending`); bit 26 is the clock inside `life`, which bit 3 leaves in
view, and bit 27 is `mover`.
A frame lemma `view_<op>` says that `op` changes at most the fields of its mask, and so leaves every other field as it
was; `view_mono` widens a mask. -/

namespace Sys2Proof.Machine

/-- `d` where the bit is set, else `x`. -/
def pick {α : Type} (b : Bool) (d x : α) : α := if b then d else x

theorem pick_pick {α : Type} {a b : Bool} (h : b = true → a = true) (d x : α) : pick a d (pick b d x) = pick a d x := by
  cases a <;> cases b <;> simp_all [pick]

/-- The state with the fields of a mask blanked. -/
def view (m : Nat) (s : State) : State :=
  { part := pick (m.testBit 0) State.reset.part s.part
    ident := pick (m.testBit 1) State.reset.ident s.ident
    stored := pick (m.testBit 2) State.reset.stored s.stored
    life := pick (m.testBit 3) { clock := pick (m.testBit 26) 0 s.life.clock } s.life
    sb := pick (m.testBit 4) State.reset.sb s.sb
    mbx := pick (m.testBit 5) State.reset.mbx s.mbx
    tr := pick (m.testBit 6) State.reset.tr s.tr
    cmds := pick (m.testBit 7) State.reset.cmds s.cmds
    kv := pick (m.testBit 8) State.reset.kv s.kv
    land := pick (m.testBit 9) State.reset.land s.land
    prism := pick (m.testBit 10) State.reset.prism s.prism
    jrn := pick (m.testBit 11) State.reset.jrn s.jrn
    flash := pick (m.testBit 12) State.reset.flash s.flash
    dram := pick (m.testBit 13) State.reset.dram s.dram
    dma := pick (m.testBit 14) State.reset.dma s.dma
    mover := pick (m.testBit 27) State.reset.mover s.mover
    pwr := pick (m.testBit 15) State.reset.pwr s.pwr
    hold := pick (m.testBit 16) State.reset.hold s.hold
    thm := pick (m.testBit 17) State.reset.thm s.thm
    mir := pick (m.testBit 18) State.reset.mir s.mir
    ports := pick (m.testBit 19) State.reset.ports s.ports
    ptp := pick (m.testBit 20) State.reset.ptp s.ptp
    upd := pick (m.testBit 21) State.reset.upd s.upd
    sec := pick (m.testBit 22) State.reset.sec s.sec
    evr := pick (m.testBit 23) State.reset.evr s.evr
    freeCtr := pick (m.testBit 24) State.reset.freeCtr s.freeCtr
    pending := pick (m.testBit 25) State.reset.pending s.pending }

theorem sub_testBit {k m : Nat} (h : k &&& m = k) (i : Nat) (hk : k.testBit i = true) : m.testBit i = true := by
  have := congrArg (fun x => Nat.testBit x i) h
  simp [Nat.testBit_and, hk] at this; exact this

theorem view_view {k m : Nat} (h : k &&& m = k) (s : State) : view m (view k s) = view m s := by
  have q := sub_testBit h
  have l : pick (m.testBit 3) { clock := pick (m.testBit 26) 0 (pick (k.testBit 3) ({ clock := pick (k.testBit 26) 0 s.life.clock } : Life) s.life).clock }
      (pick (k.testBit 3) { clock := pick (k.testBit 26) 0 s.life.clock } s.life) = pick (m.testBit 3) { clock := pick (m.testBit 26) 0 s.life.clock } s.life := by
    have h3 := q 3
    have h26 := q 26
    cases hk3 : k.testBit 3 <;> cases hm3 : m.testBit 3 <;> cases hk26 : k.testBit 26 <;> cases hm26 : m.testBit 26 <;> simp_all [pick]
  simp only [view, pick_pick (q _), l]

theorem view_mono {k m : Nat} {s t : State} (h : k &&& m = k) (e : view k t = view k s) : view m t = view m s := by
  rw [← view_view h t, e, view_view h s]

theorem sub_trans {a b m : Nat} (h : a &&& b = a) (h' : b &&& m = b) : a &&& m = a := by
  rw [← h, Nat.and_assoc, h']

theorem view_raw_part (s : State) (x) {m : Nat} (h : 1 &&& m = 1) : view m { s with part := x } = view m s := by
  have := sub_testBit h 0 (by decide)
  simp [view, pick, this]

theorem view_raw_ident (s : State) (x) {m : Nat} (h : 2 &&& m = 2) : view m { s with ident := x } = view m s := by
  have := sub_testBit h 1 (by decide)
  simp [view, pick, this]

theorem view_raw_stored (s : State) (x) {m : Nat} (h : 4 &&& m = 4) : view m { s with stored := x } = view m s := by
  have := sub_testBit h 2 (by decide)
  simp [view, pick, this]

theorem view_raw_life (s : State) (x : Life) {m : Nat} (h : 8 &&& m = 8) (hc : x.clock = s.life.clock) : view m { s with life := x } = view m s := by
  have := sub_testBit h 3 (by decide)
  simp [view, pick, this, hc]

theorem view_raw_sb (s : State) (x) {m : Nat} (h : 16 &&& m = 16) : view m { s with sb := x } = view m s := by
  have := sub_testBit h 4 (by decide)
  simp [view, pick, this]

theorem view_raw_mbx (s : State) (x) {m : Nat} (h : 32 &&& m = 32) : view m { s with mbx := x } = view m s := by
  have := sub_testBit h 5 (by decide)
  simp [view, pick, this]

theorem view_raw_tr (s : State) (x) {m : Nat} (h : 64 &&& m = 64) : view m { s with tr := x } = view m s := by
  have := sub_testBit h 6 (by decide)
  simp [view, pick, this]

theorem view_raw_cmds (s : State) (x) {m : Nat} (h : 128 &&& m = 128) : view m { s with cmds := x } = view m s := by
  have := sub_testBit h 7 (by decide)
  simp [view, pick, this]

theorem view_raw_kv (s : State) (x) {m : Nat} (h : 256 &&& m = 256) : view m { s with kv := x } = view m s := by
  have := sub_testBit h 8 (by decide)
  simp [view, pick, this]

theorem view_raw_land (s : State) (x) {m : Nat} (h : 512 &&& m = 512) : view m { s with land := x } = view m s := by
  have := sub_testBit h 9 (by decide)
  simp [view, pick, this]

theorem view_raw_prism (s : State) (x) {m : Nat} (h : 1024 &&& m = 1024) : view m { s with prism := x } = view m s := by
  have := sub_testBit h 10 (by decide)
  simp [view, pick, this]

theorem view_raw_jrn (s : State) (x) {m : Nat} (h : 2048 &&& m = 2048) : view m { s with jrn := x } = view m s := by
  have := sub_testBit h 11 (by decide)
  simp [view, pick, this]

theorem view_raw_flash (s : State) (x) {m : Nat} (h : 4096 &&& m = 4096) : view m { s with flash := x } = view m s := by
  have := sub_testBit h 12 (by decide)
  simp [view, pick, this]

theorem view_raw_dram (s : State) (x) {m : Nat} (h : 8192 &&& m = 8192) : view m { s with dram := x } = view m s := by
  have := sub_testBit h 13 (by decide)
  simp [view, pick, this]

theorem view_raw_dma (s : State) (x) {m : Nat} (h : 16384 &&& m = 16384) : view m { s with dma := x } = view m s := by
  have := sub_testBit h 14 (by decide)
  simp [view, pick, this]

theorem view_raw_pwr (s : State) (x) {m : Nat} (h : 32768 &&& m = 32768) : view m { s with pwr := x } = view m s := by
  have := sub_testBit h 15 (by decide)
  simp [view, pick, this]

theorem view_raw_hold (s : State) (x) {m : Nat} (h : 65536 &&& m = 65536) : view m { s with hold := x } = view m s := by
  have := sub_testBit h 16 (by decide)
  simp [view, pick, this]

theorem view_raw_thm (s : State) (x) {m : Nat} (h : 131072 &&& m = 131072) : view m { s with thm := x } = view m s := by
  have := sub_testBit h 17 (by decide)
  simp [view, pick, this]

theorem view_raw_mir (s : State) (x) {m : Nat} (h : 262144 &&& m = 262144) : view m { s with mir := x } = view m s := by
  have := sub_testBit h 18 (by decide)
  simp [view, pick, this]

theorem view_raw_ports (s : State) (x) {m : Nat} (h : 524288 &&& m = 524288) : view m { s with ports := x } = view m s := by
  have := sub_testBit h 19 (by decide)
  simp [view, pick, this]

theorem view_raw_ptp (s : State) (x) {m : Nat} (h : 1048576 &&& m = 1048576) : view m { s with ptp := x } = view m s := by
  have := sub_testBit h 20 (by decide)
  simp [view, pick, this]

theorem view_raw_upd (s : State) (x) {m : Nat} (h : 2097152 &&& m = 2097152) : view m { s with upd := x } = view m s := by
  have := sub_testBit h 21 (by decide)
  simp [view, pick, this]

theorem view_raw_sec (s : State) (x) {m : Nat} (h : 4194304 &&& m = 4194304) : view m { s with sec := x } = view m s := by
  have := sub_testBit h 22 (by decide)
  simp [view, pick, this]

theorem view_raw_evr (s : State) (x) {m : Nat} (h : 8388608 &&& m = 8388608) : view m { s with evr := x } = view m s := by
  have := sub_testBit h 23 (by decide)
  simp [view, pick, this]

theorem view_raw_freeCtr (s : State) (x) {m : Nat} (h : 16777216 &&& m = 16777216) : view m { s with freeCtr := x } = view m s := by
  have := sub_testBit h 24 (by decide)
  simp [view, pick, this]

theorem view_raw_pending (s : State) (x) {m : Nat} (h : 33554432 &&& m = 33554432) : view m { s with pending := x } = view m s := by
  have := sub_testBit h 25 (by decide)
  simp [view, pick, this]

theorem view_raw_mover (s : State) (x) {m : Nat} (h : 134217728 &&& m = 134217728) : view m { s with mover := x } = view m s := by
  have := sub_testBit h 27 (by decide)
  simp [view, pick, this]

theorem view_foldl {α : Type} (m : Nat) (f : State → α → State) (hf : ∀ s a, view m (f s a) = view m s) (l : List α) (s : State) : view m (l.foldl f s) = view m s := by
  induction l generalizing s with
  | nil => rfl
  | cons a r ih => rw [List.foldl_cons, ih, hf]

theorem view_foldlp {α β : Type} (m : Nat) (f : State × β → α → State × β) (hf : ∀ s a, view m (f s a).1 = view m s.1) (l : List α) (s : State × β) :
    view m (l.foldl f s).1 = view m s.1 := by
  induction l generalizing s with
  | nil => rfl
  | cons a r ih => rw [List.foldl_cons, ih, hf]

theorem view_acc {α β : Type} (m : Nat) (f : β × State → α → β × State) (hf : ∀ b a, view m (f b a).2 = view m b.2) (l : List α) (s : β × State) :
    view m (l.foldl f s).2 = view m s.2 := by
  induction l generalizing s with
  | nil => rfl
  | cons a r ih => rw [List.foldl_cons, ih, hf]

theorem ite_view {c : Prop} [Decidable c] (m : Nat) (a b : State) : view m (if c then a else b) = if c then view m a else view m b := by split <;> rfl

@[simp] theorem outState_next (t s : State) : outState (.next t) s = t := rfl

theorem of_view_part {m : Nat} {s t : State} (h : view m t = view m s) (hb : m.testBit 0 = false) : t.part = s.part := by
  have e := congrArg State.part h
  simpa only [view, pick, hb, Bool.false_eq_true, if_false] using e

theorem of_view_ident {m : Nat} {s t : State} (h : view m t = view m s) (hb : m.testBit 1 = false) : t.ident = s.ident := by
  have e := congrArg State.ident h
  simpa only [view, pick, hb, Bool.false_eq_true, if_false] using e

theorem of_view_stored {m : Nat} {s t : State} (h : view m t = view m s) (hb : m.testBit 2 = false) : t.stored = s.stored := by
  have e := congrArg State.stored h
  simpa only [view, pick, hb, Bool.false_eq_true, if_false] using e

theorem of_view_life {m : Nat} {s t : State} (h : view m t = view m s) (hb : m.testBit 3 = false) : t.life = s.life := by
  have e := congrArg State.life h
  simpa only [view, pick, hb, Bool.false_eq_true, if_false] using e

theorem of_view_sb {m : Nat} {s t : State} (h : view m t = view m s) (hb : m.testBit 4 = false) : t.sb = s.sb := by
  have e := congrArg State.sb h
  simpa only [view, pick, hb, Bool.false_eq_true, if_false] using e

theorem of_view_mbx {m : Nat} {s t : State} (h : view m t = view m s) (hb : m.testBit 5 = false) : t.mbx = s.mbx := by
  have e := congrArg State.mbx h
  simpa only [view, pick, hb, Bool.false_eq_true, if_false] using e

theorem of_view_tr {m : Nat} {s t : State} (h : view m t = view m s) (hb : m.testBit 6 = false) : t.tr = s.tr := by
  have e := congrArg State.tr h
  simpa only [view, pick, hb, Bool.false_eq_true, if_false] using e

theorem of_view_cmds {m : Nat} {s t : State} (h : view m t = view m s) (hb : m.testBit 7 = false) : t.cmds = s.cmds := by
  have e := congrArg State.cmds h
  simpa only [view, pick, hb, Bool.false_eq_true, if_false] using e

theorem of_view_kv {m : Nat} {s t : State} (h : view m t = view m s) (hb : m.testBit 8 = false) : t.kv = s.kv := by
  have e := congrArg State.kv h
  simpa only [view, pick, hb, Bool.false_eq_true, if_false] using e

theorem of_view_land {m : Nat} {s t : State} (h : view m t = view m s) (hb : m.testBit 9 = false) : t.land = s.land := by
  have e := congrArg State.land h
  simpa only [view, pick, hb, Bool.false_eq_true, if_false] using e

theorem of_view_prism {m : Nat} {s t : State} (h : view m t = view m s) (hb : m.testBit 10 = false) : t.prism = s.prism := by
  have e := congrArg State.prism h
  simpa only [view, pick, hb, Bool.false_eq_true, if_false] using e

theorem of_view_jrn {m : Nat} {s t : State} (h : view m t = view m s) (hb : m.testBit 11 = false) : t.jrn = s.jrn := by
  have e := congrArg State.jrn h
  simpa only [view, pick, hb, Bool.false_eq_true, if_false] using e

theorem of_view_flash {m : Nat} {s t : State} (h : view m t = view m s) (hb : m.testBit 12 = false) : t.flash = s.flash := by
  have e := congrArg State.flash h
  simpa only [view, pick, hb, Bool.false_eq_true, if_false] using e

theorem of_view_dram {m : Nat} {s t : State} (h : view m t = view m s) (hb : m.testBit 13 = false) : t.dram = s.dram := by
  have e := congrArg State.dram h
  simpa only [view, pick, hb, Bool.false_eq_true, if_false] using e

theorem of_view_dma {m : Nat} {s t : State} (h : view m t = view m s) (hb : m.testBit 14 = false) : t.dma = s.dma := by
  have e := congrArg State.dma h
  simpa only [view, pick, hb, Bool.false_eq_true, if_false] using e

theorem of_view_pwr {m : Nat} {s t : State} (h : view m t = view m s) (hb : m.testBit 15 = false) : t.pwr = s.pwr := by
  have e := congrArg State.pwr h
  simpa only [view, pick, hb, Bool.false_eq_true, if_false] using e

theorem of_view_hold {m : Nat} {s t : State} (h : view m t = view m s) (hb : m.testBit 16 = false) : t.hold = s.hold := by
  have e := congrArg State.hold h
  simpa only [view, pick, hb, Bool.false_eq_true, if_false] using e

theorem of_view_thm {m : Nat} {s t : State} (h : view m t = view m s) (hb : m.testBit 17 = false) : t.thm = s.thm := by
  have e := congrArg State.thm h
  simpa only [view, pick, hb, Bool.false_eq_true, if_false] using e

theorem of_view_mir {m : Nat} {s t : State} (h : view m t = view m s) (hb : m.testBit 18 = false) : t.mir = s.mir := by
  have e := congrArg State.mir h
  simpa only [view, pick, hb, Bool.false_eq_true, if_false] using e

theorem of_view_ports {m : Nat} {s t : State} (h : view m t = view m s) (hb : m.testBit 19 = false) : t.ports = s.ports := by
  have e := congrArg State.ports h
  simpa only [view, pick, hb, Bool.false_eq_true, if_false] using e

theorem of_view_ptp {m : Nat} {s t : State} (h : view m t = view m s) (hb : m.testBit 20 = false) : t.ptp = s.ptp := by
  have e := congrArg State.ptp h
  simpa only [view, pick, hb, Bool.false_eq_true, if_false] using e

theorem of_view_upd {m : Nat} {s t : State} (h : view m t = view m s) (hb : m.testBit 21 = false) : t.upd = s.upd := by
  have e := congrArg State.upd h
  simpa only [view, pick, hb, Bool.false_eq_true, if_false] using e

theorem of_view_sec {m : Nat} {s t : State} (h : view m t = view m s) (hb : m.testBit 22 = false) : t.sec = s.sec := by
  have e := congrArg State.sec h
  simpa only [view, pick, hb, Bool.false_eq_true, if_false] using e

theorem of_view_evr {m : Nat} {s t : State} (h : view m t = view m s) (hb : m.testBit 23 = false) : t.evr = s.evr := by
  have e := congrArg State.evr h
  simpa only [view, pick, hb, Bool.false_eq_true, if_false] using e

theorem of_view_freeCtr {m : Nat} {s t : State} (h : view m t = view m s) (hb : m.testBit 24 = false) : t.freeCtr = s.freeCtr := by
  have e := congrArg State.freeCtr h
  simpa only [view, pick, hb, Bool.false_eq_true, if_false] using e

theorem of_view_pending {m : Nat} {s t : State} (h : view m t = view m s) (hb : m.testBit 25 = false) : t.pending = s.pending := by
  have e := congrArg State.pending h
  simpa only [view, pick, hb, Bool.false_eq_true, if_false] using e

theorem of_view_mover {m : Nat} {s t : State} (h : view m t = view m s) (hb : m.testBit 27 = false) : t.mover = s.mover := by
  have e := congrArg State.mover h
  simpa only [view, pick, hb, Bool.false_eq_true, if_false] using e

theorem of_view_clock {m : Nat} {s t : State} (h : view m t = view m s) (hb : m.testBit 26 = false) : t.life.clock = s.life.clock := by
  have e := congrArg (fun x => State.life x |>.clock) h
  cases h3 : m.testBit 3 <;> simp_all [view, pick]

end Sys2Proof.Machine
end

