-- ==== Sys2Proof/Laws/FrameOps.lean ====
section
/-! SUPPORT. Frames of the queues, the tables and the completion of a command. The masks are those of `Laws/FrameBase.lean`. -/

namespace Sys2Proof.Machine

@[simp] theorem view_freeNext (s : State) {m : Nat} (h : 16777216 &&& m = 16777216) : view m (s.freeNext) = view m s := by
  unfold State.freeNext; exact view_raw_freeCtr s _ h

@[simp] theorem view_freeSkip (s : State) (n : Nat) {m : Nat} (h : 16777216 &&& m = 16777216) : view m (s.freeSkip n) = view m s := by
  unfold State.freeSkip; exact view_raw_freeCtr s _ h

@[simp] theorem view_logEv (s : State) (c : EvCode) (src p0 p1 : Nat) {m : Nat} (h : 8388608 &&& m = 8388608) : view m (s.logEv c src p0 p1) = view m s := by
  unfold State.logEv; dsimp only; split
  · exact view_raw_evr s _ h
  · exact view_raw_evr s _ h

@[simp] theorem view_setEvr (s : State) (f : Recorder → Recorder) {m : Nat} (h : 8388608 &&& m = 8388608) : view m (s.setEvr f) = view m s := by
  unfold State.setEvr; exact view_raw_evr s _ h

@[simp] theorem view_setPwr (s : State) (f : Power → Power) {m : Nat} (h : 32768 &&& m = 32768) : view m (s.setPwr f) = view m s := by
  unfold State.setPwr; exact view_raw_pwr s _ h

@[simp] theorem view_setHold (s : State) (f : Holdup → Holdup) {m : Nat} (h : 65536 &&& m = 65536) : view m (s.setHold f) = view m s := by
  unfold State.setHold; exact view_raw_hold s _ h

@[simp] theorem view_setThm (s : State) (f : Thermal → Thermal) {m : Nat} (h : 131072 &&& m = 131072) : view m (s.setThm f) = view m s := by
  unfold State.setThm; exact view_raw_thm s _ h

@[simp] theorem view_setLand (s : State) (f : Landing → Landing) {m : Nat} (h : 512 &&& m = 512) : view m (s.setLand f) = view m s := by
  unfold State.setLand; exact view_raw_land s _ h

@[simp] theorem view_setKv (s : State) (f : Kv → Kv) {m : Nat} (h : 256 &&& m = 256) : view m (s.setKv f) = view m s := by
  unfold State.setKv; exact view_raw_kv s _ h

@[simp] theorem view_setPrism (s : State) (f : Prism → Prism) {m : Nat} (h : 1024 &&& m = 1024) : view m (s.setPrism f) = view m s := by
  unfold State.setPrism; exact view_raw_prism s _ h

@[simp] theorem view_setJrn (s : State) (f : Journal → Journal) {m : Nat} (h : 2048 &&& m = 2048) : view m (s.setJrn f) = view m s := by
  unfold State.setJrn; exact view_raw_jrn s _ h

@[simp] theorem view_setFlash (s : State) (f : Flash → Flash) {m : Nat} (h : 4096 &&& m = 4096) : view m (s.setFlash f) = view m s := by
  unfold State.setFlash; exact view_raw_flash s _ h

@[simp] theorem view_setDram (s : State) (f : Dram → Dram) {m : Nat} (h : 8192 &&& m = 8192) : view m (s.setDram f) = view m s := by
  unfold State.setDram; exact view_raw_dram s _ h

@[simp] theorem view_setTr (s : State) (f : Transport → Transport) {m : Nat} (h : 64 &&& m = 64) : view m (s.setTr f) = view m s := by
  unfold State.setTr; exact view_raw_tr s _ h

@[simp] theorem view_setMbx (s : State) (f : Mailbox → Mailbox) {m : Nat} (h : 32 &&& m = 32) : view m (s.setMbx f) = view m s := by
  unfold State.setMbx; exact view_raw_mbx s _ h

@[simp] theorem view_setMir (s : State) (f : Mirror → Mirror) {m : Nat} (h : 262144 &&& m = 262144) : view m (s.setMir f) = view m s := by
  unfold State.setMir; exact view_raw_mir s _ h

@[simp] theorem view_setPtp (s : State) (f : Ptp → Ptp) {m : Nat} (h : 1048576 &&& m = 1048576) : view m (s.setPtp f) = view m s := by
  unfold State.setPtp; exact view_raw_ptp s _ h

@[simp] theorem view_setUpd (s : State) (f : Update → Update) {m : Nat} (h : 2097152 &&& m = 2097152) : view m (s.setUpd f) = view m s := by
  unfold State.setUpd; exact view_raw_upd s _ h

@[simp] theorem view_setSec (s : State) (f : Security → Security) {m : Nat} (h : 4194304 &&& m = 4194304) : view m (s.setSec f) = view m s := by
  unfold State.setSec; exact view_raw_sec s _ h

@[simp] theorem view_setLife (s : State) (f : Life → Life) {m : Nat} (h : 8 &&& m = 8) (hc : (f s.life).clock = s.life.clock) : view m (s.setLife f) = view m s := by
  unfold State.setLife; exact view_raw_life s _ h hc

@[simp] theorem view_setSb (s : State) (f : SideBand → SideBand) {m : Nat} (h : 16 &&& m = 16) : view m (s.setSb f) = view m s := by
  unfold State.setSb; exact view_raw_sb s _ h

@[simp] theorem view_setStored (s : State) (f : Stored → Stored) {m : Nat} (h : 4 &&& m = 4) : view m (s.setStored f) = view m s := by
  unfold State.setStored; exact view_raw_stored s _ h

@[simp] theorem view_setDma (s : State) (f : Dma → Dma) {m : Nat} (h : 16384 &&& m = 16384) : view m (s.setDma f) = view m s := by
  unfold State.setDma; exact view_raw_dma s _ h

@[simp] theorem view_setMover (s : State) (f : Mover → Mover) {m : Nat} (h : 134217728 &&& m = 134217728) : view m (s.setMover f) = view m s := by
  unfold State.setMover; exact view_raw_mover s _ h

@[simp] theorem view_setPort (s : State) (p : Fin 2) (f : Port → Port) {m : Nat} (h : 524288 &&& m = 524288) : view m (s.setPort p f) = view m s := by
  unfold State.setPort; exact view_raw_ports s _ h

@[simp] theorem view_setCmds (s : State) (f : List Cmd → List Cmd) {m : Nat} (h : 128 &&& m = 128) : view m (s.setCmds f) = view m s := by
  unfold State.setCmds; exact view_raw_cmds s _ h

@[simp] theorem view_setCmd (s : State) (adm : Nat) (f : Cmd → Cmd) {m : Nat} (hm : 128 &&& m = 128) : view m (State.setCmd s adm f) = view m s := by
  refine view_mono hm ?_
  unfold State.setCmd
  simp

@[simp] theorem view_setSpaces (s : State) (sel : KeySpace → Bool) (f : KeySpace → KeySpace) {m : Nat} (hm : 256 &&& m = 256) : view m (State.setSpaces s sel f) = view m s := by
  refine view_mono hm ?_
  unfold State.setSpaces
  simp

@[simp] theorem view_setSpace (s : State) (ks : Nat) (f : KeySpace → KeySpace) {m : Nat} (hm : 256 &&& m = 256) : view m (State.setSpace s ks f) = view m s := by
  refine view_mono hm ?_
  unfold State.setSpace
  simp

@[simp] theorem view_glbInt (s : State) (k : Nat) {m : Nat} (hm : 8 &&& m = 8) : view m (State.glbInt s k) = view m s := by
  refine view_mono hm ?_
  unfold State.glbInt
  simp

@[simp] theorem view_pwrInt (s : State) (k : Nat) {m : Nat} (hm : 32768 &&& m = 32768) : view m (State.pwrInt s k) = view m s := by
  refine view_mono hm ?_
  unfold State.pwrInt
  simp

@[simp] theorem view_macInt (s : State) (p : Fin 2) (k : Nat) {m : Nat} (hm : 524288 &&& m = 524288) : view m (State.macInt s p k) = view m s := by
  refine view_mono hm ?_
  unfold State.macInt
  simp

@[simp] theorem view_wake (s : State) {m : Nat} (hm : 32768 &&& m = 32768) : view m (State.wake s) = view m s := by
  refine view_mono hm ?_
  unfold State.wake
  dsimp only; (repeat' split) <;> simp

@[simp] theorem view_settleTokens (s : State) {m : Nat} (hm : 32768 &&& m = 32768) : view m (State.settleTokens s) = view m s := by
  refine view_mono hm ?_
  unfold State.settleTokens
  simp

@[simp] theorem view_grantReq (s : State) (r : TokReq) {m : Nat} (hm : 32768 &&& m = 32768) : view m (State.grantReq s r) = view m s := by
  refine view_mono hm ?_
  unfold State.grantReq
  simp

@[simp] theorem view_examine (n : Nat) (s : State) {m : Nat} (h : 32768 &&& m = 32768) : view m (State.examine n s) = view m s := by
  induction n generalizing s with
  | zero => rfl
  | succ n ih => unfold State.examine; split <;> simp [ih, h]

@[simp] theorem view_arbitrate (s : State) {m : Nat} (hm : 32768 &&& m = 32768) : view m (State.arbitrate s) = view m s := by
  refine view_mono hm ?_
  unfold State.arbitrate
  simp

@[simp] theorem view_askTokens (s : State) (cls n : Nat) (why : Purpose) {m : Nat} (hm : 32768 &&& m = 32768) : view m (State.askTokens s cls n why) = view m s := by
  refine view_mono hm ?_
  unfold State.askTokens
  dsimp only; split <;> simp

@[simp] theorem view_returnGrant (s : State) (id : Nat) {m : Nat} (hm : 32768 &&& m = 32768) : view m (State.returnGrant s id) = view m s := by
  refine view_mono hm ?_
  unfold State.returnGrant
  split <;> simp

@[simp] theorem view_returnFor (s : State) (why : Purpose) {m : Nat} (hm : 32768 &&& m = 32768) : view m (State.returnFor s why) = view m s := by
  refine view_mono hm ?_
  unfold State.returnFor
  dsimp only; split <;> simp

@[simp] theorem view_under (s : State) (n : Nat) (why : Purpose) (f : State → State) {m : Nat} (hm : 32768 &&& m = 32768) (hf : ∀ t, view m (f t) = view m t) : view m (s.under n why f) = view m s := by
  unfold State.under
  rw [view_returnFor _ _ hm, hf, view_askTokens _ _ _ _ hm]

@[simp] theorem view_budgetChange (s : State) (reason : Nat) {m : Nat} (hm : 8552448 &&& m = 8552448) : view m (State.budgetChange s reason) = view m s := by
  refine view_mono hm ?_
  unfold State.budgetChange
  simp

@[simp] theorem view_resizeLanding (s : State) {m : Nat} (hm : 8389120 &&& m = 8389120) : view m (State.resizeLanding s) = view m s := by
  refine view_mono hm ?_
  unfold State.resizeLanding
  dsimp only; (repeat' split) <;> simp

@[simp] theorem view_holdupBudget (s : State) (usable : Nat) (reason : Nat) {m : Nat} (hm : 8421888 &&& m = 8421888) : view m (State.holdupBudget s usable reason) = view m s := by
  refine view_mono hm ?_
  unfold State.holdupBudget
  simp

@[simp] theorem view_resetEnds (s : State) {m : Nat} (hm : 8552960 &&& m = 8552960) : view m (State.resetEnds s) = view m s := by
  refine view_mono hm ?_
  unfold State.resetEnds
  simp

@[simp] theorem view_bankState (s : State) (st : BankSt) {m : Nat} (hm : 8487424 &&& m = 8487424) : view m (State.bankState s st) = view m s := by
  refine view_mono hm ?_
  unfold State.bankState
  split <;> simp

@[simp] theorem view_powerSnapshot (s : State) {m : Nat} (hm : 32768 &&& m = 32768) : view m (State.powerSnapshot s) = view m s := by
  refine view_mono hm ?_
  unfold State.powerSnapshot
  simp

@[simp] theorem view_sendFrames (s : State) (p : Fin 2) (addr : Bytes) (pcp : Fin 8) (dscp : Nat) (bodies : List Nat) (msg : Msg) {m : Nat} (hm : 524288 &&& m = 524288) : view m (State.sendFrames s p addr pcp dscp bodies msg) = view m s := by
  refine view_mono hm ?_
  unfold State.sendFrames
  split <;> simp

@[simp] theorem view_sendIp (s : State) (p : Fin 2) (addr : Bytes) (pcp : Fin 8) (dscp n : Nat) (msg : Msg) {m : Nat} (hm : 524288 &&& m = 524288) : view m (State.sendIp s p addr pcp dscp n msg) = view m s := by
  refine view_mono hm ?_
  unfold State.sendIp
  simp

@[simp] theorem view_sendSkiff (s : State) (rx : Rx) (dg : Bytes) {m : Nat} (hm : 524288 &&& m = 524288) : view m (State.sendSkiff s rx dg) = view m s := by
  refine view_mono hm ?_
  unfold State.sendSkiff
  simp

@[simp] theorem view_sendRoce (s : State) (rx : Rx) (qp : Nat) (op : RoceOp) (payload : Nat) {m : Nat} (hm : 524288 &&& m = 524288) : view m (State.sendRoce s rx qp op payload) = view m s := by
  refine view_mono hm ?_
  unfold State.sendRoce
  simp

@[simp] theorem view_sendRsp (s : State) (x : Session) (seq : Nat) (c : Completion) (flags : Nat) {m : Nat} (hm : 524288 &&& m = 524288) : view m (State.sendRsp s x seq c flags) = view m s := by
  refine view_mono hm ?_
  unfold State.sendRsp
  repeat' (first | (simp [*]; done) | split | rw [view_foldl] | rw [view_foldlp] | intro _ _ | simp)

@[simp] theorem view_reject (s : State) (rx : Rx) (sid seq ack credit cookie reason : Nat) {m : Nat} (hm : 524352 &&& m = 524352) : view m (State.reject s rx sid seq ack credit cookie reason) = view m s := by
  refine view_mono hm ?_
  unfold State.reject
  simp

@[simp] theorem view_sendWhole (s : State) (p : Fin 2) (addr : Bytes) (pcp : Fin 8) (n : Nat) (msg : Msg) {m : Nat} (hm : 524288 &&& m = 524288) : view m (State.sendWhole s p addr pcp n msg) = view m s := by
  refine view_mono hm ?_
  unfold State.sendWhole
  simp

@[simp] theorem view_mirrorTx (s : State) (dg : Bytes) {m : Nat} (hm : 786432 &&& m = 786432) : view m (State.mirrorTx s dg) = view m s := by
  refine view_mono hm ?_
  unfold State.mirrorTx
  split <;> simp

@[simp] theorem view_mirrorPlain (s : State) (typ ks : Nat) (key body : Bytes) {m : Nat} (hm : 786432 &&& m = 786432) : view m (State.mirrorPlain s typ ks key body) = view m s := by
  refine view_mono hm ?_
  unfold State.mirrorPlain
  simp

@[simp] theorem view_mirrorPump (s : State) {m : Nat} (hm : 786432 &&& m = 786432) : view m (State.mirrorPump s) = view m s := by
  refine view_mono hm ?_
  unfold State.mirrorPump
  repeat' (first | (simp [*]; done) | split | rw [view_foldl] | rw [view_foldlp] | intro _ _ | simp)

@[simp] theorem view_mirrorQueue (s : State) (f : Nat → MSent) {m : Nat} (hm : 786432 &&& m = 786432) : view m (State.mirrorQueue s f) = view m s := by
  refine view_mono hm ?_
  unfold State.mirrorQueue
  simp

@[simp] theorem view_mirrorTxOn (s : State) (p : Fin 2) (dg : Bytes) {m : Nat} (hm : 786432 &&& m = 786432) : view m (State.mirrorTxOn s p dg) = view m s := by
  refine view_mono hm ?_
  unfold State.mirrorTxOn
  split <;> simp

@[simp] theorem view_mirrorRefuse (s : State) (ks lseq : Nat) (st : BitVec 16) {m : Nat} (hm : 786432 &&& m = 786432) : view m (State.mirrorRefuse s ks lseq st) = view m s := by
  refine view_mono hm ?_
  unfold State.mirrorRefuse
  simp

@[simp] theorem view_sendClose (s : State) {m : Nat} (hm : 786432 &&& m = 786432) : view m (State.sendClose s) = view m s := by
  refine view_mono hm ?_
  unfold State.sendClose
  simp

@[simp] theorem view_mirrorAdvance (s : State) {m : Nat} (hm : 786432 &&& m = 786432) : view m (State.mirrorAdvance s) = view m s := by
  refine view_mono hm ?_
  unfold State.mirrorAdvance
  repeat' (first | (simp [*]; done) | split | rw [view_foldl] | rw [view_foldlp] | intro _ _ | simp)

@[simp] theorem view_promote (s : State) (ch adm : Nat) (l : List MDesc) {m : Nat} (hm : 134217728 &&& m = 134217728) : view m (State.promote s ch adm l) = view m s := by
  refine view_mono hm ?_
  unfold State.promote
  split <;> simp

@[simp] theorem view_moved (s : State) (adm : Nat) {m : Nat} (hm : 134217728 &&& m = 134217728) : view m (State.moved s adm) = view m s := by
  refine view_mono hm ?_
  unfold State.moved
  simp

@[simp] theorem view_stopMove (s : State) (adm : Nat) {m : Nat} (hm : 134217728 &&& m = 134217728) : view m (State.stopMove s adm) = view m s := by
  refine view_mono hm ?_
  unfold State.stopMove
  simp

@[simp] theorem view_copyOn (s : State) (ch : Nat) (l : List MDesc) {m : Nat} (hm : 134217728 &&& m = 134217728) : view m (State.copyOn s ch l) = view m s := by
  refine view_mono hm ?_
  unfold State.copyOn
  split <;> simp

@[simp] theorem view_failChain (s : State) (c : MChain) (err : Nat) {m : Nat} (hm : 142606336 &&& m = 142606336) : view m (State.failChain s c err) = view m s := by
  refine view_mono hm ?_
  unfold State.failChain
  simp

@[simp] theorem view_failMoves (s : State) (c : Cmd) {m : Nat} (hm : 142606336 &&& m = 142606336) : view m (State.failMoves s c) = view m s := by
  refine view_mono hm ?_
  unfold State.failMoves
  repeat' (first | (simp [*]; done) | split | rw [view_foldl] | rw [view_foldlp] | intro _ _ | simp)

@[simp] theorem view_copyPayload (s : State) (c : Cmd) (payload : Bytes) {m : Nat} (hm : 134217728 &&& m = 134217728) : view m (State.copyPayload s c payload) = view m s := by
  refine view_mono hm ?_
  unfold State.copyPayload
  split <;> simp

@[simp] theorem view_raiseWindows (s : State) {m : Nat} (hm : 64 &&& m = 64) : view m (State.raiseWindows s) = view m s := by
  refine view_mono hm ?_
  unfold State.raiseWindows
  repeat' (first | (simp [*]; done) | split | rw [view_foldl] | rw [view_foldlp] | intro _ _ | simp)

@[simp] theorem view_freeSession (s : State) (uid : Nat) {m : Nat} (hm : 64 &&& m = 64) : view m (State.freeSession s uid) = view m s := by
  refine view_mono hm ?_
  unfold State.freeSession
  split <;> simp

@[simp] theorem view_endQp (s : State) (uid : Nat) {m : Nat} (hm : 524352 &&& m = 524352) : view m (State.endQp s uid) = view m s := by
  refine view_mono hm ?_
  unfold State.endQp
  (repeat' split) <;> simp

@[simp] theorem view_settleSession (s : State) (uid : Nat) {m : Nat} (hm : 64 &&& m = 64) : view m (State.settleSession s uid) = view m s := by
  refine view_mono hm ?_
  unfold State.settleSession
  (repeat' split) <;> simp

@[simp] theorem view_settleQp (s : State) (uid : Nat) {m : Nat} (hm : 524352 &&& m = 524352) : view m (State.settleQp s uid) = view m s := by
  refine view_mono hm ?_
  unfold State.settleQp
  (repeat' split) <;> simp

@[simp] theorem view_dropRefs (s : State) (ids : List Nat) {m : Nat} (hm : 512 &&& m = 512) : view m (State.dropRefs s ids) = view m s := by
  refine view_mono hm ?_
  unfold State.dropRefs
  split <;> simp

@[simp] theorem view_retireCmd (s : State) (c : Cmd) (st : Status) {m : Nat} (hm : 2097568 &&& m = 2097568) : view m (State.retireCmd s c st) = view m s := by
  refine view_mono hm ?_
  unfold State.retireCmd
  simp

@[simp] theorem view_deliverSkiff (s : State) (uid : Nat) (k : Completion) {m : Nat} (hm : 524352 &&& m = 524352) : view m (State.deliverSkiff s uid k) = view m s := by
  refine view_mono hm ?_
  unfold State.deliverSkiff
  dsimp only; (repeat' split) <;> simp

@[simp] theorem view_pumpPayloads (n : Nat) (s : State) (uid : Nat) {m : Nat} (hm : 524352 &&& m = 524352) : view m (State.pumpPayloads n s uid) = view m s := by
  refine view_mono hm ?_
  clear hm
  induction n generalizing s with
  | zero => rfl
  | succ n ih =>
    unfold State.pumpPayloads
    dsimp only
    (repeat' split) <;> simp [ih]

@[simp] theorem view_pumpPay (s : State) (src : Source) {m : Nat} (hm : 524352 &&& m = 524352) : view m (State.pumpPay s src) = view m s := by
  refine view_mono hm ?_
  unfold State.pumpPay
  split <;> simp

@[simp] theorem view_deliverFerry (s : State) (uid : Nat) (k : Completion) {m : Nat} (hm : 524352 &&& m = 524352) : view m (State.deliverFerry s uid k) = view m s := by
  refine view_mono hm ?_
  unfold State.deliverFerry
  dsimp only; (repeat' split) <;> simp

@[simp] theorem view_deliverMbx (s : State) (k : Completion) {m : Nat} (hm : 32 &&& m = 32) : view m (State.deliverMbx s k) = view m s := by
  refine view_mono hm ?_
  unfold State.deliverMbx
  simp

@[simp] theorem view_deliverMirror (s : State) (k : Completion) {m : Nat} (hm : 786496 &&& m = 786496) : view m (State.deliverMirror s k) = view m s := by
  refine view_mono hm ?_
  unfold State.deliverMirror
  simp

@[simp] theorem view_deliver (s : State) (c : Cmd) (k : Completion) {m : Nat} (hm : 786528 &&& m = 786528) : view m (State.deliver s c k) = view m s := by
  refine view_mono hm ?_
  unfold State.deliver
  split <;> simp

@[simp] theorem view_endCopies (s : State) (c : Cmd) (none_ : Bool) {m : Nat} (hm : 134218240 &&& m = 134218240) : view m (State.endCopies s c none_) = view m s := by
  refine view_mono hm ?_
  unfold State.endCopies
  split <;> simp

@[simp] theorem view_complete (s : State) (c : Cmd) (st : Status) (r0 r1 : Nat) (payload : Bytes) {m : Nat} (hm : 137102304 &&& m = 137102304) : view m (State.complete s c st r0 r1 payload) = view m s := by
  refine view_mono hm ?_
  unfold State.complete
  simp

@[simp] theorem view_fail (s : State) (c : Cmd) (st : Status) {m : Nat} (hm : 137102304 &&& m = 137102304) : view m (State.fail s c st) = view m s := by
  refine view_mono hm ?_
  unfold State.fail
  simp

@[simp] theorem view_ok (s : State) (c : Cmd) (r0 r1 : Nat) {m : Nat} (hm : 137102304 &&& m = 137102304) : view m (State.ok s c r0 r1) = view m s := by
  refine view_mono hm ?_
  unfold State.ok
  simp

@[simp] theorem view_okStruct (s : State) (c : Cmd) (r0 : Nat) (body : Bytes) {m : Nat} (hm : 137102304 &&& m = 137102304) : view m (State.okStruct s c r0 body) = view m s := by
  refine view_mono hm ?_
  unfold State.okStruct
  simp

@[simp] theorem view_setDef (s : State) (src : Source) {m : Nat} (hm : 64 &&& m = 64) : view m (State.setDef s src).1 = view m s := by
  refine view_mono hm ?_
  unfold State.setDef
  simp

@[simp] theorem view_touch (s : State) (b : Nat) {m : Nat} (hm : 1024 &&& m = 1024) : view m (State.touch s b) = view m s := by
  refine view_mono hm ?_
  unfold State.touch
  simp

@[simp] theorem view_touchBuckets (s : State) (ks : Nat) (key : Bytes) {m : Nat} (hm : 1024 &&& m = 1024) : view m (State.touchBuckets s ks key) = view m s := by
  refine view_mono hm ?_
  unfold State.touchBuckets
  simp

@[simp] theorem view_displace (n k : Nat) (e : IdxEntry) (b : Nat) (s : State) {m : Nat} (h : 16778240 &&& m = 16778240) : view m (displace n k e b s) = view m s := by
  refine view_mono h ?_
  clear h
  induction k generalizing e b s with
  | zero => unfold displace; dsimp only; (repeat' split) <;> simp
  | succ k ih =>
    unfold displace
    dsimp only
    split
    · simp
    · split
      · simp
      · rw [ih]; simp

@[simp] theorem view_insertKey (s : State) (ks : Nat) (key : Bytes) (loc : Loc) {m : Nat} (hm : 16778240 &&& m = 16778240) : view m (State.insertKey s ks key loc) = view m s := by
  refine view_mono hm ?_
  unfold State.insertKey
  dsimp only; split <;> simp

@[simp] theorem view_moveLoc (s : State) (old new : Loc) {m : Nat} (hm : 1024 &&& m = 1024) : view m (State.moveLoc s old new) = view m s := by
  refine view_mono hm ?_
  unfold State.moveLoc
  simp

@[simp] theorem view_removeLoc (s : State) (loc : Loc) {m : Nat} (hm : 1024 &&& m = 1024) : view m (State.removeLoc s loc) = view m s := by
  refine view_mono hm ?_
  unfold State.removeLoc
  simp

@[simp] theorem view_cacheNode (s : State) (seg off : Nat) {m : Nat} (hm : 1024 &&& m = 1024) : view m (State.cacheNode s seg off) = view m s := by
  refine view_mono hm ?_
  unfold State.cacheNode
  simp

@[simp] theorem view_placeNode (s : State) (id : Nat) (seg off : Nat) {m : Nat} (hm : 1024 &&& m = 1024) : view m (State.placeNode s id seg off) = view m s := by
  refine view_mono hm ?_
  unfold State.placeNode
  simp

@[simp] theorem view_moveNode (s : State) (old new : Nat × Nat) {m : Nat} (hm : 1024 &&& m = 1024) : view m (State.moveNode s old new) = view m s := by
  refine view_mono hm ?_
  unfold State.moveNode
  simp

@[simp] theorem view_dropNode (s : State) (seg off : Nat) {m : Nat} (hm : 1024 &&& m = 1024) : view m (State.dropNode s seg off) = view m s := by
  refine view_mono hm ?_
  unfold State.dropNode
  simp

@[simp] theorem view_dropUnplaced (s : State) {m : Nat} (hm : 5120 &&& m = 5120) : view m (State.dropUnplaced s) = view m s := by
  refine view_mono hm ?_
  unfold State.dropUnplaced
  simp

@[simp] theorem view_freeLost (s : State) (i : Nat) {m : Nat} (hm : 256 &&& m = 256) : view m (State.freeLost s i) = view m s := by
  refine view_mono hm ?_
  unfold State.freeLost
  split <;> simp

end Sys2Proof.Machine
end

