-- ==== Sys2Proof/Laws/FrameKeys.lean ====
section
/-! SUPPORT. Frames of the landing buffers, the key commands and the two transports. The masks are those of `Laws/FrameBase.lean`. -/

namespace Sys2Proof.Machine

@[simp] theorem view_reserveCells (s : State) (r : LRec) (c : Nat) {m : Nat} (hm : 512 &&& m = 512) : view m (State.reserveCells s r c).1 = view m s := by
  refine view_mono hm ?_
  unfold State.reserveCells
  simp

@[simp] theorem view_reserveStaging (s : State) (r : LRec) (n : Nat) {m : Nat} (hm : 512 &&& m = 512) : view m (State.reserveStaging s r n).1 = view m s := by
  refine view_mono hm ?_
  unfold State.reserveStaging
  simp

@[simp] theorem view_setRec (s : State) (id : Nat) (f : LRec → LRec) {m : Nat} (hm : 512 &&& m = 512) : view m (State.setRec s id f) = view m s := by
  refine view_mono hm ?_
  unfold State.setRec
  simp

@[simp] theorem view_dropCharge (s : State) (id : Nat) {m : Nat} (hm : 512 &&& m = 512) : view m (State.dropCharge s id) = view m s := by
  refine view_mono hm ?_
  unfold State.dropCharge
  (repeat' split) <;> simp

@[simp] theorem view_freeRec (s : State) (id : Nat) {m : Nat} (hm : 512 &&& m = 512) : view m (State.freeRec s id) = view m s := by
  refine view_mono hm ?_
  unfold State.freeRec
  dsimp only; (repeat' split) <;> simp

@[simp] theorem view_flushCovered (s : State) (adm : Nat) {m : Nat} (hm : 256 &&& m = 256) : view m (State.flushCovered s adm) = view m s := by
  refine view_mono hm ?_
  unfold State.flushCovered
  simp

@[simp] theorem view_flushAcked (s : State) (adm : Nat) {m : Nat} (hm : 256 &&& m = 256) : view m (State.flushAcked s adm) = view m s := by
  refine view_mono hm ?_
  unfold State.flushAcked
  simp

@[simp] theorem view_supersede (s : State) (id : Nat) {m : Nat} (hm : 768 &&& m = 768) : view m (State.supersede s id) = view m s := by
  refine view_mono hm ?_
  unfold State.supersede
  (repeat' split) <;> simp

@[simp] theorem view_pumpJournal (s : State) {m : Nat} (hm : 34816 &&& m = 34816) : view m (State.pumpJournal s) = view m s := by
  refine view_mono hm ?_
  unfold State.pumpJournal
  split <;> simp

@[simp] theorem view_journal (s : State) (r : JRec) (wait : Bool) {m : Nat} (hm : 34816 &&& m = 34816) : view m (State.journal s r wait) = view m s := by
  refine view_mono hm ?_
  unfold State.journal
  split <;> simp

@[simp] theorem view_metaProgram (s : State) (n : Nat) {m : Nat} (hm : 4096 &&& m = 4096) : view m (State.metaProgram s n) = view m s := by
  refine view_mono hm ?_
  unfold State.metaProgram
  simp

@[simp] theorem view_journalThen (s : State) (r : JRec) (a : JAct) (wait : Bool) {m : Nat} (hm : 34816 &&& m = 34816) : view m (State.journalThen s r a wait) = view m s := by
  refine view_mono hm ?_
  unfold State.journalThen
  split <;> simp

@[simp] theorem view_unplace (s : State) (id : Nat) {m : Nat} (hm : 4096 &&& m = 4096) : view m (State.unplace s id) = view m s := by
  refine view_mono hm ?_
  unfold State.unplace
  simp

@[simp] theorem view_nextStamp (s : State) {m : Nat} (hm : 262144 &&& m = 262144) : view m (State.nextStamp s).1 = view m s := by
  refine view_mono hm ?_
  unfold State.nextStamp
  simp

@[simp] theorem view_logOverflow (s : State) (ks : Nat) {m : Nat} (hm : 8650752 &&& m = 8650752) : view m (State.logOverflow s ks) = view m s := by
  refine view_mono hm ?_
  unfold State.logOverflow
  simp

@[simp] theorem view_logDelete (s : State) (ks : Nat) {m : Nat} (hm : 8650752 &&& m = 8650752) : view m (State.logDelete s ks) = view m s := by
  refine view_mono hm ?_
  unfold State.logDelete
  split <;> simp

@[simp] theorem view_logKey (s : State) (ks : Nat) (key : Bytes) (stamp : Nat) (unknown : Bool) {m : Nat} (hm : 8650752 &&& m = 8650752) : view m (State.logKey s ks key stamp unknown) = view m s := by
  refine view_mono hm ?_
  unfold State.logKey
  (repeat' split) <;> simp

@[simp] theorem view_logRange (s : State) (ks : Nat) (lo hi : Bytes) {m : Nat} (hm : 8650752 &&& m = 8650752) : view m (State.logRange s ks lo hi) = view m s := by
  refine view_mono hm ?_
  unfold State.logRange
  (repeat' split) <;> simp

@[simp] theorem view_sendValue (s : State) (ks : Nat) (key val : Bytes) (stamp flags adm : Nat) (live : Bool) {m : Nat} (hm : 786432 &&& m = 786432) : view m (State.sendValue s ks key val stamp flags adm live).1 = view m s := by
  refine view_mono hm ?_
  unfold State.sendValue
  repeat' (first | (simp [*]; done) | split | rw [view_foldl] | rw [view_foldlp] | intro _ _ | simp)

@[simp] theorem view_noteOwn (s : State) (ks : Nat) (key : Bytes) {m : Nat} (hm : 256 &&& m = 256) : view m (State.noteOwn s ks key) = view m s := by
  refine view_mono hm ?_
  unfold State.noteOwn
  simp

@[simp] theorem view_sendOwn (s : State) (ks adm : Nat) (kind : RecKind) (key upper val : Bytes) (stamp : Nat) {m : Nat} (hm : 786432 &&& m = 786432) : view m (State.sendOwn s ks adm kind key upper val stamp).1 = view m s := by
  refine view_mono hm ?_
  unfold State.sendOwn
  split <;> simp

@[simp] theorem view_stampLog (s : State) (ks : Nat) (key : Bytes) (stamp lseq : Nat) {m : Nat} (hm : 262144 &&& m = 262144) : view m (State.stampLog s ks key stamp lseq) = view m s := by
  refine view_mono hm ?_
  unfold State.stampLog
  simp

@[simp] theorem view_ackLater (s : State) (adm : Nat) {m : Nat} (hm : 256 &&& m = 256) : view m (State.ackLater s adm) = view m s := by
  refine view_mono hm ?_
  unfold State.ackLater
  simp

@[simp] theorem view_originate (s : State) (ks adm : Nat) (kind : RecKind) (key upper val : Bytes) {m : Nat} (hm : 9175296 &&& m = 9175296) : view m (State.originate s ks adm kind key upper val).1 = view m s := by
  refine view_mono hm ?_
  unfold State.originate
  simp only [apply_ite Prod.fst]
  split
  · rfl
  (repeat' split) <;> simp [*]

@[simp] theorem view_takeRefs (s : State) (ids : List Nat) {m : Nat} (hm : 512 &&& m = 512) : view m (State.takeRefs s ids) = view m s := by
  refine view_mono hm ?_
  unfold State.takeRefs
  split <;> simp

@[simp] theorem view_copyRefs (s : State) (ids : List Nat) (ch : Nat) (l : List MDesc) {m : Nat} (hm : 134218240 &&& m = 134218240) : view m (State.copyRefs s ids ch l) = view m s := by
  refine view_mono hm ?_
  unfold State.copyRefs
  simp

@[simp] theorem view_copyDrain (s : State) (job : Nat) (ids : List (Nat × Nat)) {m : Nat} (hm : 134218240 &&& m = 134218240) : view m (State.copyDrain s job ids) = view m s := by
  refine view_mono hm ?_
  unfold State.copyDrain
  simp

@[simp] theorem view_copyReloc (s : State) (job : Nat) (l : List JobItem) (at_ : FRec → Nat) {m : Nat} (hm : 134217728 &&& m = 134217728) : view m (State.copyReloc s job l at_) = view m s := by
  refine view_mono hm ?_
  unfold State.copyReloc
  simp

@[simp] theorem view_copyMirror (s : State) (loc : Loc) (len adm : Nat) {m : Nat} (hm : 134218240 &&& m = 134218240) : view m (State.copyMirror s loc len adm) = view m s := by
  refine view_mono hm ?_
  unfold State.copyMirror
  (repeat' split) <;> simp

@[simp] theorem view_copyHouse (s : State) (dstSpace len tag : Nat) {m : Nat} (hm : 134217728 &&& m = 134217728) : view m (State.copyHouse s dstSpace len tag) = view m s := by
  refine view_mono hm ?_
  unfold State.copyHouse
  split <;> simp

@[simp] theorem view_setSeg (s : State) (n : Nat) (f : Segment → Segment) {m : Nat} (hm : 4096 &&& m = 4096) : view m (State.setSeg s n f) = view m s := by
  refine view_mono hm ?_
  unfold State.setSeg
  simp

@[simp] theorem view_reviewPslc (s : State) {m : Nat} (hm : 8392704 &&& m = 8392704) : view m (State.reviewPslc s) = view m s := by
  refine view_mono hm ?_
  unfold State.reviewPslc
  split <;> simp

@[simp] theorem view_reviewSpace (s : State) {m : Nat} (hm : 8392704 &&& m = 8392704) : view m (State.reviewSpace s) = view m s := by
  refine view_mono hm ?_
  unfold State.reviewSpace
  simp

@[simp] theorem view_openLane (s : State) (stream : Nat) {m : Nat} (hm : 8427520 &&& m = 8427520) : view m (State.openLane s stream).1 = view m s := by
  refine view_mono hm ?_
  unfold State.openLane
  split <;> simp

@[simp] theorem view_askPrograms (s : State) (j : Job) (cls : Nat) {m : Nat} (hm : 32768 &&& m = 32768) : view m (State.askPrograms s j cls) = view m s := by
  refine view_mono hm ?_
  unfold State.askPrograms
  repeat' (first | (simp [*]; done) | split | rw [view_foldl] | rw [view_foldlp] | intro _ _ | simp)

@[simp] theorem view_addJob (s : State) (j : Job) {m : Nat} (hm : 36864 &&& m = 36864) : view m (State.addJob s j) = view m s := by
  refine view_mono hm ?_
  unfold State.addJob
  dsimp only; split <;> simp

@[simp] theorem view_pumpQueued (s : State) (p : Nat) {m : Nat} (hm : 36864 &&& m = 36864) : view m (State.pumpQueued s p) = view m s := by
  refine view_mono hm ?_
  unfold State.pumpQueued
  (repeat' split) <;> simp

@[simp] theorem view_startUnit (s : State) (g : Segment) (kind : JobKind) {m : Nat} (hm : 134255104 &&& m = 134255104) : view m (State.startUnit s g kind) = view m s := by
  refine view_mono hm ?_
  unfold State.startUnit
  split <;> simp

@[simp] theorem view_startSummary (s : State) (g : Segment) {m : Nat} (hm : 36864 &&& m = 36864) : view m (State.startSummary s g) = view m s := by
  refine view_mono hm ?_
  unfold State.startSummary
  dsimp only; split <;> simp

@[simp] theorem view_spendTweak (s : State) (r : LRec) {m : Nat} (hm : 256 &&& m = 256) : view m (State.spendTweak s r) = view m s := by
  refine view_mono hm ?_
  unfold State.spendTweak
  simp

@[simp] theorem view_pumpSummaries (s : State) {m : Nat} (hm : 36864 &&& m = 36864) : view m (State.pumpSummaries s) = view m s := by
  refine view_mono hm ?_
  unfold State.pumpSummaries
  repeat' (first | (simp [*]; done) | split | rw [view_foldl] | rw [view_foldlp] | intro _ _ | simp)

@[simp] theorem view_drainLane (s : State) (st : Nat) {m : Nat} (hm : 8427520 &&& m = 8427520) : view m (State.drainLane s st).1 = view m s := by
  refine view_mono hm ?_
  unfold State.drainLane
  (repeat' split) <;> simp

@[simp] theorem view_drainInto (s : State) (q : List LRec) (g : Segment) {m : Nat} (hm : 134255360 &&& m = 134255360) : view m (State.drainInto s q g) = view m s := by
  refine view_mono hm ?_
  unfold State.drainInto
  repeat' (first | (simp [*]; done) | split | rw [view_foldl] | rw [view_foldlp] | intro _ _ | simp)

theorem view_drainUnit (s t : State) (st : Nat) (e : s.drainUnit st = some t) : view 142646016 t = view 142646016 s := by
  unfold State.drainUnit at e
  dsimp only at e
  split at e
  · cases e
  split at e
  · cases e
  simp only [Option.map_eq_some_iff] at e
  obtain ⟨g, _, rfl⟩ := e
  simp

@[simp] theorem view_drainStream (n : Nat) (s : State) (st : Nat) {m : Nat} (h : 142646016 &&& m = 142646016) : view m (State.drainStream n s st) = view m s := by
  refine view_mono h ?_
  clear h
  induction n generalizing s with
  | zero => rfl
  | succ n ih =>
    unfold State.drainStream
    split
    next t e => rw [ih, view_drainUnit _ _ _ e]
    · rfl

@[simp] theorem view_pumpAllQueued (s : State) {m : Nat} (hm : 36864 &&& m = 36864) : view m (State.pumpAllQueued s) = view m s := by
  refine view_mono hm ?_
  unfold State.pumpAllQueued
  repeat' (first | (simp [*]; done) | split | rw [view_foldl] | rw [view_foldlp] | intro _ _ | simp)

@[simp] theorem view_pumpDrain (s : State) {m : Nat} (hm : 142646016 &&& m = 142646016) : view m (State.pumpDrain s) = view m s := by
  refine view_mono hm ?_
  unfold State.pumpDrain
  simp

@[simp] theorem view_countConflict (s : State) (ks : Nat) {m : Nat} (hm : 8650752 &&& m = 8650752) : view m (State.countConflict s ks) = view m s := by
  refine view_mono hm ?_
  unfold State.countConflict
  simp

@[simp] theorem view_reserve (s : State) (r : LRec) (cells staging : Nat) {m : Nat} (hm : 768 &&& m = 768) : view m (State.reserve s r cells staging).1 = view m s := by
  refine view_mono hm ?_
  unfold State.reserve
  dsimp only; split <;> simp

@[simp] theorem view_unreserve (s : State) (r : LRec) {m : Nat} (hm : 768 &&& m = 768) : view m (State.unreserve s r) = view m s := by
  refine view_mono hm ?_
  unfold State.unreserve
  simp

@[simp] theorem view_cancelRec (s : State) (id : Nat) {m : Nat} (hm : 768 &&& m = 768) : view m (State.cancelRec s id) = view m s := by
  refine view_mono hm ?_
  unfold State.cancelRec
  split <;> simp

@[simp] theorem view_discardAsm (s : State) (id : Nat) {m : Nat} (hm : 768 &&& m = 768) : view m (State.discardAsm s id) = view m s := by
  refine view_mono hm ?_
  unfold State.discardAsm
  split <;> simp

@[simp] theorem view_discardAsms (s : State) (sel : Assembly → Bool) {m : Nat} (hm : 768 &&& m = 768) : view m (State.discardAsms s sel) = view m s := by
  refine view_mono hm ?_
  unfold State.discardAsms
  repeat' (first | (simp [*]; done) | split | rw [view_foldl] | rw [view_foldlp] | intro _ _ | simp)

@[simp] theorem view_setReadOnly (s : State) (ro : BitVec 4) {m : Nat} (hm : 145490912 &&& m = 145490912) : view m (State.setReadOnly s ro) = view m s := by
  refine view_mono hm ?_
  unfold State.setReadOnly
  repeat' (first | (simp [*]; done) | split | rw [view_foldl] | rw [view_foldlp] | intro _ _ | simp)

@[simp] theorem view_roBit (s : State) (k : Nat) (on : Bool) {m : Nat} (hm : 145490912 &&& m = 145490912) : view m (State.roBit s k on) = view m s := by
  refine view_mono hm ?_
  unfold State.roBit
  simp

@[simp] theorem view_reviewCapacity (s : State) {m : Nat} (hm : 145490912 &&& m = 145490912) : view m (State.reviewCapacity s) = view m s := by
  refine view_mono hm ?_
  unfold State.reviewCapacity
  split <;> simp

@[simp] theorem view_settleWrite (s : State) (adm : Nat) {m : Nat} (hm : 137102304 &&& m = 137102304) : view m (State.settleWrite s adm) = view m s := by
  refine view_mono hm ?_
  unfold State.settleWrite
  (repeat' split) <;> simp

@[simp] theorem view_dropOld (s : State) (e : IdxEntry) {m : Nat} (hm : 768 &&& m = 768) : view m (State.dropOld s e).1 = view m s := by
  refine view_mono hm ?_
  unfold State.dropOld
  split <;> simp

@[simp] theorem view_setKey (s : State) (ks adm : Nat) (key : Bytes) (len : Nat) (loc : Loc) {m : Nat} (hm : 16779008 &&& m = 16779008) : view m (State.setKey s ks adm key len loc).1 = view m s := by
  refine view_mono hm ?_
  unfold State.setKey
  split <;> simp

@[simp] theorem view_unsetKey (s : State) (ks adm : Nat) (key : Bytes) {m : Nat} (hm : 1792 &&& m = 1792) : view m (State.unsetKey s ks adm key).1 = view m s := by
  refine view_mono hm ?_
  unfold State.unsetKey
  split <;> simp

@[simp] theorem view_addRange (s : State) (ks adm : Nat) (lo hi : Bytes) {m : Nat} (hm : 256 &&& m = 256) : view m (State.addRange s ks adm lo hi) = view m s := by
  refine view_mono hm ?_
  unfold State.addRange
  simp

@[simp] theorem view_applyWrite (s : State) (r : LRec) (loc : Loc) {m : Nat} (hm : 16779008 &&& m = 16779008) : view m (State.applyWrite s r loc).1 = view m s := by
  refine view_mono hm ?_
  unfold State.applyWrite
  split <;> simp

@[simp] theorem view_tellPeer (s : State) (r : LRec) {m : Nat} (hm : 143393536 &&& m = 143393536) : view m (State.tellPeer s r).1 = view m s := by
  refine view_mono hm ?_
  unfold State.tellPeer
  dsimp only; (repeat' split) <;> simp

@[simp] theorem view_answerVisible (s : State) (r : LRec) (r0 lseq : Nat) (durableNow : Bool) {m : Nat} (hm : 137102304 &&& m = 137102304) : view m (State.answerVisible s r r0 lseq durableNow) = view m s := by
  refine view_mono hm ?_
  unfold State.answerVisible
  dsimp only; (repeat' split) <;> simp

@[simp] theorem view_makeVisible (s : State) (id : Nat) (loc : Loc) (durableNow : Bool) {m : Nat} (hm : 162269152 &&& m = 162269152) : view m (State.makeVisible s id loc durableNow) = view m s := by
  refine view_mono hm ?_
  unfold State.makeVisible
  (repeat' split) <;> simp

@[simp] theorem view_becomeVisible (s : State) (id : Nat) (loc : Loc) (durableNow : Bool) {m : Nat} (hm : 162308064 &&& m = 162308064) : view m (State.becomeVisible s id loc durableNow) = view m s := by
  refine view_mono hm ?_
  unfold State.becomeVisible
  simp

@[simp] theorem view_holdWrite (s : State) (c : Cmd) {m : Nat} (hm : 160 &&& m = 160) : view m (State.holdWrite s c) = view m s := by
  refine view_mono hm ?_
  unfold State.holdWrite
  simp

@[simp] theorem view_cacheHeader (s : State) (seg off : Nat) {m : Nat} (hm : 1024 &&& m = 1024) : view m (State.cacheHeader s seg off) = view m s := by
  refine view_mono hm ?_
  unfold State.cacheHeader
  simp

@[simp] theorem view_cacheRead (s : State) (seg off : Nat) {m : Nat} (hm : 1024 &&& m = 1024) : view m (State.cacheRead s seg off) = view m s := by
  refine view_mono hm ?_
  unfold State.cacheRead
  split
  · split <;> simp
  · rfl

@[simp] theorem view_hitValue (s : State) (loc : Loc) {m : Nat} (hm : 1024 &&& m = 1024) : view m (State.hitValue s loc) = view m s := by
  refine view_mono hm ?_
  unfold State.hitValue
  (repeat' split) <;> simp

@[simp] theorem view_cacheValue (s : State) (seg off : Nat) {m : Nat} (hm : 1024 &&& m = 1024) : view m (State.cacheValue s seg off) = view m s := by
  refine view_mono hm ?_
  unfold State.cacheValue
  dsimp only; (repeat' split) <;> simp

@[simp] theorem view_find (s : State) (ks : Nat) (key : Bytes) {m : Nat} (hm : 16778240 &&& m = 16778240) : view m (State.find s ks key).2 = view m s := by
  refine view_mono hm ?_
  unfold State.find
  dsimp only; (repeat' split) <;> simp

@[simp] theorem view_reclaimKey (s : State) (ks adm : Nat) (key : Bytes) (wait : Bool) {m : Nat} (hm : 34816 &&& m = 34816) : view m (State.reclaimKey s ks adm key wait) = view m s := by
  refine view_mono hm ?_
  unfold State.reclaimKey
  (repeat' split) <;> simp

@[simp] theorem view_dropSeen (s : State) (ks pos : Nat) (key : Bytes) {m : Nat} (hm : 34816 &&& m = 34816) : view m (State.dropSeen s ks pos key) = view m s := by
  refine view_mono hm ?_
  unfold State.dropSeen
  split <;> simp

@[simp] theorem view_addRead (s : State) (r : ReadOp) (plan : List Nat) {m : Nat} (hm : 4096 &&& m = 4096) : view m (State.addRead s r plan) = view m s := by
  refine view_mono hm ?_
  unfold State.addRead
  simp

@[simp] theorem view_startRead (s : State) (adm elem : Nat) (ks : Nat) (key : Bytes) (loc : Loc) (ro n : Nat) (headerOnly : Bool) {m : Nat} (hm : 4096 &&& m = 4096) : view m (State.startRead s adm elem ks key loc ro n headerOnly) = view m s := by
  refine view_mono hm ?_
  unfold State.startRead
  (repeat' split) <;> simp

@[simp] theorem view_pumpReads (s : State) (adm : Nat) {m : Nat} (hm : 36864 &&& m = 36864) : view m (State.pumpReads s adm) = view m s := by
  refine view_mono hm ?_
  unfold State.pumpReads
  dsimp only
  rw [view_acc]
  intro b a
  rw [view_foldl]
  · simp
  · intro s a; simp

@[simp] theorem view_useHeaders (s : State) (ks : Nat) (key : Bytes) {m : Nat} (hm : 1024 &&& m = 1024) : view m (State.useHeaders s ks key) = view m s := by
  refine view_mono hm ?_
  unfold State.useHeaders
  repeat' (first | (simp [*]; done) | split | rw [view_foldl] | rw [view_foldlp] | intro _ _ | simp)

@[simp] theorem view_keyChecks (s : State) (c : Cmd) (keys : List (Nat × Bytes)) (own : Bool) {m : Nat} (hm : 38048 &&& m = 38048) : view m (State.keyChecks s c keys own).2 = view m s := by
  refine view_mono hm ?_
  unfold State.keyChecks
  repeat' (first | (simp [*]; done) | split | rw [view_foldl] | rw [view_foldlp] | intro _ _ | simp)

@[simp] theorem view_respondGets (s : State) (c : Cmd) {m : Nat} (hm : 137102304 &&& m = 137102304) : view m (State.respondGets s c) = view m s := by
  refine view_mono hm ?_
  unfold State.respondGets
  (repeat' split) <;> simp

@[simp] theorem view_promoteFill (s : State) (c : Cmd) (id at_ len : Nat) {m : Nat} (hm : 134217728 &&& m = 134217728) : view m (State.promoteFill s c id at_ len) = view m s := by
  refine view_mono hm ?_
  unfold State.promoteFill
  (repeat' split) <;> simp

@[simp] theorem view_copyOut (s : State) (c : Cmd) (l : List (Nat × Got × Nat)) {m : Nat} (hm : 134217728 &&& m = 134217728) : view m (State.copyOut s c l) = view m s := by
  refine view_mono hm ?_
  unfold State.copyOut
  simp

@[simp] theorem view_answerGets (s : State) (c : Cmd) {m : Nat} (hm : 137102304 &&& m = 137102304) : view m (State.answerGets s c) = view m s := by
  refine view_mono hm ?_
  unfold State.answerGets
  simp

@[simp] theorem view_runFront (s : State) (cp op : Nat) (f : State → Cmd → State) {m : Nat} (hf : ∀ c, view m (f s c) = view m s) : view m (s.runFront cp op f) = view m s := by
  unfold State.runFront
  (repeat' split) <;> simp [hf]

@[simp] theorem view_checked (s : State) (c : Cmd) (f : State → Cmd → State) {m : Nat} (h : 137102304 &&& m = 137102304) (hf : view m (f s c) = view m s) : view m (s.checked c f) = view m s := by
  unfold State.checked
  split
  · simp [h]
  · exact hf

@[simp] theorem view_withChecks (s : State) (c : Cmd) (keys : List (Nat × Bytes)) (own : Bool) (f : State → Cmd → State) {m : Nat} (h : 38048 &&& m = 38048)
    (hf : ∀ t, view m (f t c) = view m t) : view m (s.withChecks c keys own f) = view m s := by
  unfold State.withChecks
  dsimp only
  split <;> simp [h, hf]

@[simp] theorem view_withKey (s : State) (c : Cmd) (f : State → Cmd → State) {m : Nat} (h : 38048 &&& m = 38048)
    (hf : ∀ t, view m (f t c) = view m t) : view m (s.withKey c f) = view m s := by
  unfold State.withKey
  split
  · exact hf s
  · rw [view_withChecks _ _ _ _ _ h hf]

@[simp] theorem view_leave (s : State) (adm : Nat) (f : Cmd → Cmd) {m : Nat} (hm : 160 &&& m = 160) : view m (State.leave s adm f) = view m s := by
  refine view_mono hm ?_
  unfold State.leave
  simp

@[simp] theorem view_reserveValue (s : State) (c : Cmd) {m : Nat} (hm : 768 &&& m = 768) : view m (State.reserveValue s c).1 = view m s := by
  refine view_mono hm ?_
  unfold State.reserveValue
  simp

@[simp] theorem view_fill (s : State) (id : Nat) {m : Nat} (hm : 512 &&& m = 512) : view m (State.fill s id) = view m s := by
  refine view_mono hm ?_
  unfold State.fill
  simp

@[simp] theorem view_transfer (s : State) (c : Cmd) (id at_ len : Nat) {m : Nat} (hm : 134742752 &&& m = 134742752) : view m (State.transfer s c id at_ len) = view m s := by
  refine view_mono hm ?_
  unfold State.transfer
  (repeat' split) <;> simp

@[simp] theorem view_orConflict (s : State) (c : Cmd) (f : State → State) {m : Nat} (h : 145490912 &&& m = 145490912) (hf : ∀ t, view m (f t) = view m t) :
    view m (s.orConflict c f) = view m s := by
  unfold State.orConflict
  split
  · refine view_mono h ?_
    simp
  · exact hf s

@[simp] theorem view_putGate (s : State) (c : Cmd) {m : Nat} (hm : 145525728 &&& m = 145525728) : view m (State.putGate s c) = view m s := by
  refine view_mono hm ?_
  unfold State.putGate
  dsimp only
  split
  · simp
  refine (view_orConflict _ _ _ (by decide) fun t => ?_).trans (by simp)
  (repeat' split) <;> simp

@[simp] theorem view_execPut (cp : Fin 8) (s : State) {m : Nat} (hm : 145530848 &&& m = 145530848) : view m (outState (execPut cp s) s) = view m s := by
  refine view_mono hm ?_
  unfold execPut
  simp only [outState_next]
  rw [view_runFront]
  intro c
  rw [view_checked _ _ _ (by decide)]
  simp

@[simp] theorem view_storePart (s : State) (c : Cmd) (id at_ : Nat) (bytes : Bytes) {m : Nat} (hm : 134218240 &&& m = 134218240) : view m (State.storePart s c id at_ bytes) = view m s := by
  refine view_mono hm ?_
  unfold State.storePart
  split <;> simp

@[simp] theorem view_openGate (s : State) (c : Cmd) {m : Nat} (hm : 137137120 &&& m = 137137120) : view m (State.openGate s c) = view m s := by
  refine view_mono hm ?_
  unfold State.openGate
  dsimp only; (repeat' split) <;> simp

@[simp] theorem view_nextPart (s : State) (c : Cmd) {m : Nat} (hm : 137102304 &&& m = 137102304) : view m (State.nextPart s c) = view m s := by
  refine view_mono hm ?_
  unfold State.nextPart
  dsimp only; (repeat' split) <;> simp

@[simp] theorem view_putPart (s : State) (c : Cmd) {m : Nat} (hm : 137142240 &&& m = 137142240) : view m (State.putPart s c) = view m s := by
  refine view_mono hm ?_
  unfold State.putPart
  split <;> simp

@[simp] theorem view_execPutPart (cp : Fin 8) (s : State) {m : Nat} (hm : 137142240 &&& m = 137142240) : view m (outState (execPutPart cp s) s) = view m s := by
  refine view_mono hm ?_
  unfold execPutPart
  simp only [outState_next]
  rw [view_runFront]
  intro c
  split
  · rfl
  rw [view_checked _ _ _ (by decide)]; simp

@[simp] theorem view_execPutValueLanded (adm : Nat) (s : State) {m : Nat} (hm : 162308064 &&& m = 162308064) : view m (outState (execPutValueLanded adm s) s) = view m s := by
  refine view_mono hm ?_
  unfold execPutValueLanded
  simp only [outState_next]
  (repeat' split) <;> simp

@[simp] theorem view_writeRecord (s : State) (c : Cmd) (kind : RecKind) (upper : Bytes) {m : Nat} (hm : 162308064 &&& m = 162308064) : view m (State.writeRecord s c kind upper) = view m s := by
  refine view_mono hm ?_
  unfold State.writeRecord
  dsimp only
  split
  · simp
  split <;> simp

@[simp] theorem view_deleteGate (s : State) (c : Cmd) {m : Nat} (hm : 162308064 &&& m = 162308064) : view m (State.deleteGate s c) = view m s := by
  refine view_mono hm ?_
  have f1 := view_find s c.entry.ks c.key (m := 162308064) (by decide)
  unfold State.deleteGate
  dsimp only
  generalize s.find c.entry.ks c.key = p at f1 ⊢
  generalize s.lookup c.entry.ks c.key = q
  generalize s.spaceOf c = k
  split
  · simp
  rcases p with ⟨_ | _, s'⟩ <;> rcases q with _ | _ <;> rcases k with _ | _ <;> dsimp only at f1 ⊢ <;>
    first
    | (simp [f1]; done)
    | (refine (view_orConflict _ _ _ (by decide) fun t => ?_).trans f1
       split <;> simp)

@[simp] theorem view_execDelete (cp : Fin 8) (s : State) {m : Nat} (hm : 162308064 &&& m = 162308064) : view m (outState (execDelete cp s) s) = view m s := by
  refine view_mono hm ?_
  unfold execDelete
  simp only [outState_next]
  rw [view_runFront]
  intro c
  rw [view_checked _ _ _ (by decide)]
  simp

@[simp] theorem view_discardGate (s : State) (c : Cmd) {m : Nat} (hm : 162308064 &&& m = 162308064) : view m (State.discardGate s c) = view m s := by
  refine view_mono hm ?_
  unfold State.discardGate
  dsimp only; (repeat' split) <;> simp

@[simp] theorem view_execDiscardRange (cp : Fin 8) (s : State) {m : Nat} (hm : 162308064 &&& m = 162308064) : view m (outState (execDiscardRange cp s) s) = view m s := by
  refine view_mono hm ?_
  unfold execDiscardRange
  simp only [outState_next]
  rw [view_runFront]
  intro c
  split
  · rfl
  rw [view_checked _ _ _ (by decide)]; simp

@[simp] theorem view_getKey (s : State) (c : Cmd) {m : Nat} (hm : 153919456 &&& m = 153919456) : view m (State.getKey s c) = view m s := by
  refine view_mono hm ?_
  unfold State.getKey
  dsimp only
  cases e : (s.find c.entry.ks c.key).1
  · simp
  · dsimp only; split <;> simp

@[simp] theorem view_execGet (cp : Fin 8) (s : State) {m : Nat} (hm : 153919456 &&& m = 153919456) : view m (outState (execGet cp s) s) = view m s := by
  refine view_mono hm ?_
  unfold execGet
  simp only [outState_next]
  rw [view_runFront]
  intro c
  rw [view_checked _ _ _ (by decide)]
  simp

@[simp] theorem view_existsKey (s : State) (c : Cmd) {m : Nat} (hm : 153919456 &&& m = 153919456) : view m (State.existsKey s c) = view m s := by
  refine view_mono hm ?_
  unfold State.existsKey
  dsimp only
  cases e : (s.find c.entry.ks c.key).1
  · simp
  · dsimp only; split <;> simp

@[simp] theorem view_execExistsKey (cp : Fin 8) (s : State) {m : Nat} (hm : 153919456 &&& m = 153919456) : view m (outState (execExistsKey cp s) s) = view m s := by
  refine view_mono hm ?_
  unfold execExistsKey
  simp only [outState_next]
  rw [view_runFront]
  intro c
  rw [view_checked _ _ _ (by decide)]
  simp

@[simp] theorem view_mgetOne (s : State) (c : Cmd) (i : Nat) {m : Nat} (hm : 16778240 &&& m = 16778240) : view m (State.mgetOne s c i).1 = view m s := by
  refine view_mono hm ?_
  unfold State.mgetOne
  dsimp only; (repeat' split) <;> simp

@[simp] theorem view_mgetFind (s : State) (c : Cmd) {m : Nat} (hm : 16778240 &&& m = 16778240) : view m (State.mgetFind s c).1 = view m s := by
  refine view_mono hm ?_
  unfold State.mgetFind
  repeat' (first | (simp [*]; done) | split | rw [view_foldl] | rw [view_foldlp] | intro _ _ | simp)

@[simp] theorem view_mgetStart (s : State) (c : Cmd) (gs : List (Got × Option Loc)) {m : Nat} (hm : 39072 &&& m = 39072) : view m (State.mgetStart s c gs) = view m s := by
  refine view_mono hm ?_
  unfold State.mgetStart
  repeat' (first | (simp [*]; done) | split | rw [view_foldl] | rw [view_foldlp] | intro _ _ | simp)

@[simp] theorem view_mget (s : State) (c : Cmd) {m : Nat} (hm : 153919456 &&& m = 153919456) : view m (State.mget s c) = view m s := by
  refine view_mono hm ?_
  unfold State.mget
  dsimp only; (repeat' split) <;> simp

@[simp] theorem view_execMget (cp : Fin 8) (s : State) {m : Nat} (hm : 153919456 &&& m = 153919456) : view m (outState (execMget cp s) s) = view m s := by
  refine view_mono hm ?_
  unfold execMget
  simp only [outState_next]
  rw [view_runFront]
  intro c
  split
  · rfl
  rw [view_checked _ _ _ (by decide)]; simp

@[simp] theorem view_useNodes (s : State) (k : KeySpace) (cursor : Bytes) (page : List Leaf) {m : Nat} (hm : 1024 &&& m = 1024) : view m (State.useNodes s k cursor page) = view m s := by
  refine view_mono hm ?_
  unfold State.useNodes
  rw [view_foldl]
  intro s a; simp

@[simp] theorem view_readNodes (s : State) (c : Cmd) (due : List (Nat × Nat)) {m : Nat} (hm : 37024 &&& m = 37024) : view m (State.readNodes s c due) = view m s := by
  refine view_mono hm ?_
  unfold State.readNodes
  repeat' (first | (simp [*]; done) | split | rw [view_foldl] | rw [view_foldlp] | intro _ _ | simp)

@[simp] theorem view_listKeys (s : State) (c : Cmd) {m : Nat} (hm : 153917408 &&& m = 153917408) : view m (State.listKeys s c) = view m s := by
  refine view_mono hm ?_
  unfold State.listKeys
  dsimp only; (repeat' split) <;> simp

@[simp] theorem view_goOn (s : State) (c : Cmd) {m : Nat} (hm : 162308064 &&& m = 162308064) : view m (State.goOn s c) = view m s := by
  refine view_mono hm ?_
  unfold State.goOn
  split <;> simp

@[simp] theorem view_execList (cp : Fin 8) (s : State) {m : Nat} (hm : 153917408 &&& m = 153917408) : view m (outState (execList cp s) s) = view m s := by
  refine view_mono hm ?_
  unfold execList
  simp only [outState_next]
  rw [view_runFront]
  intro c
  split
  · rfl
  rw [view_checked _ _ _ (by decide)]; simp

@[simp] theorem view_flush (s : State) (c : Cmd) {m : Nat} (hm : 145529824 &&& m = 145529824) : view m (State.flush s c) = view m s := by
  refine view_mono hm ?_
  unfold State.flush
  dsimp only; split <;> simp

@[simp] theorem view_execFlush (cp : Fin 8) (s : State) {m : Nat} (hm : 145529824 &&& m = 145529824) : view m (outState (execFlush cp s) s) = view m s := by
  refine view_mono hm ?_
  unfold execFlush
  simp only [outState_next]
  rw [view_runFront]
  intro c
  simp

@[simp] theorem view_execFlushDone (adm : Nat) (s : State) {m : Nat} (hm : 137102304 &&& m = 137102304) : view m (outState (execFlushDone adm s) s) = view m s := by
  refine view_mono hm ?_
  unfold execFlushDone
  simp only [outState_next]
  (repeat' split) <;> simp

@[simp] theorem view_releaseHeld (s : State) (c : Cmd) {m : Nat} (hm : 138449664 &&& m = 138449664) : view m (State.releaseHeld s c) = view m s := by
  refine view_mono hm ?_
  unfold State.releaseHeld
  (repeat' split) <;> simp

@[simp] theorem view_cancel (s : State) (c : Cmd) {m : Nat} (hm : 141333472 &&& m = 141333472) : view m (State.cancel s c) = view m s := by
  refine view_mono hm ?_
  unfold State.cancel
  simp

@[simp] theorem view_undoPart (s : State) (k : Completion) {m : Nat} (hm : 768 &&& m = 768) : view m (State.undoPart s k) = view m s := by
  refine view_mono hm ?_
  unfold State.undoPart
  (repeat' split) <;> simp

@[simp] theorem view_cancelUnwritten (s : State) (uid : Nat) (k : Completion) {m : Nat} (hm : 832 &&& m = 832) : view m (State.cancelUnwritten s uid k) = view m s := by
  refine view_mono hm ?_
  unfold State.cancelUnwritten
  simp

@[simp] theorem view_cancelEarly (s : State) (uid : Nat) {m : Nat} (hm : 832 &&& m = 832) : view m (State.cancelEarly s uid) = view m s := by
  refine view_mono hm ?_
  unfold State.cancelEarly
  repeat' (first | (simp [*]; done) | split | rw [view_foldl] | rw [view_foldlp] | intro _ _ | simp)

@[simp] theorem view_decideAbort (s : State) (c : Cmd) {m : Nat} (hm : 141333472 &&& m = 141333472) : view m (State.decideAbort s c) = view m s := by
  refine view_mono hm ?_
  unfold State.decideAbort
  dsimp only; (repeat' split) <;> simp

@[simp] theorem view_execAbort (adm : Nat) (s : State) {m : Nat} (hm : 141333472 &&& m = 141333472) : view m (outState (execAbort adm s) s) = view m s := by
  refine view_mono hm ?_
  unfold execAbort
  simp only [outState_next]
  (repeat' split) <;> simp

@[simp] theorem view_execWriteWaitResume (adm : Nat) (s : State) {m : Nat} (hm : 162308064 &&& m = 162308064) : view m (outState (execWriteWaitResume adm s) s) = view m s := by
  refine view_mono hm ?_
  unfold execWriteWaitResume
  simp only [outState_next]
  (repeat' split) <;> simp

@[simp] theorem view_execWriteWaitTimeout (adm : Nat) (s : State) {m : Nat} (hm : 145490912 &&& m = 145490912) : view m (outState (execWriteWaitTimeout adm s) s) = view m s := by
  refine view_mono hm ?_
  unfold execWriteWaitTimeout
  simp only [outState_next]
  (repeat' split) <;> simp

@[simp] theorem view_execAssemblyExpiry (asm : Nat) (s : State) {m : Nat} (hm : 768 &&& m = 768) : view m (outState (execAssemblyExpiry asm s) s) = view m s := by
  refine view_mono hm ?_
  unfold execAssemblyExpiry
  simp only [outState_next]
  (repeat' split) <;> simp

@[simp] theorem view_postCmd (s : State) (c : Cmd) {m : Nat} (hm : 160 &&& m = 160) : view m (State.postCmd s c) = view m s := by
  refine view_mono hm ?_
  unfold State.postCmd
  simp

@[simp] theorem view_recordSanitize (s : State) (c : Cmd) {m : Nat} (hm : 4194304 &&& m = 4194304) : view m (State.recordSanitize s c) = view m s := by
  refine view_mono hm ?_
  unfold State.recordSanitize
  split <;> simp

@[simp] theorem view_admitCmd (s : State) (c : Cmd) {m : Nat} (hm : 141329376 &&& m = 141329376) : view m (State.admitCmd s c) = view m s := by
  refine view_mono hm ?_
  unfold State.admitCmd
  dsimp only; (repeat' split) <;> simp

@[simp] theorem view_authEvent (s : State) (rx : Rx) (kind : Nat) (unchecked : Bool) {m : Nat} (hm : 8388608 &&& m = 8388608) : view m (State.authEvent s rx kind unchecked) = view m s := by
  refine view_mono hm ?_
  unfold State.authEvent
  simp

@[simp] theorem view_authFail (s : State) (rx : Rx) (kind : Nat) {m : Nat} (hm : 12582912 &&& m = 12582912) : view m (State.authFail s rx kind) = view m s := by
  refine view_mono hm ?_
  unfold State.authFail
  simp

@[simp] theorem view_measure (s : State) (i : Nat) (version : Nat) (digest : Bytes) {m : Nat} (hm : 4194304 &&& m = 4194304) : view m (State.measure s i version digest) = view m s := by
  refine view_mono hm ?_
  unfold State.measure
  simp

@[simp] theorem view_measureSecurity (s : State) {m : Nat} (hm : 4194304 &&& m = 4194304) : view m (State.measureSecurity s) = view m s := by
  refine view_mono hm ?_
  unfold State.measureSecurity
  simp

@[simp] theorem view_checkCred (s : State) (rx : Rx) (udp : Nat) (lead cred : Bytes) (role : Nat) {m : Nat} (hm : 12582912 &&& m = 12582912) : view m (State.checkCred s rx udp lead cred role).1 = view m s := by
  refine view_mono hm ?_
  unfold State.checkCred
  dsimp only; (repeat' split) <;> simp

@[simp] theorem view_execAuthRefusalEnd (addr : Bytes) (s : State) {m : Nat} (hm : 4194304 &&& m = 4194304) : view m (outState (execAuthRefusalEnd addr s) s) = view m s := by
  refine view_mono hm ?_
  unfold execAuthRefusalEnd
  simp only [outState_next]
  simp

@[simp] theorem view_countDiscard (s : State) {m : Nat} (hm : 64 &&& m = 64) : view m (State.countDiscard s) = view m s := by
  refine view_mono hm ?_
  unfold State.countDiscard
  simp

@[simp] theorem view_setSession (s : State) (uid : Nat) (f : Session → Session) {m : Nat} (hm : 64 &&& m = 64) : view m (State.setSession s uid f) = view m s := by
  refine view_mono hm ?_
  unfold State.setSession
  simp

@[simp] theorem view_onSession (s : State) (rx : Rx) (dg : Bytes) (typ : Nat) (f : State → Session → SkiffIn → State) {m : Nat} (h : 524352 &&& m = 524352)
    (hf : ∀ t x h, view m (f t x h) = view m t) : view m (State.onSession s rx dg typ f) = view m s := by
  have h6 : 64 &&& m = 64 := sub_trans (by decide) h
  unfold State.onSession
  (repeat' split) <;> simp [h, h6, hf]

@[simp] theorem view_sendAck (s : State) (x : Session) (seq flags : Nat) {m : Nat} (hm : 524288 &&& m = 524288) : view m (State.sendAck s x seq flags) = view m s := by
  refine view_mono hm ?_
  unfold State.sendAck
  simp

@[simp] theorem view_rejectOn (s : State) (x : Session) (seq reason : Nat) {m : Nat} (hm : 524352 &&& m = 524352) : view m (State.rejectOn s x seq reason) = view m s := by
  refine view_mono hm ?_
  unfold State.rejectOn
  simp

@[simp] theorem view_holdCmd (s : State) (uid : Nat) (seq : BitVec 32) (rx : Rx) (dg : Bytes) {m : Nat} (hm : 64 &&& m = 64) : view m (State.holdCmd s uid seq rx dg).1 = view m s := by
  refine view_mono hm ?_
  unfold State.holdCmd
  dsimp only; split <;> simp

@[simp] theorem view_cmdNext (s : State) (x : Session) (seq : BitVec 32) (dg : Bytes) {m : Nat} (hm : 141329376 &&& m = 141329376) : view m (State.cmdNext s x seq dg).1 = view m s := by
  refine view_mono hm ?_
  unfold State.cmdNext
  dsimp only; (repeat' split) <;> simp

@[simp] theorem view_drainHeld (n : Nat) (s : State) (uid : Nat) {m : Nat} (hm : 141329376 &&& m = 141329376) : view m (State.drainHeld n s uid) = view m s := by
  refine view_mono hm ?_
  clear hm
  induction n generalizing s with
  | zero => rfl
  | succ n ih =>
    unfold State.drainHeld
    dsimp only
    (repeat' split) <;> simp [ih]

@[simp] theorem view_cmdAgain (s : State) (x : Session) (seq : BitVec 32) {m : Nat} (hm : 524352 &&& m = 524352) : view m (State.cmdAgain s x seq) = view m s := by
  refine view_mono hm ?_
  unfold State.cmdAgain
  (repeat' split) <;> simp

@[simp] theorem view_takeCmd (s : State) (rx : Rx) (dg : Bytes) (x : Session) (h : SkiffIn) {m : Nat} (hm : 141329376 &&& m = 141329376) : view m (State.takeCmd s rx dg x h) = view m s := by
  refine view_mono hm ?_
  have e1 := view_cmdNext s x h.seq dg (m := 141329376) (by decide)
  have e2 := view_holdCmd s x.uid h.seq rx dg (m := 141329376) (by decide)
  unfold State.takeCmd
  dsimp only
  repeat' split
  all_goals simp [e1, e2]

@[simp] theorem view_execCmd (rx : Rx) (dg : Bytes) (s : State) {m : Nat} (hm : 141329376 &&& m = 141329376) : view m (outState (execCmd rx dg s) s) = view m s := by
  refine view_mono hm ?_
  unfold execCmd
  simp only [outState_next]
  simp

@[simp] theorem view_execAck (rx : Rx) (dg : Bytes) (s : State) {m : Nat} (hm : 524352 &&& m = 524352) : view m (outState (execAck rx dg s) s) = view m s := by
  refine view_mono hm ?_
  unfold execAck
  simp only [outState_next]
  simp

@[simp] theorem view_execKeepalive (rx : Rx) (dg : Bytes) (s : State) {m : Nat} (hm : 524352 &&& m = 524352) : view m (outState (execKeepalive rx dg s) s) = view m s := by
  refine view_mono hm ?_
  unfold execKeepalive
  simp only [outState_next]
  simp

@[simp] theorem view_execHeldCmdExpiry (sid : Fin 512) (seq : BitVec 32) (s : State) {m : Nat} (hm : 64 &&& m = 64) : view m (outState (execHeldCmdExpiry sid seq s) s) = view m s := by
  refine view_mono hm ?_
  unfold execHeldCmdExpiry
  simp only [outState_next]
  simp

@[simp] theorem view_discardOf (s : State) (src : Source) {m : Nat} (hm : 768 &&& m = 768) : view m (State.discardOf s src) = view m s := by
  refine view_mono hm ?_
  unfold State.discardOf
  simp

@[simp] theorem view_expireSession (s : State) (uid : Nat) {m : Nat} (hm : 832 &&& m = 832) : view m (State.expireSession s uid) = view m s := by
  refine view_mono hm ?_
  unfold State.expireSession
  simp

@[simp] theorem view_openSession (s : State) (rx : Rx) (b : Bytes) (role : Nat) {m : Nat} (hm : 17301568 &&& m = 17301568) : view m (State.openSession s rx b role) = view m s := by
  refine view_mono hm ?_
  unfold State.openSession
  dsimp only; (repeat' split) <;> simp

@[simp] theorem view_takeHello (s : State) (rx : Rx) (b : Bytes) {m : Nat} (hm : 29885248 &&& m = 29885248) : view m (State.takeHello s rx b) = view m s := by
  refine view_mono hm ?_
  have f1 := view_checkCred s rx rx.hostUdp (b.take 16) (slice b 16 48) (fieldAt b 4 1) (m := 29885248) (by decide)
  unfold State.takeHello
  dsimp only
  generalize s.checkCred rx rx.hostUdp (b.take 16) (slice b 16 48) (fieldAt b 4 1) = p at f1 ⊢
  rcases p with ⟨t, _ | _ | _⟩ <;> dsimp only at f1 ⊢ <;> split <;> (try split) <;> simp [f1]
  all_goals (rw [view_foldl]; · exact f1
             intro s a; simp)

@[simp] theorem view_execHello (rx : Rx) (dg : Bytes) (s : State) {m : Nat} (hm : 29885248 &&& m = 29885248) : view m (outState (execHello rx dg s) s) = view m s := by
  refine view_mono hm ?_
  unfold execHello
  simp only [outState_next]
  (repeat' split) <;> simp

@[simp] theorem view_execClose (rx : Rx) (dg : Bytes) (s : State) {m : Nat} (hm : 525120 &&& m = 525120) : view m (outState (execClose rx dg s) s) = view m s := by
  refine view_mono hm ?_
  unfold execClose
  simp only [outState_next]
  rw [view_onSession _ _ _ _ _ (by decide)]; intro _ _ _; first | (simp; done) | ((repeat' split) <;> simp)

@[simp] theorem view_execCloseAck (sid : Fin 512) (s : State) {m : Nat} (hm : 524352 &&& m = 524352) : view m (outState (execCloseAck sid s) s) = view m s := by
  refine view_mono hm ?_
  unfold execCloseAck
  simp only [outState_next]
  split <;> simp

@[simp] theorem view_execSessionFree (sid : Fin 512) (s : State) {m : Nat} (hm : 64 &&& m = 64) : view m (outState (execSessionFree sid s) s) = view m s := by
  refine view_mono hm ?_
  unfold execSessionFree
  simp only [outState_next]
  (repeat' split) <;> simp

@[simp] theorem view_execSessionExpiry (sid : Fin 512) (s : State) {m : Nat} (hm : 832 &&& m = 832) : view m (outState (execSessionExpiry sid s) s) = view m s := by
  refine view_mono hm ?_
  unfold execSessionExpiry
  simp only [outState_next]
  (repeat' split) <;> simp

@[simp] theorem view_countReasm (s : State) (n : Nat) {m : Nat} (hm : 64 &&& m = 64) : view m (State.countReasm s n) = view m s := by
  refine view_mono hm ?_
  unfold State.countReasm
  simp

@[simp] theorem view_execIpFragment (f : Fragment) (s : State) {m : Nat} (hm : 64 &&& m = 64) : view m (outState (execIpFragment f s) s) = view m s := by
  refine view_mono hm ?_
  unfold execIpFragment
  simp only [outState_next]
  (repeat' split) <;> simp

@[simp] theorem view_execReassemblyTimeout (port : Fin 2) (srcAddr : Bytes) (ident : Nat) (s : State) {m : Nat} (hm : 64 &&& m = 64) : view m (outState (execReassemblyTimeout port srcAddr ident s) s) = view m s := by
  refine view_mono hm ?_
  unfold execReassemblyTimeout
  simp only [outState_next]
  simp

@[simp] theorem view_execArpNdEchoRequest (rx : Rx) (kind : EchoKind) (len : Nat) (s : State) {m : Nat} (hm : 557056 &&& m = 557056) : view m (outState (execArpNdEchoRequest rx kind len s) s) = view m s := by
  refine view_mono hm ?_
  unfold execArpNdEchoRequest
  simp only [outState_next]
  split <;> simp

@[simp] theorem view_setQp (s : State) (uid : Nat) (f : Qp → Qp) {m : Nat} (hm : 64 &&& m = 64) : view m (State.setQp s uid f) = view m s := by
  refine view_mono hm ?_
  unfold State.setQp
  simp

@[simp] theorem view_rej (s : State) (rx : Rx) (st : Status) {m : Nat} (hm : 524288 &&& m = 524288) : view m (State.rej s rx st) = view m s := by
  refine view_mono hm ?_
  unfold State.rej
  simp

@[simp] theorem view_openQp (s : State) (rx : Rx) (b : Bytes) (role : Nat) {m : Nat} (hm : 17301568 &&& m = 17301568) : view m (State.openQp s rx b role) = view m s := by
  refine view_mono hm ?_
  unfold State.openQp
  dsimp only; (repeat' split) <;> simp

@[simp] theorem view_execConnectionReq (rx : Rx) (priv : Bytes) (s : State) {m : Nat} (hm : 29884480 &&& m = 29884480) : view m (outState (execConnectionReq rx priv s) s) = view m s := by
  refine view_mono hm ?_
  have f1 := view_checkCred s rx 0 (priv.take 40) (slice priv 40 48) (fieldAt priv 1 1) (m := 29884480) (by decide)
  unfold execConnectionReq
  simp only [outState_next]
  split
  · rfl
  split
  · simp
  generalize s.checkCred rx 0 (priv.take 40) (slice priv 40 48) (fieldAt priv 1 1) = p at f1 ⊢
  rcases p with ⟨t, _ | _ | _⟩ <;> dsimp only at f1 ⊢ <;> simp [f1]

@[simp] theorem view_endConnection (s : State) (uid : Nat) (deliver : Bool) {m : Nat} (hm : 149722080 &&& m = 149722080) : view m (State.endConnection s uid deliver) = view m s := by
  refine view_mono hm ?_
  unfold State.endConnection
  split
  · rfl
  split
  · rfl
  dsimp only
  rw [view_settleQp _ _ (by decide), view_discardOf _ _ (by decide)]
  cases deliver
  · simp only [Bool.false_eq_true, if_false]
    rw [view_foldl _ _ (fun s a => by simp), view_foldl _ _ (fun s a => by simp), view_foldl _ _ (fun s a => by simp)]
    simp
  · simp only [if_true]
    rw [view_foldl _ _ (fun s a => by simp)]
    simp

@[simp] theorem view_haltQp (s : State) (uid slot : Nat) {m : Nat} (hm : 149722080 &&& m = 149722080) : view m (State.haltQp s uid slot) = view m s := by
  refine view_mono hm ?_
  unfold State.haltQp
  simp

@[simp] theorem view_execHostDisconnect (qp : Fin 1024) (s : State) {m : Nat} (hm : 149722080 &&& m = 149722080) : view m (outState (execHostDisconnect qp s) s) = view m s := by
  refine view_mono hm ?_
  unfold execHostDisconnect
  simp only [outState_next]
  split <;> simp

@[simp] theorem view_execConnectionFailure (qp : Fin 1024) (s : State) {m : Nat} (hm : 149722080 &&& m = 149722080) : view m (outState (execConnectionFailure qp s) s) = view m s := by
  refine view_mono hm ?_
  unfold execConnectionFailure
  simp only [outState_next]
  split <;> simp

@[simp] theorem view_execLocalAckTimeout (qp : Fin 1024) (s : State) {m : Nat} (hm : 149722080 &&& m = 149722080) : view m (outState (execLocalAckTimeout qp s) s) = view m s := by
  refine view_mono hm ?_
  unfold execLocalAckTimeout
  simp only [outState_next]
  (repeat' split) <;> simp

@[simp] theorem view_failTransfer (s : State) (uid adm : Nat) {m : Nat} (hm : 149722080 &&& m = 149722080) : view m (State.failTransfer s uid adm) = view m s := by
  refine view_mono hm ?_
  unfold State.failTransfer
  (repeat' split) <;> simp

@[simp] theorem view_nakTransfer (s : State) (adm : Nat) {m : Nat} (hm : 149722080 &&& m = 149722080) : view m (State.nakTransfer s adm) = view m s := by
  refine view_mono hm ?_
  unfold State.nakTransfer
  split <;> simp

@[simp] theorem view_execPayloadTransferNak (adm : Nat) (s : State) {m : Nat} (hm : 149722080 &&& m = 149722080) : view m (outState (execPayloadTransferNak adm s) s) = view m s := by
  refine view_mono hm ?_
  unfold execPayloadTransferNak
  simp only [outState_next]
  simp

@[simp] theorem view_execQueuePairFree (qp : Fin 1024) (s : State) {m : Nat} (hm : 524352 &&& m = 524352) : view m (outState (execQueuePairFree qp s) s) = view m s := by
  refine view_mono hm ?_
  unfold execQueuePairFree
  simp only [outState_next]
  split <;> simp

@[simp] theorem view_fetchMore (n : Nat) (s : State) (uid : Nat) {m : Nat} (hm : 524352 &&& m = 524352) : view m (State.fetchMore n s uid) = view m s := by
  refine view_mono hm ?_
  clear hm
  induction n generalizing s with
  | zero => rfl
  | succ n ih =>
    unfold State.fetchMore
    dsimp only
    (repeat' split) <;> simp [ih]

@[simp] theorem view_ringDoorbell (s : State) (q : Qp) (offset : Nat) (data : Bytes) {m : Nat} (hm : 149722080 &&& m = 149722080) : view m (State.ringDoorbell s q offset data) = view m s := by
  refine view_mono hm ?_
  unfold State.ringDoorbell
  dsimp only; (repeat' split) <;> simp

@[simp] theorem view_execDoorbell (qp : Fin 1024) (offset : Nat) (data : Bytes) (s : State) {m : Nat} (hm : 149722080 &&& m = 149722080) : view m (outState (execDoorbell qp offset data s) s) = view m s := by
  refine view_mono hm ?_
  unfold execDoorbell
  simp only [outState_next]
  (repeat' split) <;> simp

@[simp] theorem view_ringHeld (l : List (Nat × Bytes)) (s : State) (uid : Nat) {m : Nat} (hm : 149722080 &&& m = 149722080) :
    view m (State.ringHeld l s uid) = view m s := by
  refine view_mono hm ?_
  clear hm
  induction l generalizing s with
  | nil => rfl
  | cons a r ih =>
    unfold State.ringHeld
    split <;> simp [ih]

@[simp] theorem view_admitEntries (s : State) (uid sqHead : Nat) (l : List (Nat × Bytes)) {m : Nat} (hm : 149722080 &&& m = 149722080) :
    view m (s.admitEntries uid sqHead l) = view m s := by
  refine view_mono hm ?_
  clear hm
  induction l generalizing s with
  | nil => rfl
  | cons a r ih =>
    unfold State.admitEntries
    dsimp only
    (repeat' split) <;> simp [ih]

@[simp] theorem view_admitFetched (s : State) (uid : Nat) (entries : List Bytes) {m : Nat} (hm : 149722080 &&& m = 149722080) : view m (State.admitFetched s uid entries) = view m s := by
  refine view_mono hm ?_
  unfold State.admitFetched
  split <;> simp

@[simp] theorem view_resumeQp (s : State) (q : Qp) {m : Nat} (hm : 149722080 &&& m = 149722080) : view m (State.resumeQp s q) = view m s := by
  refine view_mono hm ?_
  unfold State.resumeQp
  repeat' (first | (simp [*]; done) | split | rw [view_foldl] | rw [view_foldlp] | intro _ _ | simp)

@[simp] theorem view_execEntryFetchResponse (qp : Fin 1024) (entries : List Bytes) (s : State) {m : Nat} (hm : 149722080 &&& m = 149722080) : view m (outState (execEntryFetchResponse qp entries s) s) = view m s := by
  refine view_mono hm ?_
  unfold execEntryFetchResponse
  simp only [outState_next]
  (repeat' split) <;> simp

@[simp] theorem view_takePayload (s : State) (c : Cmd) (data : Bytes) {m : Nat} (hm : 672 &&& m = 672) : view m (State.takePayload s c data) = view m s := by
  refine view_mono hm ?_
  unfold State.takePayload
  dsimp only
  split
  · (repeat' split) <;> simp
  · split <;> simp

@[simp] theorem view_execPayloadFetchResponse (adm : Nat) (data : Bytes) (s : State) {m : Nat} (hm : 525024 &&& m = 525024) : view m (outState (execPayloadFetchResponse adm data s) s) = view m s := by
  refine view_mono hm ?_
  unfold execPayloadFetchResponse
  simp only [outState_next]
  (repeat' split) <;> simp

@[simp] theorem view_spendReceive (s : State) (uid : Nat) {m : Nat} (hm : 16777280 &&& m = 16777280) : view m (State.spendReceive s uid) = view m s := by
  refine view_mono hm ?_
  unfold State.spendReceive
  simp

@[simp] theorem view_execCompletionWrite (qp : Fin 1024) (s : State) {m : Nat} (hm : 17301568 &&& m = 17301568) : view m (outState (execCompletionWrite qp s) s) = view m s := by
  refine view_mono hm ?_
  unfold execCompletionWrite
  simp only [outState_next]
  (repeat' split) <;> simp

@[simp] theorem view_execNotifyTimer (qp : Fin 1024) (s : State) {m : Nat} (hm : 17301568 &&& m = 17301568) : view m (outState (execNotifyTimer qp s) s) = view m s := by
  refine view_mono hm ?_
  unfold execNotifyTimer
  simp only [outState_next]
  (repeat' split) <;> simp

end Sys2Proof.Machine
end

