-- ==== Sys2Proof/Laws/FrameMedia.lean ====
section
/-! SUPPORT. Frames of the drain, the journal and the flash array. The masks are those of `Laws/FrameBase.lean`. -/

namespace Sys2Proof.Machine

@[simp] theorem view_queueNodes (s : State) {m : Nat} (hm : 5376 &&& m = 5376) : view m (State.queueNodes s) = view m s := by
  refine view_mono hm ?_
  unfold State.queueNodes
  repeat' (first | (simp [*]; done) | split | rw [view_foldl] | rw [view_foldlp] | intro _ _ | simp)

@[simp] theorem view_beginSlice (s : State) {m : Nat} (hm : 40192 &&& m = 40192) : view m (State.beginSlice s) = view m s := by
  refine view_mono hm ?_
  unfold State.beginSlice
  simp

@[simp] theorem view_endSlice (s : State) (x : Slice) {m : Nat} (hm : 134256640 &&& m = 134256640) : view m (State.endSlice s x) = view m s := by
  refine view_mono hm ?_
  unfold State.endSlice
  simp

@[simp] theorem view_writeAllSlices (s : State) {m : Nat} (hm : 134256640 &&& m = 134256640) : view m (State.writeAllSlices s) = view m s := by
  refine view_mono hm ?_
  unfold State.writeAllSlices
  simp

@[simp] theorem view_setJob (s : State) (id : Nat) (f : Job → Job) {m : Nat} (hm : 4096 &&& m = 4096) : view m (State.setJob s id f) = view m s := by
  refine view_mono hm ?_
  unfold State.setJob
  simp

@[simp] theorem view_dropJob (s : State) (id : Nat) {m : Nat} (hm : 4096 &&& m = 4096) : view m (State.dropJob s id) = view m s := by
  refine view_mono hm ?_
  unfold State.dropJob
  simp

@[simp] theorem view_relocLane (s : State) {m : Nat} (hm : 8427520 &&& m = 8427520) : view m (State.relocLane s).1 = view m s := by
  refine view_mono hm ?_
  unfold State.relocLane
  (repeat' split) <;> simp

@[simp] theorem view_setRelocQueue (s : State) (rest : List JobItem) {m : Nat} (hm : 4096 &&& m = 4096) : view m (State.setRelocQueue s rest) = view m s := by
  refine view_mono hm ?_
  unfold State.setRelocQueue
  simp

theorem view_relocUnit (s t : State) {m : Nat} (hm : 142645760 &&& m = 142645760) (h : s.relocUnit = some t) : view m t = view m s := by
  refine view_mono hm ?_
  have f1 := view_relocLane s (m := 142645760) (by decide)
  unfold State.relocUnit at h
  dsimp only at h
  generalize s.relocLane = p at f1 h
  rcases p with ⟨u, _ | g⟩ <;> dsimp only at f1 h
  · split at h <;> simp at h
  · split at h
    · simp at h
    · simp only [Option.map_some, Option.some.injEq] at h
      rw [← h, ← f1]
      split <;> simp

@[simp] theorem view_pumpReloc (s : State) {m : Nat} (hm : 142645760 &&& m = 142645760) : view m (State.pumpReloc s) = view m s := by
  refine view_mono hm ?_
  unfold State.pumpReloc
  split
  · rfl
  split
  · rfl
  next t h =>
    have e := view_relocUnit s t (m := 142645760) (by decide) h
    cases h2 : t.relocUnit with
    | none => simpa [h2] using e
    | some u => simpa [h2] using (view_relocUnit t u (m := 142645760) (by decide) h2).trans e

@[simp] theorem view_finishCopy (s : State) {m : Nat} (hm : 38912 &&& m = 38912) : view m (State.finishCopy s) = view m s := by
  refine view_mono hm ?_
  unfold State.finishCopy
  (repeat' split) <;> simp

@[simp] theorem view_placeAnew (s : State) (j : Job) {m : Nat} (hm : 4608 &&& m = 4608) : view m (State.placeAnew s j) = view m s := by
  refine view_mono hm ?_
  unfold State.placeAnew
  simp

@[simp] theorem view_writeAgain (s : State) (j : Job) (g : Segment) {m : Nat} (hm : 4608 &&& m = 4608) : view m (State.writeAgain s j g) = view m s := by
  refine view_mono hm ?_
  unfold State.writeAgain
  dsimp only; (repeat' split) <;> simp

@[simp] theorem view_nextUnit (s : State) (j : Job) (g : Segment) {m : Nat} (hm : 4096 &&& m = 4096) : view m (State.nextUnit s j g) = view m s := by
  refine view_mono hm ?_
  unfold State.nextUnit
  dsimp only; (repeat' split) <;> simp

@[simp] theorem view_unitEnded (s : State) (j : Job) {m : Nat} (hm : 4608 &&& m = 4608) : view m (State.unitEnded s j) = view m s := by
  refine view_mono hm ?_
  unfold State.unitEnded
  (repeat' split) <;> simp

@[simp] theorem view_programEnded (s : State) (j : Job) (ch : Nat) (ok : Bool) {m : Nat} (hm : 8425984 &&& m = 8425984) : view m (State.programEnded s j ch ok) = view m s := by
  refine view_mono hm ?_
  unfold State.programEnded
  dsimp only; (repeat' split) <;> simp

@[simp] theorem view_execProgramUnitDone (ch : Fin 18) (pos : Fin 4) (ok : Bool) (s : State) {m : Nat} (hm : 142646016 &&& m = 142646016) : view m (outState (execProgramUnitDone ch pos ok s) s) = view m s := by
  refine view_mono hm ?_
  unfold execProgramUnitDone
  simp only [outState_next]
  split <;> simp

@[simp] theorem view_execDrainPartialRowTimer (st : Stream) (s : State) {m : Nat} (hm : 142646016 &&& m = 142646016) : view m (outState (execDrainPartialRowTimer st s) s) = view m s := by
  refine view_mono hm ?_
  unfold execDrainPartialRowTimer
  simp only [outState_next]
  simp

@[simp] theorem view_nodeItem (s : State) (seg : Nat) (i : JobItem) {m : Nat} (hm : 5120 &&& m = 5120) : view m (State.nodeItem s seg i) = view m s := by
  refine view_mono hm ?_
  unfold State.nodeItem
  dsimp only; (repeat' split) <;> simp

@[simp] theorem view_journalItems (s : State) (seg : Nat) (l : List JobItem) {m : Nat} (hm : 7680 &&& m = 7680) :
    view m (s.journalItems seg l).1 = view m s := by
  refine view_mono hm ?_
  clear hm
  induction l generalizing s with
  | nil => rfl
  | cons a r ih =>
    unfold State.journalItems
    dsimp only
    (repeat' split) <;> simp [ih]

@[simp] theorem view_journalJob (s : State) (j : Job) {m : Nat} (hm : 40448 &&& m = 40448) : view m (State.journalJob s j) = view m s := by
  refine view_mono hm ?_
  have f1 := view_journalItems s j.seg j.items (m := 40448) (by decide)
  unfold State.journalJob
  dsimp only
  split <;> simp [f1]

@[simp] theorem view_execDrainRowProgrammed (job : Nat) (s : State) {m : Nat} (hm : 40448 &&& m = 40448) : view m (outState (execDrainRowProgrammed job s) s) = view m s := by
  refine view_mono hm ?_
  unfold execDrainRowProgrammed
  simp only [outState_next]
  (repeat' split) <;> simp

@[simp] theorem view_execGcRowProgrammed (job : Nat) (s : State) {m : Nat} (hm : 142646784 &&& m = 142646784) : view m (outState (execGcRowProgrammed job s) s) = view m s := by
  refine view_mono hm ?_
  unfold execGcRowProgrammed
  simp only [outState_next]
  (repeat' split) <;> simp

@[simp] theorem view_itemDone (s : State) (j : Job) (n : Nat) {m : Nat} (hm : 4096 &&& m = 4096) : view m (State.itemDone s j n) = view m s := by
  refine view_mono hm ?_
  unfold State.itemDone
  dsimp only; split <;> simp

@[simp] theorem view_wakeWaiters (s : State) (r : LRec) {m : Nat} (hm : 137102304 &&& m = 137102304) : view m (State.wakeWaiters s r) = view m s := by
  refine view_mono hm ?_
  unfold State.wakeWaiters
  repeat' (first | (simp [*]; done) | split | rw [view_foldl] | rw [view_foldlp] | intro _ _ | simp)

@[simp] theorem view_drained (s : State) (seg : Nat) (i : JobItem) (r : LRec) (set_ : Bool) {m : Nat} (hm : 137103328 &&& m = 137103328) : view m (State.drained s seg i r set_) = view m s := by
  refine view_mono hm ?_
  unfold State.drained
  split <;> simp

@[simp] theorem view_journalDead (s : State) (j : Job) (i : JobItem) (ks : Nat) {m : Nat} (hm : 38912 &&& m = 38912) : view m (State.journalDead s j i ks) = view m s := by
  refine view_mono hm ?_
  unfold State.journalDead
  simp

@[simp] theorem view_execMapRecordDurable (jseq : Nat) (s : State) {m : Nat} (hm : 145530848 &&& m = 145530848) : view m (outState (execMapRecordDurable jseq s) s) = view m s := by
  refine view_mono hm ?_
  unfold execMapRecordDurable
  simp only [outState_next]
  (repeat' split) <;> simp

@[simp] theorem view_execWriteThroughDone (adm : Nat) (s : State) {m : Nat} (hm : 162308064 &&& m = 162308064) : view m (outState (execWriteThroughDone adm s) s) = view m s := by
  refine view_mono hm ?_
  unfold execWriteThroughDone
  simp only [outState_next]
  (repeat' split) <;> simp

@[simp] theorem view_execJournalPageTimer (s : State) {m : Nat} (hm : 34816 &&& m = 34816) : view m (outState (execJournalPageTimer s) s) = view m s := by
  refine view_mono hm ?_
  unfold execJournalPageTimer
  simp only [outState_next]
  simp

@[simp] theorem view_execCheckpointSlice (s : State) {m : Nat} (hm : 142647040 &&& m = 142647040) : view m (outState (execCheckpointSlice s) s) = view m s := by
  refine view_mono hm ?_
  unfold execCheckpointSlice
  simp only [outState_next]
  (repeat' split) <;> simp

@[simp] theorem view_noteRebuild (s : State) {m : Nat} (hm : 8392704 &&& m = 8392704) : view m (State.noteRebuild s) = view m s := by
  refine view_mono hm ?_
  unfold State.noteRebuild
  split <;> simp

@[simp] theorem view_execSegmentSeal (seg : Nat) (s : State) {m : Nat} (hm : 8427520 &&& m = 8427520) : view m (outState (execSegmentSeal seg s) s) = view m s := by
  refine view_mono hm ?_
  unfold execSegmentSeal
  simp only [outState_next]
  (repeat' split) <;> simp

@[simp] theorem view_reinsert (s : State) (e : IdxEntry) {m : Nat} (hm : 1024 &&& m = 1024) : view m (State.reinsert s e) = view m s := by
  refine view_mono hm ?_
  unfold State.reinsert
  dsimp only; split <;> simp

@[simp] theorem view_execStashReinsert (s : State) {m : Nat} (hm : 1024 &&& m = 1024) : view m (outState (execStashReinsert s) s) = view m s := by
  refine view_mono hm ?_
  unfold execStashReinsert
  simp only [outState_next]
  repeat' (first | (simp [*]; done) | split | rw [view_foldl] | rw [view_foldlp] | intro _ _ | simp)

@[simp] theorem view_execReclaimSweep (range : Nat) (s : State) {m : Nat} (hm : 34816 &&& m = 34816) : view m (outState (execReclaimSweep range s) s) = view m s := by
  refine view_mono hm ?_
  unfold execReclaimSweep
  simp only [outState_next]
  repeat' (first | (simp [*]; done) | split | rw [view_foldl] | rw [view_foldlp] | intro _ _ | simp)

@[simp] theorem view_loseKey (s : State) (e : IdxEntry) (f : FRec) (reason : Nat) {m : Nat} (hm : 34816 &&& m = 34816) : view m (State.loseKey s e f reason) = view m s := by
  refine view_mono hm ?_
  unfold State.loseKey
  split <;> simp

@[simp] theorem view_loseNow (s : State) (loc : Loc) (f : LostEntry) (reason : Nat) (src : Source) {m : Nat} (hm : 145491936 &&& m = 145491936) : view m (State.loseNow s loc f reason src) = view m s := by
  refine view_mono hm ?_
  unfold State.loseNow
  dsimp only; split <;> simp

@[simp] theorem view_recalibrate (s : State) (ch pos slot : Nat) {m : Nat} (hm : 16781312 &&& m = 16781312) : view m (State.recalibrate s ch pos slot) = view m s := by
  refine view_mono hm ?_
  unfold State.recalibrate
  simp

@[simp] theorem view_markRefresh (s : State) (seg : Nat) {m : Nat} (hm : 4096 &&& m = 4096) : view m (State.markRefresh s seg) = view m s := by
  refine view_mono hm ?_
  unfold State.markRefresh
  simp

@[simp] theorem view_readMarks (s : State) (seg ch pos : Nat) (o : ReadOutcome) {m : Nat} (hm : 25169920 &&& m = 25169920) : view m (State.readMarks s seg ch pos o) = view m s := by
  refine view_mono hm ?_
  unfold State.readMarks
  (repeat' split) <;> simp

@[simp] theorem view_countRead (s : State) (seg ch k : Nat) {m : Nat} (hm : 4096 &&& m = 4096) : view m (State.countRead s seg ch k) = view m s := by
  refine view_mono hm ?_
  unfold State.countRead
  simp

@[simp] theorem view_pumpGcReads (s : State) {m : Nat} (hm : 36864 &&& m = 36864) : view m (State.pumpGcReads s) = view m s := by
  refine view_mono hm ?_
  unfold State.pumpGcReads
  repeat' (first | (simp [*]; done) | split | rw [view_foldl] | rw [view_foldlp] | intro _ _ | simp)

@[simp] theorem view_dropRead (s : State) (id : Nat) {m : Nat} (hm : 4096 &&& m = 4096) : view m (State.dropRead s id) = view m s := by
  refine view_mono hm ?_
  unfold State.dropRead
  simp

@[simp] theorem view_returnAll (s : State) (why : Purpose) {m : Nat} (hm : 32768 &&& m = 32768) : view m (State.returnAll s why) = view m s := by
  refine view_mono hm ?_
  unfold State.returnAll
  repeat' (first | (simp [*]; done) | split | rw [view_foldl] | rw [view_foldlp] | intro _ _ | simp)

@[simp] theorem view_readsEnded (s : State) (adm : Nat) {m : Nat} (hm : 162308064 &&& m = 162308064) : view m (State.readsEnded s adm) = view m s := by
  refine view_mono hm ?_
  unfold State.readsEnded
  (repeat' split) <;> simp

@[simp] theorem view_pumpErases (s : State) {m : Nat} (hm : 36864 &&& m = 36864) : view m (State.pumpErases s) = view m s := by
  refine view_mono hm ?_
  unfold State.pumpErases
  repeat' (first | (simp [*]; done) | split | rw [view_foldl] | rw [view_foldlp] | intro _ _ | simp)

@[simp] theorem view_refind (s : State) (adm elem : Nat) (ks : Nat) (key : Bytes) {m : Nat} (hm : 128 &&& m = 128) : view m (State.refind s adm elem ks key) = view m s := by
  refine view_mono hm ?_
  unfold State.refind
  split <;> simp

@[simp] theorem view_listSource (s : State) {m : Nat} (hm : 38912 &&& m = 38912) : view m (State.listSource s) = view m s := by
  refine view_mono hm ?_
  unfold State.listSource
  repeat' (first | (simp [*]; done) | split | rw [view_foldl] | rw [view_foldlp] | intro _ _ | simp)

@[simp] theorem view_readGiven (s : State) (r : ReadOp) {m : Nat} (hm : 162308064 &&& m = 162308064) : view m (State.readGiven s r) = view m s := by
  refine view_mono hm ?_
  unfold State.readGiven
  split <;> simp

@[simp] theorem view_readLost (s : State) (r : ReadOp) {m : Nat} (hm : 162308064 &&& m = 162308064) : view m (State.readLost s r) = view m s := by
  refine view_mono hm ?_
  unfold State.readLost
  (repeat' split) <;> simp

@[simp] theorem view_readsLost (s : State) (loc : Loc) {m : Nat} (hm : 162308064 &&& m = 162308064) : view m (State.readsLost s loc) = view m s := by
  refine view_mono hm ?_
  unfold State.readsLost
  repeat' (first | (simp [*]; done) | split | rw [view_foldl] | rw [view_foldlp] | intro _ _ | simp)

@[simp] theorem view_readEnded (s : State) (r : ReadOp) {m : Nat} (hm : 162308064 &&& m = 162308064) : view m (State.readEnded s r) = view m s := by
  refine view_mono hm ?_
  unfold State.readEnded
  dsimp only; (repeat' split) <;> simp

@[simp] theorem view_suspendDie (s : State) (ch pos : Nat) {m : Nat} (hm : 4096 &&& m = 4096) : view m (State.suspendDie s ch pos) = view m s := by
  refine view_mono hm ?_
  unfold State.suspendDie
  split <;> simp

@[simp] theorem view_pageEnded (s : State) (r : ReadOp) (o : ReadOutcome) {m : Nat} (hm : 162308064 &&& m = 162308064) : view m (State.pageEnded s r o) = view m s := by
  refine view_mono hm ?_
  unfold State.pageEnded
  dsimp only; (repeat' split) <;> simp

@[simp] theorem view_reviewMedia (s : State) {m : Nat} (hm : 145490912 &&& m = 145490912) : view m (State.reviewMedia s) = view m s := by
  refine view_mono hm ?_
  unfold State.reviewMedia
  dsimp only; (repeat' split) <;> simp

@[simp] theorem view_startRebuild (s : State) (onUnit : Segment → Bool) {m : Nat} (hm : 8392704 &&& m = 8392704) : view m (State.startRebuild s onUnit) = view m s := by
  refine view_mono hm ?_
  unfold State.startRebuild
  simp

@[simp] theorem view_markRebuilt (s : State) {m : Nat} (hm : 4096 &&& m = 4096) : view m (State.markRebuilt s) = view m s := by
  refine view_mono hm ?_
  unfold State.markRebuilt
  simp

@[simp] theorem view_endRebuild (s : State) {m : Nat} (hm : 8392704 &&& m = 8392704) : view m (State.endRebuild s) = view m s := by
  refine view_mono hm ?_
  unfold State.endRebuild
  split <;> simp

@[simp] theorem view_failPrograms (s : State) (ch pos : Nat) {m : Nat} (hm : 8425984 &&& m = 8425984) : view m (State.failPrograms s ch pos) = view m s := by
  refine view_mono hm ?_
  unfold State.failPrograms
  repeat' (first | (simp [*]; done) | split | rw [view_foldl] | rw [view_foldlp] | intro _ _ | simp)

@[simp] theorem view_retireDie (s : State) (ch pos : Nat) {m : Nat} (hm : 145529824 &&& m = 145529824) : view m (State.retireDie s ch pos) = view m s := by
  refine view_mono hm ?_
  unfold State.retireDie
  split <;> simp

@[simp] theorem view_retireChannel (s : State) (ch : Nat) {m : Nat} (hm : 145529824 &&& m = 145529824) : view m (State.retireChannel s ch) = view m s := by
  refine view_mono hm ?_
  unfold State.retireChannel
  repeat' (first | (simp [*]; done) | split | rw [view_foldl] | rw [view_foldlp] | intro _ _ | simp)

@[simp] theorem view_retireBlock (s : State) (ch pos slot cause : Nat) {m : Nat} (hm : 145529824 &&& m = 145529824) : view m (State.retireBlock s ch pos slot cause) = view m s := by
  refine view_mono hm ?_
  unfold State.retireBlock
  dsimp only; split <;> simp

@[simp] theorem view_retireMeta (s : State) (ch pos block cause : Nat) {m : Nat} (hm : 145529824 &&& m = 145529824) : view m (State.retireMeta s ch pos block cause) = view m s := by
  refine view_mono hm ?_
  unfold State.retireMeta
  split <;> simp

@[simp] theorem view_execDieResetRetry (ch : Fin 18) (pos : Fin 4) (ok : Bool) (s : State) {m : Nat} (hm : 145529824 &&& m = 145529824) : view m (outState (execDieResetRetry ch pos ok s) s) = view m s := by
  refine view_mono hm ?_
  unfold execDieResetRetry
  simp only [outState_next]
  (repeat' split) <;> simp

@[simp] theorem view_execChannelRetrain (ch : Fin 18) (ok : Bool) (s : State) {m : Nat} (hm : 145529824 &&& m = 145529824) : view m (outState (execChannelRetrain ch ok s) s) = view m s := by
  refine view_mono hm ?_
  unfold execChannelRetrain
  simp only [outState_next]
  (repeat' split) <;> simp

@[simp] theorem view_setAside (s : State) {m : Nat} (hm : 36864 &&& m = 36864) : view m (State.setAside s) = view m s := by
  refine view_mono hm ?_
  unfold State.setAside
  repeat' (first | (simp [*]; done) | split | rw [view_foldl] | rw [view_foldlp] | intro _ _ | simp)

@[simp] theorem view_gcAfresh (s : State) {m : Nat} (hm : 8425472 &&& m = 8425472) : view m (State.gcAfresh s) = view m s := by
  refine view_mono hm ?_
  unfold State.gcAfresh
  split <;> simp

@[simp] theorem view_startCopy (s : State) (g : Segment) (why : Nat) {m : Nat} (hm : 38912 &&& m = 38912) : view m (State.startCopy s g why) = view m s := by
  refine view_mono hm ?_
  unfold State.startCopy
  simp

@[simp] theorem view_execGcSourceStart (s : State) {m : Nat} (hm : 38912 &&& m = 38912) : view m (outState (execGcSourceStart s) s) = view m s := by
  refine view_mono hm ?_
  unfold execGcSourceStart
  simp only [outState_next]
  (repeat' split) <;> simp

@[simp] theorem view_beginCopy (s : State) {m : Nat} (hm : 36864 &&& m = 36864) : view m (State.beginCopy s) = view m s := by
  refine view_mono hm ?_
  unfold State.beginCopy
  (repeat' split) <;> simp

@[simp] theorem view_execCopyDone (seg : Nat) (s : State) {m : Nat} (hm : 302080 &&& m = 302080) : view m (outState (execCopyDone seg s) s) = view m s := by
  refine view_mono hm ?_
  unfold execCopyDone
  simp only [outState_next]
  (repeat' split) <;> simp

@[simp] theorem view_reviewWear (s : State) {m : Nat} (hm : 8392704 &&& m = 8392704) : view m (State.reviewWear s) = view m s := by
  refine view_mono hm ?_
  unfold State.reviewWear
  dsimp only; split <;> simp

@[simp] theorem view_freeSeg (s : State) (seg : Nat) {m : Nat} (hm : 8392704 &&& m = 8392704) : view m (State.freeSeg s seg) = view m s := by
  refine view_mono hm ?_
  unfold State.freeSeg
  simp

@[simp] theorem view_execEraseDone (seg : Nat) (failed : List (Fin 18)) (s : State) {m : Nat} (hm : 145529824 &&& m = 145529824) : view m (outState (execEraseDone seg failed s) s) = view m s := by
  refine view_mono hm ?_
  unfold execEraseDone
  simp only [outState_next]
  repeat' (first | (simp [*]; done) | split | rw [view_foldl] | rw [view_foldlp] | intro _ _ | simp)

@[simp] theorem view_execScrubCreditTick (s : State) {m : Nat} (hm : 4096 &&& m = 4096) : view m (outState (execScrubCreditTick s) s) = view m s := by
  refine view_mono hm ?_
  unfold execScrubCreditTick
  simp only [outState_next]
  simp

@[simp] theorem view_scrubSeg (s : State) (g : Segment) (ch pos : Nat) (o : ReadOutcome) (highErrors : Bool) {m : Nat} (hm : 162308064 &&& m = 162308064) : view m (State.scrubSeg s g ch pos o highErrors) = view m s := by
  refine view_mono hm ?_
  unfold State.scrubSeg
  repeat' (first | (simp [*]; done) | split | rw [view_foldl] | rw [view_foldlp] | intro _ _ | simp)

@[simp] theorem view_execScrubBlock (ch : Fin 18) (pos : Fin 4) (slot : Nat) (o : ReadOutcome) (highErrors : Bool) (s : State) {m : Nat} (hm : 162308064 &&& m = 162308064) : view m (outState (execScrubBlock ch pos slot o highErrors s) s) = view m s := by
  refine view_mono hm ?_
  unfold execScrubBlock
  simp only [outState_next]
  (repeat' split) <;> simp

@[simp] theorem view_runAct (s : State) (a : JAct) {m : Nat} (hm : 162308064 &&& m = 162308064) : view m (State.runAct s a) = view m s := by
  refine view_mono hm ?_
  unfold State.runAct
  dsimp only; (repeat' split) <;> simp

@[simp] theorem view_runActs (s : State) {m : Nat} (hm : 162308064 &&& m = 162308064) : view m (State.runActs s) = view m s := by
  refine view_mono hm ?_
  unfold State.runActs
  repeat' (first | (simp [*]; done) | split | rw [view_foldl] | rw [view_foldlp] | intro _ _ | simp)

@[simp] theorem view_execJournalPageProgrammed (s : State) {m : Nat} (hm : 162308064 &&& m = 162308064) : view m (outState (execJournalPageProgrammed s) s) = view m s := by
  refine view_mono hm ?_
  unfold execJournalPageProgrammed
  simp only [outState_next]
  split <;> simp

@[simp] theorem view_execRepackStart (s : State) {m : Nat} (hm : 4096 &&& m = 4096) : view m (outState (execRepackStart s) s) = view m s := by
  refine view_mono hm ?_
  unfold execRepackStart
  simp only [outState_next]
  split <;> simp

end Sys2Proof.Machine
end

