-- ==== Sys2Proof/Laws/FramePorts.lean ====
section
/-! SUPPORT. Frames of Mirror mode, the recorder, the ports and the PTP unit. The masks are those of `Laws/FrameBase.lean`. -/

namespace Sys2Proof.Machine

@[simp] theorem view_newSpace (s : State) (ks adm : Nat) (ordered : Bool) (lim : Limits) (pol : Policy) (durable hidden : Bool) {m : Nat} (hm : 4194560 &&& m = 4194560) : view m (State.newSpace s ks adm ordered lim pol durable hidden) = view m s := by
  refine view_mono hm ?_
  unfold State.newSpace
  simp

@[simp] theorem view_writeKeys (s : State) {m : Nat} (hm : 4231168 &&& m = 4231168) : view m (State.writeKeys s) = view m s := by
  refine view_mono hm ?_
  unfold State.writeKeys
  simp

@[simp] theorem view_pushPolicy (s : State) (ks adm : Nat) (p : Policy) {m : Nat} (hm : 256 &&& m = 256) : view m (State.pushPolicy s ks adm p) = view m s := by
  refine view_mono hm ?_
  unfold State.pushPolicy
  simp

@[simp] theorem view_dropLog (s : State) (ks : Nat) {m : Nat} (hm : 262144 &&& m = 262144) : view m (State.dropLog s ks) = view m s := by
  refine view_mono hm ?_
  unfold State.dropLog
  simp

@[simp] theorem view_dropSync (s : State) (ks : Nat) {m : Nat} (hm : 262144 &&& m = 262144) : view m (State.dropSync s ks) = view m s := by
  refine view_mono hm ?_
  unfold State.dropSync
  simp

@[simp] theorem view_syncState (s : State) (ks st : Nat) {m : Nat} (hm : 8388864 &&& m = 8388864) : view m (State.syncState s ks st) = view m s := by
  refine view_mono hm ?_
  unfold State.syncState
  simp

@[simp] theorem view_enterState (s : State) (ks st : Nat) {m : Nat} (hm : 8388864 &&& m = 8388864) : view m (State.enterState s ks st) = view m s := by
  refine view_mono hm ?_
  unfold State.enterState
  split <;> simp

@[simp] theorem view_stopMirroring (s : State) (ks : Nat) {m : Nat} (hm : 8651008 &&& m = 8651008) : view m (State.stopMirroring s ks) = view m s := by
  refine view_mono hm ?_
  unfold State.stopMirroring
  simp

@[simp] theorem view_mirrorRead (s : State) (ks : Nat) (key : Bytes) (loc : Loc) {m : Nat} (hm : 299008 &&& m = 299008) : view m (State.mirrorRead s ks key loc).2 = view m s := by
  refine view_mono hm ?_
  unfold State.mirrorRead
  (repeat' split) <;> simp

@[simp] theorem view_sendItem (s : State) (i : MSync) {m : Nat} (hm : 135004928 &&& m = 135004928) : view m (State.sendItem s i) = view m s := by
  refine view_mono hm ?_
  unfold State.sendItem
  dsimp only; (repeat' split) <;> simp

@[simp] theorem view_itemRead (s : State) (i : MSync) {m : Nat} (hm : 299008 &&& m = 299008) : view m (State.itemRead s i).2 = view m s := by
  refine view_mono hm ?_
  unfold State.itemRead
  (repeat' split) <;> simp

@[simp] theorem view_pumpSync (n : Nat) (s : State) {m : Nat} (hm : 135041792 &&& m = 135041792) : view m (State.pumpSync n s) = view m s := by
  refine view_mono hm ?_
  clear hm
  induction n generalizing s with
  | zero => rfl
  | succ n ih =>
    unfold State.pumpSync
    split
    · rfl
    split
    · rfl
    rename_i i _ _ _
    have f1 := view_itemRead s i (m := 135041792) (by decide)
    dsimp only
    split <;> simp [ih, f1]

@[simp] theorem view_queueSync (s : State) (ks kind : Nat) (items : List MSync) {m : Nat} (hm : 262144 &&& m = 262144) : view m (State.queueSync s ks kind items) = view m s := by
  refine view_mono hm ?_
  unfold State.queueSync
  simp

@[simp] theorem view_startSeed (s : State) (ks : Nat) {m : Nat} (hm : 8651008 &&& m = 8651008) : view m (State.startSeed s ks) = view m s := by
  refine view_mono hm ?_
  unfold State.startSeed
  simp

@[simp] theorem view_startFull (s : State) (ks : Nat) {m : Nat} (hm : 8651008 &&& m = 8651008) : view m (State.startFull s ks) = view m s := by
  refine view_mono hm ?_
  unfold State.startFull
  simp

@[simp] theorem view_queueUnknown (s : State) (ks : Nat) {m : Nat} (hm : 262144 &&& m = 262144) : view m (State.queueUnknown s ks) = view m s := by
  refine view_mono hm ?_
  unfold State.queueUnknown
  simp

@[simp] theorem view_startDelta (s : State) (ks : Nat) {m : Nat} (hm : 8651008 &&& m = 8651008) : view m (State.startDelta s ks) = view m s := by
  refine view_mono hm ?_
  unfold State.startDelta
  dsimp only; split <;> simp

@[simp] theorem view_askFull (s : State) (ks kind : Nat) {m : Nat} (hm : 786432 &&& m = 786432) : view m (State.askFull s ks kind) = view m s := by
  refine view_mono hm ?_
  unfold State.askFull
  simp

@[simp] theorem view_sendCfg (s : State) (ks action : Nat) (ordered : Bool) (p : Policy) {m : Nat} (hm : 786432 &&& m = 786432) : view m (State.sendCfg s ks action ordered p).1 = view m s := by
  refine view_mono hm ?_
  unfold State.sendCfg
  simp

@[simp] theorem view_offerSeed (s : State) (ks : Nat) {m : Nat} (hm : 9175296 &&& m = 9175296) : view m (State.offerSeed s ks) = view m s := by
  refine view_mono hm ?_
  unfold State.offerSeed
  split <;> simp

@[simp] theorem view_startSync (s : State) (k : KeySpace) {m : Nat} (hm : 9175296 &&& m = 9175296) : view m (State.startSync s k) = view m s := by
  refine view_mono hm ?_
  unfold State.startSync
  (repeat' split) <;> simp

@[simp] theorem view_inSync (s : State) (ks : Nat) {m : Nat} (hm : 8651008 &&& m = 8651008) : view m (State.inSync s ks) = view m s := by
  refine view_mono hm ?_
  unfold State.inSync
  dsimp only; split <;> simp

@[simp] theorem view_checkSync (s : State) {m : Nat} (hm : 8651008 &&& m = 8651008) : view m (State.checkSync s) = view m s := by
  refine view_mono hm ?_
  unfold State.checkSync
  repeat' (first | (simp [*]; done) | split | rw [view_foldl] | rw [view_foldlp] | intro _ _ | simp)

@[simp] theorem view_refusedState (s : State) (ks : Nat) (st : BitVec 16) {m : Nat} (hm : 8651008 &&& m = 8651008) : view m (State.refusedState s ks st) = view m s := by
  refine view_mono hm ?_
  unfold State.refusedState
  repeat' (first | (simp [*]; done) | split | rw [view_foldl] | rw [view_foldlp] | intro _ _ | simp)

@[simp] theorem view_takeRefuse (s : State) (lseq : Nat) (st : BitVec 16) {m : Nat} (hm : 145490912 &&& m = 145490912) : view m (State.takeRefuse s lseq st) = view m s := by
  refine view_mono hm ?_
  unfold State.takeRefuse
  dsimp only; (repeat' split) <;> simp

@[simp] theorem view_wakeMirror (s : State) (lapp : Nat) {m : Nat} (hm : 145490912 &&& m = 145490912) : view m (State.wakeMirror s lapp) = view m s := by
  refine view_mono hm ?_
  unfold State.wakeMirror
  repeat' (first | (simp [*]; done) | split | rw [view_foldl] | rw [view_foldlp] | intro _ _ | simp)

@[simp] theorem view_forgetPairing (s : State) {m : Nat} (hm : 8651008 &&& m = 8651008) : view m (State.forgetPairing s) = view m s := by
  refine view_mono hm ?_
  unfold State.forgetPairing
  repeat' (first | (simp [*]; done) | split | rw [view_foldl] | rw [view_foldlp] | intro _ _ | simp)

@[simp] theorem view_endUnpair (s : State) {m : Nat} (hm : 9175296 &&& m = 9175296) : view m (State.endUnpair s) = view m s := by
  refine view_mono hm ?_
  unfold State.endUnpair
  dsimp only; (repeat' split) <;> simp

@[simp] theorem view_mirrorAcks (s : State) (m : MirrorMsg) {k : Nat} (hm : 145490912 &&& k = 145490912) : view k (State.mirrorAcks s m) = view k s := by
  refine view_mono hm ?_
  unfold State.mirrorAcks
  repeat' (first | (simp [*]; done) | split | rw [view_foldl] | rw [view_foldlp] | intro _ _ | simp)

@[simp] theorem view_internal (s : State) (lseqs : List Nat) (e : Entry) (payload : Bytes) (stamp : Nat) {m : Nat} (hm : 141329376 &&& m = 141329376) : view m (State.internal s lseqs e payload stamp) = view m s := by
  refine view_mono hm ?_
  unfold State.internal
  simp

@[simp] theorem view_applied (s : State) (lseqs : List Nat) (st : BitVec 16) {m : Nat} (hm : 786432 &&& m = 786432) : view m (State.applied s lseqs st) = view m s := by
  refine view_mono hm ?_
  unfold State.applied
  simp

@[simp] theorem view_countDelivered (s : State) (ks : Nat) (key val : Bytes) (sync wins : Bool) {m : Nat} (hm : 262400 &&& m = 262400) : view m (State.countDelivered s ks key val sync wins) = view m s := by
  refine view_mono hm ?_
  unfold State.countDelivered
  dsimp only; (repeat' split) <;> simp

@[simp] theorem view_dropUnknown (s : State) (ks : Nat) (key : Bytes) {m : Nat} (hm : 262144 &&& m = 262144) : view m (State.dropUnknown s ks key) = view m s := by
  refine view_mono hm ?_
  unfold State.dropUnknown
  simp

@[simp] theorem view_applyKey (s : State) (lseqs : List Nat) (m : MirrorMsg) (op : Nat) (key tail : Bytes) {k : Nat} (hm : 149717984 &&& k = 149717984) : view k (State.applyKey s lseqs m op key tail) = view k s := by
  refine view_mono hm ?_
  unfold State.applyKey
  dsimp only; (repeat' split) <;> simp

theorem view_applyPart (s t : State) (r : MRecv) (e : s.applyPart r = some t) : view 149717984 t = view 149717984 s := by
  unfold State.applyPart at e
  dsimp only at e
  generalize (if fieldAt r.msg.body 0 4 = 0 then [] else _ : Bytes) = v at e
  split at e
  · rw [← Option.some.inj e]; simp
  split at e
  · rw [← Option.some.inj e]; simp
  split at e
  · cases e
  · rw [← Option.some.inj e]; simp

@[simp] theorem view_applyCfg (s : State) (r : MRecv) {m : Nat} (hm : 149724128 &&& m = 149724128) : view m (State.applyCfg s r) = view m s := by
  refine view_mono hm ?_
  unfold State.applyCfg
  repeat' (first | (simp [*]; done) | split | rw [view_foldl] | rw [view_foldlp] | intro _ _ | simp)

@[simp] theorem view_endFull (s : State) (ks : Nat) {m : Nat} (hm : 8685568 &&& m = 8685568) : view m (State.endFull s ks) = view m s := by
  refine view_mono hm ?_
  unfold State.endFull
  repeat' (first | (simp [*]; done) | split | rw [view_foldl] | rw [view_foldlp] | intro _ _ | simp)

@[simp] theorem view_applyMark (s : State) (r : MRecv) {m : Nat} (hm : 9210112 &&& m = 9210112) : view m (State.applyMark s r) = view m s := by
  refine view_mono hm ?_
  unfold State.applyMark
  dsimp only; (repeat' split) <;> simp

@[simp] theorem view_answerRepair (s : State) (r : MRecv) {m : Nat} (hm : 135004672 &&& m = 135004672) : view m (State.answerRepair s r) = view m s := by
  refine view_mono hm ?_
  unfold State.answerRepair
  dsimp only
  split
  · split
    · rw [view_foldl _ _ (fun s a => by simp)]
      cases s.lookup r.msg.ks.toNat r.msg.key <;> simp
    · simp
  · simp

@[simp] theorem view_rewrite (s : State) (e : IdxEntry) (r : ReadOp) (f : FRec) (val : Bytes) {m : Nat} (hm : 5632 &&& m = 5632) : view m (State.rewrite s e r f val) = view m s := by
  refine view_mono hm ?_
  unfold State.rewrite
  dsimp only; (repeat' split) <;> simp

@[simp] theorem view_readyCopy (s : State) (r : ReadOp) (f : FRec) {m : Nat} (hm : 4096 &&& m = 4096) : view m (State.readyCopy s r f) = view m s := by
  refine view_mono hm ?_
  unfold State.readyCopy
  (repeat' split) <;> simp

@[simp] theorem view_readRepaired (s : State) (r : ReadOp) (f : FRec) {m : Nat} (hm : 162308064 &&& m = 162308064) : view m (State.readRepaired s r f) = view m s := by
  refine view_mono hm ?_
  unfold State.readRepaired
  split <;> simp

@[simp] theorem view_repaired (s : State) (r : ReadOp) (val : Bytes) {m : Nat} (hm : 162308064 &&& m = 162308064) : view m (State.repaired s r val) = view m s := by
  refine view_mono hm ?_
  unfold State.repaired
  split <;> simp

@[simp] theorem view_takeRepair (s : State) (r : MRecv) {m : Nat} (hm : 162308064 &&& m = 162308064) : view m (State.takeRepair s r) = view m s := by
  refine view_mono hm ?_
  unfold State.takeRepair
  repeat' (first | (simp [*]; done) | split | rw [view_foldl] | rw [view_foldlp] | intro _ _ | simp)

@[simp] theorem view_seedsDue (s : State) {m : Nat} (hm : 256 &&& m = 256) : view m (State.seedsDue s) = view m s := by
  refine view_mono hm ?_
  unfold State.seedsDue
  simp

@[simp] theorem view_mirrorLoss (s : State) {m : Nat} (hm : 145490912 &&& m = 145490912) : view m (State.mirrorLoss s) = view m s := by
  refine view_mono hm ?_
  unfold State.mirrorLoss
  repeat' (first | (simp [*]; done) | split | rw [view_foldl] | rw [view_foldlp] | intro _ _ | simp)

@[simp] theorem view_markFullAgain (s : State) {m : Nat} (hm : 262144 &&& m = 262144) : view m (State.markFullAgain s) = view m s := by
  refine view_mono hm ?_
  unfold State.markFullAgain
  simp

@[simp] theorem view_peerGone (s : State) {m : Nat} (hm : 145490912 &&& m = 145490912) : view m (State.peerGone s) = view m s := by
  refine view_mono hm ?_
  unfold State.peerGone
  simp

@[simp] theorem view_applyOther (s : State) (r : MRecv) {m : Nat} (hm : 166502368 &&& m = 166502368) : view m (State.applyOther s r) = view m s := by
  refine view_mono hm ?_
  unfold State.applyOther
  split <;> simp

@[simp] theorem view_repairRead (s : State) (r : MRecv) {m : Nat} (hm : 299008 &&& m = 299008) : view m (State.repairRead s r) = view m s := by
  refine view_mono hm ?_
  unfold State.repairRead
  cases s.repairLoc r <;> simp

@[simp] theorem view_askRepair (s : State) {m : Nat} (hm : 299008 &&& m = 299008) : view m (State.askRepair s) = view m s := by
  refine view_mono hm ?_
  unfold State.askRepair
  (repeat' split) <;> simp

theorem view_applyNext (s t : State) (e : s.applyNext = some t) : view 166502368 t = view 166502368 s := by
  unfold State.applyNext at e
  split at e
  · cases e
  split at e
  · split at e
    · cases e
    split at e
    · exact view_mono (by decide) (view_applyPart _ _ _ e)
    split at e <;> (rw [← Option.some.inj e]; simp)
  · split at e
    · split at e
      · cases e
      · rw [← Option.some.inj e]; simp
    · cases e

@[simp] theorem view_applyAll (n : Nat) (s : State) {m : Nat} (hm : 166502368 &&& m = 166502368) : view m (State.applyAll n s) = view m s := by
  refine view_mono hm ?_
  clear hm
  induction n generalizing s with
  | zero => rfl
  | succ n ih =>
    unfold State.applyAll
    split
    next t e => rw [ih, view_applyNext _ _ e]
    · simp

@[simp] theorem view_mirrorTurn (s : State) {m : Nat} (hm : 166502368 &&& m = 166502368) : view m (State.mirrorTurn s) = view m s := by
  refine view_mono hm ?_
  unfold State.mirrorTurn
  split <;> simp

@[simp] theorem view_mirrorHeard (s : State) (m : MirrorMsg) {k : Nat} (hm : 145490912 &&& k = 145490912) : view k (State.mirrorHeard s m) = view k s := by
  refine view_mono hm ?_
  unfold State.mirrorHeard
  simp

@[simp] theorem view_mirrorNext (s : State) (n typ : Nat) (m : MirrorMsg) {k : Nat} (hm : 166502368 &&& k = 166502368) : view k (State.mirrorNext s n typ m) = view k s := by
  refine view_mono hm ?_
  unfold State.mirrorNext
  simp

@[simp] theorem view_mirrorReceive (s : State) (typ : Nat) (m : MirrorMsg) {k : Nat} (hm : 166502368 &&& k = 166502368) : view k (State.mirrorReceive s typ m) = view k s := by
  refine view_mono hm ?_
  unfold State.mirrorReceive
  dsimp only; (repeat' split) <;> simp

@[simp] theorem view_sendHello (s : State) (p : Fin 2) {m : Nat} (hm : 17563648 &&& m = 17563648) : view m (State.sendHello s p) = view m s := by
  refine view_mono hm ?_
  unfold State.sendHello
  simp

@[simp] theorem view_openLink (s : State) {m : Nat} (hm : 25952256 &&& m = 25952256) : view m (State.openLink s) = view m s := by
  refine view_mono hm ?_
  unfold State.openLink
  split <;> simp

theorem view_rebuildPage (s t : State) (r : ReadOp) (g : Segment) (byte ch : Nat) {m : Nat} (hm : 32768 &&& m = 32768) (h : s.rebuildPage r g byte ch = some t) :
    view m t = view m s := by
  refine view_mono hm ?_
  unfold State.rebuildPage at h
  dsimp only at h
  split at h
  · obtain rfl := Option.some.inj h
    split
    · rfl
    · exact view_foldl _ _ (fun s a => by simp) _ _
  · split at h
    · obtain rfl := Option.some.inj h
      rfl
    · simp at h

@[simp] theorem view_rowRead (s : State) (r : ReadOp) (g : Segment) (byte ch : Nat) {m : Nat} (hm : 36864 &&& m = 36864) : view m (State.rowRead s r g byte ch) = view m s := by
  refine view_mono hm ?_
  unfold State.rowRead
  repeat' (first | (simp [*]; done) | split | rw [view_foldl] | rw [view_foldlp] | intro _ _ | simp)

@[simp] theorem view_execPageReadDone (read : Nat) (o : ReadOutcome) (s : State) {m : Nat} (hm : 166502368 &&& m = 166502368) : view m (outState (execPageReadDone read o s) s) = view m s := by
  refine view_mono hm ?_
  unfold execPageReadDone
  simp only [outState_next]
  split
  · split
    · simp
    split
    · rfl
    split
    · rfl
    split
    · next t h =>
        split at h
        · exact view_rebuildPage _ _ _ _ _ _ (by decide) h
        · simp at h
    · (repeat' split) <;> simp
  · rfl

@[simp] theorem view_runSup (s : State) (op : Nat) (f : State → Cmd → State) {m : Nat} (h : 137102304 &&& m = 137102304) (hf : ∀ c, view m (f s c) = view m s) : view m (s.runSup op f) = view m s := by
  unfold State.runSup
  split
  · exact view_checked _ _ _ h (hf _)
  · rfl

@[simp] theorem view_runCfg (s : State) (sel : Nat → Bool) (f : State → Cmd → State) {m : Nat} (h : 137102304 &&& m = 137102304) (hf : ∀ c, view m (f s c) = view m s) : view m (s.runCfg sel f) = view m s := by
  unfold State.runCfg
  split
  · split
    · exact view_checked _ _ _ h (hf _)
    · rfl
  · rfl

@[simp] theorem view_execMirrorHello (rx : Rx) (body : Bytes) (s : State) {m : Nat} (hm : 162268128 &&& m = 162268128) : view m (outState (execMirrorHello rx body s) s) = view m s := by
  refine view_mono hm ?_
  unfold execMirrorHello
  simp only [outState_next]
  (repeat' split) <;> simp

@[simp] theorem view_execMirrorHelloAck (rx : Rx) (body : Bytes) (s : State) {m : Nat} (hm : 166502368 &&& m = 166502368) : view m (outState (execMirrorHelloAck rx body s) s) = view m s := by
  refine view_mono hm ?_
  unfold execMirrorHelloAck
  simp only [outState_next]
  (repeat' split) <;> simp

@[simp] theorem view_execMirrorPut (m : MirrorMsg) (s : State) {k : Nat} (hm : 166502368 &&& k = 166502368) : view k (outState (execMirrorPut m s) s) = view k s := by
  refine view_mono hm ?_
  unfold execMirrorPut
  simp only [outState_next]
  simp

@[simp] theorem view_execMirrorDelete (m : MirrorMsg) (s : State) {k : Nat} (hm : 166502368 &&& k = 166502368) : view k (outState (execMirrorDelete m s) s) = view k s := by
  refine view_mono hm ?_
  unfold execMirrorDelete
  simp only [outState_next]
  simp

@[simp] theorem view_execMirrorRange (m : MirrorMsg) (s : State) {k : Nat} (hm : 166502368 &&& k = 166502368) : view k (outState (execMirrorRange m s) s) = view k s := by
  refine view_mono hm ?_
  unfold execMirrorRange
  simp only [outState_next]
  simp

@[simp] theorem view_execMirrorAck (m : MirrorMsg) (s : State) {k : Nat} (hm : 166502368 &&& k = 166502368) : view k (outState (execMirrorAck m s) s) = view k s := by
  refine view_mono hm ?_
  unfold execMirrorAck
  simp only [outState_next]
  simp

@[simp] theorem view_execHeartbeat (m : MirrorMsg) (s : State) {k : Nat} (hm : 166502368 &&& k = 166502368) : view k (outState (execHeartbeat m s) s) = view k s := by
  refine view_mono hm ?_
  unfold execHeartbeat
  simp only [outState_next]
  simp

@[simp] theorem view_execRepairReq (m : MirrorMsg) (s : State) {k : Nat} (hm : 166502368 &&& k = 166502368) : view k (outState (execRepairReq m s) s) = view k s := by
  refine view_mono hm ?_
  unfold execRepairReq
  simp only [outState_next]
  simp

@[simp] theorem view_execRepairRsp (m : MirrorMsg) (s : State) {k : Nat} (hm : 166502368 &&& k = 166502368) : view k (outState (execRepairRsp m s) s) = view k s := by
  refine view_mono hm ?_
  unfold execRepairRsp
  simp only [outState_next]
  simp

@[simp] theorem view_execKsCfg (m : MirrorMsg) (s : State) {k : Nat} (hm : 166502368 &&& k = 166502368) : view k (outState (execKsCfg m s) s) = view k s := by
  refine view_mono hm ?_
  unfold execKsCfg
  simp only [outState_next]
  simp

@[simp] theorem view_execSyncMark (m : MirrorMsg) (s : State) {k : Nat} (hm : 166502368 &&& k = 166502368) : view k (outState (execSyncMark m s) s) = view k s := by
  refine view_mono hm ?_
  unfold execSyncMark
  simp only [outState_next]
  simp

@[simp] theorem view_execRefuse (m : MirrorMsg) (s : State) {k : Nat} (hm : 166502368 &&& k = 166502368) : view k (outState (execRefuse m s) s) = view k s := by
  refine view_mono hm ?_
  unfold execRefuse
  simp only [outState_next]
  simp

@[simp] theorem view_execMirrorClose (m : MirrorMsg) (s : State) {k : Nat} (hm : 166502368 &&& k = 166502368) : view k (outState (execMirrorClose m s) s) = view k s := by
  refine view_mono hm ?_
  unfold execMirrorClose
  simp only [outState_next]
  simp

@[simp] theorem view_execHeartbeatSend (s : State) {m : Nat} (hm : 166502368 &&& m = 166502368) : view m (outState (execHeartbeatSend s) s) = view m s := by
  refine view_mono hm ?_
  unfold execHeartbeatSend
  simp only [outState_next]
  (repeat' split) <;> simp

@[simp] theorem view_execMirrorResendTimer (s : State) {m : Nat} (hm : 786432 &&& m = 786432) : view m (outState (execMirrorResendTimer s) s) = view m s := by
  refine view_mono hm ?_
  unfold execMirrorResendTimer
  simp only [outState_next]
  split <;> simp

@[simp] theorem view_execRepairTimeout (read : Nat) (s : State) {m : Nat} (hm : 162308064 &&& m = 162308064) : view m (outState (execRepairTimeout read s) s) = view m s := by
  refine view_mono hm ?_
  unfold execRepairTimeout
  simp only [outState_next]
  (repeat' split) <;> simp

@[simp] theorem view_execRefusedProbe (ks : Fin 64) (s : State) {m : Nat} (hm : 135041792 &&& m = 135041792) : view m (outState (execRefusedProbe ks s) s) = view m s := by
  refine view_mono hm ?_
  unfold execRefusedProbe
  simp only [outState_next]
  (repeat' split) <;> simp

@[simp] theorem view_execPeerLost (s : State) {m : Nat} (hm : 145490912 &&& m = 145490912) : view m (outState (execPeerLost s) s) = view m s := by
  refine view_mono hm ?_
  unfold execPeerLost
  simp only [outState_next]
  split <;> simp

@[simp] theorem view_execMirrorMarkStore (s : State) {m : Nat} (hm : 262144 &&& m = 262144) : view m (outState (execMirrorMarkStore s) s) = view m s := by
  refine view_mono hm ?_
  unfold execMirrorMarkStore
  simp only [outState_next]
  split <;> simp

@[simp] theorem view_execDeltaResyncStart (s : State) {m : Nat} (hm : 166502368 &&& m = 166502368) : view m (outState (execDeltaResyncStart s) s) = view m s := by
  refine view_mono hm ?_
  unfold execDeltaResyncStart
  simp only [outState_next]
  repeat' (first | (simp [*]; done) | split | rw [view_foldl] | rw [view_foldlp] | intro _ _ | simp)

@[simp] theorem view_pairCmd (s : State) (c : Cmd) {m : Nat} (hm : 162268128 &&& m = 162268128) : view m (State.pairCmd s c) = view m s := by
  refine view_mono hm ?_
  unfold State.pairCmd
  dsimp only; (repeat' split) <;> simp

@[simp] theorem view_execPair (s : State) {m : Nat} (hm : 162268128 &&& m = 162268128) : view m (outState (execPair s) s) = view m s := by
  refine view_mono hm ?_
  unfold execPair
  simp only [outState_next]
  simp

@[simp] theorem view_unpairCmd (s : State) (c : Cmd) {m : Nat} (hm : 145490912 &&& m = 145490912) : view m (State.unpairCmd s c) = view m s := by
  refine view_mono hm ?_
  unfold State.unpairCmd
  repeat' (first | (simp [*]; done) | split | rw [view_foldl] | rw [view_foldlp] | intro _ _ | simp)

@[simp] theorem view_execUnpair (s : State) {m : Nat} (hm : 145490912 &&& m = 145490912) : view m (outState (execUnpair s) s) = view m s := by
  refine view_mono hm ?_
  unfold execUnpair
  simp only [outState_next]
  simp

@[simp] theorem view_setPolicyCmd (s : State) (c : Cmd) {m : Nat} (hm : 137102304 &&& m = 137102304) : view m (State.setPolicyCmd s c) = view m s := by
  refine view_mono hm ?_
  unfold State.setPolicyCmd
  dsimp only; (repeat' split) <;> simp

@[simp] theorem view_execSetPolicy (s : State) {m : Nat} (hm : 137102304 &&& m = 137102304) : view m (outState (execSetPolicy s) s) = view m s := by
  refine view_mono hm ?_
  unfold execSetPolicy
  simp only [outState_next]
  simp

@[simp] theorem view_setLagCmd (s : State) (c : Cmd) {m : Nat} (hm : 137102304 &&& m = 137102304) : view m (State.setLagCmd s c) = view m s := by
  refine view_mono hm ?_
  unfold State.setLagCmd
  dsimp only; (repeat' split) <;> simp

@[simp] theorem view_execSetLag (s : State) {m : Nat} (hm : 137102304 &&& m = 137102304) : view m (outState (execSetLag s) s) = view m s := by
  refine view_mono hm ?_
  unfold execSetLag
  simp only [outState_next]
  simp

@[simp] theorem view_resyncCmd (s : State) (c : Cmd) {m : Nat} (hm : 166502368 &&& m = 166502368) : view m (State.resyncCmd s c) = view m s := by
  refine view_mono hm ?_
  unfold State.resyncCmd
  repeat' (first | (simp [*]; done) | split | rw [view_foldl] | rw [view_foldlp] | intro _ _ | simp)

@[simp] theorem view_execResync (s : State) {m : Nat} (hm : 166502368 &&& m = 166502368) : view m (outState (execResync s) s) = view m s := by
  refine view_mono hm ?_
  unfold execResync
  simp only [outState_next]
  simp

@[simp] theorem view_mirrorStateCmd (s : State) (c : Cmd) {m : Nat} (hm : 137102304 &&& m = 137102304) : view m (State.mirrorStateCmd s c) = view m s := by
  refine view_mono hm ?_
  unfold State.mirrorStateCmd
  split <;> simp

@[simp] theorem view_execMirrorState (s : State) {m : Nat} (hm : 137102304 &&& m = 137102304) : view m (outState (execMirrorState s) s) = view m s := by
  refine view_mono hm ?_
  unfold execMirrorState
  simp only [outState_next]
  simp

@[simp] theorem view_copyEvents (s : State) {m : Nat} (hm : 134254592 &&& m = 134254592) : view m (State.copyEvents s) = view m s := by
  refine view_mono hm ?_
  unfold State.copyEvents
  dsimp only; split <;> simp

@[simp] theorem view_finalCopy (s : State) {m : Nat} (hm : 142643200 &&& m = 142643200) : view m (State.finalCopy s) = view m s := by
  refine view_mono hm ?_
  unfold State.finalCopy
  simp

@[simp] theorem view_execEvrFlashCopy (s : State) {m : Nat} (hm : 142643200 &&& m = 142643200) : view m (outState (execEvrFlashCopy s) s) = view m s := by
  refine view_mono hm ?_
  unfold execEvrFlashCopy
  simp only [outState_next]
  (repeat' split) <;> simp

@[simp] theorem view_execEvrCursorHiWrite (v : Word) (s : State) {m : Nat} (hm : 8388608 &&& m = 8388608) : view m (outState (execEvrCursorHiWrite v s) s) = view m s := by
  refine view_mono hm ?_
  unfold execEvrCursorHiWrite
  simp only [outState_next]
  simp

@[simp] theorem view_execEvrAdvance (s : State) {m : Nat} (hm : 8388608 &&& m = 8388608) : view m (outState (execEvrAdvance s) s) = view m s := by
  refine view_mono hm ?_
  unfold execEvrAdvance
  simp only [outState_next]
  simp

@[simp] theorem view_execEvrRefresh (s : State) {m : Nat} (hm : 8388608 &&& m = 8388608) : view m (outState (execEvrRefresh s) s) = view m s := by
  refine view_mono hm ?_
  unfold execEvrRefresh
  simp only [outState_next]
  simp

@[simp] theorem view_execEvrToOldest (s : State) {m : Nat} (hm : 8388608 &&& m = 8388608) : view m (outState (execEvrToOldest s) s) = view m s := by
  refine view_mono hm ?_
  unfold execEvrToOldest
  simp only [outState_next]
  simp

@[simp] theorem view_execEvrToNewest (s : State) {m : Nat} (hm : 8388608 &&& m = 8388608) : view m (outState (execEvrToNewest s) s) = view m s := by
  refine view_mono hm ?_
  unfold execEvrToNewest
  simp only [outState_next]
  simp

@[simp] theorem view_execLensFillDone (s : State) {m : Nat} (hm : 8388608 &&& m = 8388608) : view m (outState (execLensFillDone s) s) = view m s := by
  refine view_mono hm ?_
  unfold execLensFillDone
  simp only [outState_next]
  simp

@[simp] theorem view_clearLog1 (s : State) {m : Nat} (hm : 8388608 &&& m = 8388608) : view m (State.clearLog1 s) = view m s := by
  refine view_mono hm ?_
  unfold State.clearLog1
  simp

@[simp] theorem view_execEvrClear (s : State) {m : Nat} (hm : 8388608 &&& m = 8388608) : view m (outState (execEvrClear s) s) = view m s := by
  refine view_mono hm ?_
  unfold execEvrClear
  simp only [outState_next]
  simp

@[simp] theorem view_execEvrSkippedRead (s : State) {m : Nat} (hm : 8388624 &&& m = 8388624) : view m (outState (execEvrSkippedRead s) s) = view m s := by
  refine view_mono hm ?_
  unfold execEvrSkippedRead
  simp only [outState_next]
  simp

@[simp] theorem view_execEvrNewestLoRead (s : State) {m : Nat} (hm : 8388624 &&& m = 8388624) : view m (outState (execEvrNewestLoRead s) s) = view m s := by
  refine view_mono hm ?_
  unfold execEvrNewestLoRead
  simp only [outState_next]
  simp

@[simp] theorem view_execEvrOldestLoRead (s : State) {m : Nat} (hm : 8388624 &&& m = 8388624) : view m (outState (execEvrOldestLoRead s) s) = view m s := by
  refine view_mono hm ?_
  unfold execEvrOldestLoRead
  simp only [outState_next]
  simp

@[simp] theorem view_execEvrMemFault (flashRing : Bool) (bank : Nat) (s : State) {m : Nat} (hm : 142643200 &&& m = 142643200) : view m (outState (execEvrMemFault flashRing bank s) s) = view m s := by
  refine view_mono hm ?_
  unfold execEvrMemFault
  simp only [outState_next]
  (repeat' split) <;> simp

@[simp] theorem view_setPhyGrant (s : State) (p : Fin 2) (n : Nat) {m : Nat} (hm : 557056 &&& m = 557056) : view m (State.setPhyGrant s p n) = view m s := by
  refine view_mono hm ?_
  unfold State.setPhyGrant
  simp

@[simp] theorem view_train (s : State) (p : Fin 2) {m : Nat} (hm : 557056 &&& m = 557056) : view m (State.train s p) = view m s := by
  refine view_mono hm ?_
  unfold State.train
  simp

@[simp] theorem view_retrain (s : State) {m : Nat} (hm : 557056 &&& m = 557056) : view m (State.retrain s) = view m s := by
  refine view_mono hm ?_
  unfold State.retrain
  dsimp only; (repeat' split) <;> simp

@[simp] theorem view_raisePort (s : State) (p : Fin 2) {m : Nat} (hm : 557056 &&& m = 557056) : view m (State.raisePort s p) = view m s := by
  refine view_mono hm ?_
  unfold State.raisePort
  split <;> simp

@[simp] theorem view_resumePort (s : State) (p : Fin 2) {m : Nat} (hm : 524352 &&& m = 524352) : view m (State.resumePort s p) = view m s := by
  refine view_mono hm ?_
  unfold State.resumePort
  repeat' (first | (simp [*]; done) | split | rw [view_foldl] | rw [view_foldlp] | intro _ _ | simp)

@[simp] theorem view_ptpPortGone (s : State) (p : Fin 2) {m : Nat} (hm : 1048576 &&& m = 1048576) : view m (State.ptpPortGone s p) = view m s := by
  refine view_mono hm ?_
  unfold State.ptpPortGone
  dsimp only; split <;> simp

@[simp] theorem view_dropLink (s : State) (p : Fin 2) {m : Nat} (hm : 10256384 &&& m = 10256384) : view m (State.dropLink s p) = view m s := by
  refine view_mono hm ?_
  unfold State.dropLink
  split <;> simp

@[simp] theorem view_startNego (s : State) (p : Fin 2) (cause : Nat) (cap : Option Nat) {m : Nat} (hm : 10256384 &&& m = 10256384) : view m (State.startNego s p cause cap) = view m s := by
  refine view_mono hm ?_
  unfold State.startNego
  simp

@[simp] theorem view_endNego (s : State) (p : Fin 2) {m : Nat} (hm : 10256384 &&& m = 10256384) : view m (State.endNego s p) = view m s := by
  refine view_mono hm ?_
  unfold State.endNego
  dsimp only; (repeat' split) <;> simp

@[simp] theorem view_execLinkUp (port : Fin 2) (l : LinkInfo) (s : State) {m : Nat} (hm : 10256448 &&& m = 10256448) : view m (outState (execLinkUp port l s) s) = view m s := by
  refine view_mono hm ?_
  unfold execLinkUp
  simp only [outState_next]
  (repeat' split) <;> simp

@[simp] theorem view_stopTraining (s : State) (p : Fin 2) {m : Nat} (hm : 557056 &&& m = 557056) : view m (State.stopTraining s p) = view m s := by
  refine view_mono hm ?_
  unfold State.stopTraining
  split <;> simp

@[simp] theorem view_execLinkDown (port : Fin 2) (s : State) {m : Nat} (hm : 10256384 &&& m = 10256384) : view m (outState (execLinkDown port s) s) = view m s := by
  refine view_mono hm ?_
  unfold execLinkDown
  simp only [outState_next]
  split <;> simp

@[simp] theorem view_execTrainingFailure (port : Fin 2) (rate : Fin 4) (s : State) {m : Nat} (hm : 8945664 &&& m = 8945664) : view m (outState (execTrainingFailure port rate s) s) = view m s := by
  refine view_mono hm ?_
  unfold execTrainingFailure
  simp only [outState_next]
  (repeat' split) <;> simp

@[simp] theorem view_execFastRetrain (port : Fin 2) (s : State) {m : Nat} (hm : 8912896 &&& m = 8912896) : view m (outState (execFastRetrain port s) s) = view m s := by
  refine view_mono hm ?_
  unfold execFastRetrain
  simp only [outState_next]
  split <;> simp

@[simp] theorem view_checkXoff (s : State) (p : Fin 2) {m : Nat} (hm : 524288 &&& m = 524288) : view m (State.checkXoff s p) = view m s := by
  refine view_mono hm ?_
  unfold State.checkXoff
  dsimp only; split <;> simp

@[simp] theorem view_portReset (s : State) (p : Fin 2) {m : Nat} (hm : 150901728 &&& m = 150901728) : view m (State.portReset s p) = view m s := by
  refine view_mono hm ?_
  unfold State.portReset
  repeat' (first | (simp [*]; done) | split | rw [view_foldl] | rw [view_foldlp] | intro _ _ | simp)

@[simp] theorem view_retirePort (s : State) (p : Fin 2) {m : Nat} (hm : 8945664 &&& m = 8945664) : view m (State.retirePort s p) = view m s := by
  refine view_mono hm ?_
  unfold State.retirePort
  simp

@[simp] theorem view_markSvcPort (s : State) (p : Fin 2) {m : Nat} (hm : 8 &&& m = 8) : view m (State.markSvcPort s p) = view m s := by
  refine view_mono hm ?_
  unfold State.markSvcPort
  simp

@[simp] theorem view_execPortReset (port : Fin 2) (selfTestOk : Bool) (s : State) {m : Nat} (hm : 150901736 &&& m = 150901736) : view m (outState (execPortReset port selfTestOk s) s) = view m s := by
  refine view_mono hm ?_
  unfold execPortReset
  simp only [outState_next]
  split
  · rfl
  · (repeat' split) <;> simp

@[simp] theorem view_execStatSnap (port : Fin 2) (s : State) {m : Nat} (hm : 524288 &&& m = 524288) : view m (outState (execStatSnap port s) s) = view m s := by
  refine view_mono hm ?_
  unfold execStatSnap
  simp only [outState_next]
  simp

@[simp] theorem view_execMacnFcCfgWrite (port : Fin 2) (v : Word) (s : State) {m : Nat} (hm : 150901732 &&& m = 150901732) : view m (outState (execMacnFcCfgWrite port v s) s) = view m s := by
  refine view_mono hm ?_
  unfold execMacnFcCfgWrite
  simp only [outState_next]
  (repeat' split) <;> simp

@[simp] theorem view_execRenegotiate (port : Fin 2) (s : State) {m : Nat} (hm : 10256384 &&& m = 10256384) : view m (outState (execRenegotiate port s) s) = view m s := by
  refine view_mono hm ?_
  unfold execRenegotiate
  simp only [outState_next]
  split <;> simp

@[simp] theorem view_execTrafficSample (s0 s1 : TrafficSample) (s : State) {m : Nat} (hm : 10256384 &&& m = 10256384) : view m (outState (execTrafficSample s0 s1 s) s) = view m s := by
  refine view_mono hm ?_
  unfold execTrafficSample
  simp only [outState_next]
  (repeat' split) <;> simp

@[simp] theorem view_storeRx (s : State) (p : Fin 2) (f : RxFrame) {m : Nat} (hm : 524288 &&& m = 524288) : view m (State.storeRx s p f) = view m s := by
  refine view_mono hm ?_
  unfold State.storeRx
  dsimp only; (repeat' split) <;> simp

@[simp] theorem view_activity (s : State) (p : Fin 2) {m : Nat} (hm : 524288 &&& m = 524288) : view m (State.activity s p) = view m s := by
  refine view_mono hm ?_
  unfold State.activity
  split <;> simp

@[simp] theorem view_portTakes (s : State) (p : Fin 2) (f : RxProto) {m : Nat} (hm : 524352 &&& m = 524352) : view m (State.portTakes s p f) = view m s := by
  refine view_mono hm ?_
  unfold State.portTakes
  split
  · split
    · rename_i n; cases (s.qpOf n.val).filter fun q => q.st == .opened <;> simp
    · rename_i n; cases (s.qpOf n.val).filter fun q => q.st == .opened <;> simp
    · rename_i n; cases s.qpOf n.val <;> simp
  · simp
  · rfl

@[simp] theorem view_execFrameReceived (port : Fin 2) (f : RxFrame) (s : State) {m : Nat} (hm : 557120 &&& m = 557120) : view m (outState (execFrameReceived port f s) s) = view m s := by
  refine view_mono hm ?_
  unfold execFrameReceived
  simp only [outState_next]
  simp [ite_view]

@[simp] theorem view_execXon (port : Fin 2) (s : State) {m : Nat} (hm : 524288 &&& m = 524288) : view m (outState (execXon port s) s) = view m s := by
  refine view_mono hm ?_
  unfold execXon
  simp only [outState_next]
  split <;> simp

@[simp] theorem view_execPauseRefresh (port : Fin 2) (s : State) {m : Nat} (hm : 524288 &&& m = 524288) : view m (outState (execPauseRefresh port s) s) = view m s := by
  refine view_mono hm ?_
  unfold execPauseRefresh
  simp only [outState_next]
  split <;> simp

@[simp] theorem view_execPauseFrameReceived (port : Fin 2) (f : PauseFrame) (s : State) {m : Nat} (hm : 524288 &&& m = 524288) : view m (outState (execPauseFrameReceived port f s) s) = view m s := by
  refine view_mono hm ?_
  unfold execPauseFrameReceived
  simp only [outState_next]
  repeat' (first | (simp [*]; done) | split | rw [view_foldl] | rw [view_foldlp] | intro _ _ | simp)

@[simp] theorem view_execPauseExpiry (port : Fin 2) (tc : Fin 8) (s : State) {m : Nat} (hm : 524288 &&& m = 524288) : view m (outState (execPauseExpiry port tc s) s) = view m s := by
  refine view_mono hm ?_
  unfold execPauseExpiry
  simp only [outState_next]
  simp

@[simp] theorem view_execPauseWdog (port : Fin 2) (tc : Fin 8) (s : State) {m : Nat} (hm : 8912896 &&& m = 8912896) : view m (outState (execPauseWdog port tc s) s) = view m s := by
  refine view_mono hm ?_
  unfold execPauseWdog
  simp only [outState_next]
  (repeat' split) <;> simp

@[simp] theorem view_execPauseWdogBreakEnd (port : Fin 2) (tc : Fin 8) (s : State) {m : Nat} (hm : 524288 &&& m = 524288) : view m (outState (execPauseWdogBreakEnd port tc s) s) = view m s := by
  refine view_mono hm ?_
  unfold execPauseWdogBreakEnd
  simp only [outState_next]
  simp

@[simp] theorem view_setGates (s : State) (p : Fin 2) {m : Nat} (hm : 524288 &&& m = 524288) : view m (State.setGates s p) = view m s := by
  refine view_mono hm ?_
  unfold State.setGates
  split <;> simp

@[simp] theorem view_execTasConfigChange (port : Fin 2) (s : State) {m : Nat} (hm : 524288 &&& m = 524288) : view m (outState (execTasConfigChange port s) s) = view m s := by
  refine view_mono hm ?_
  unfold execTasConfigChange
  simp only [outState_next]
  (repeat' split) <;> simp

@[simp] theorem view_swapGates (s : State) (p : Fin 2) {m : Nat} (hm : 8912896 &&& m = 8912896) : view m (State.swapGates s p) = view m s := by
  refine view_mono hm ?_
  unfold State.swapGates
  simp

@[simp] theorem view_execTasSwap (port : Fin 2) (s : State) {m : Nat} (hm : 8912896 &&& m = 8912896) : view m (outState (execTasSwap port s) s) = view m s := by
  refine view_mono hm ?_
  unfold execTasSwap
  simp only [outState_next]
  split <;> simp

@[simp] theorem view_execGateEntryAdvance (port : Fin 2) (s : State) {m : Nat} (hm : 524288 &&& m = 524288) : view m (outState (execGateEntryAdvance port s) s) = view m s := by
  refine view_mono hm ?_
  unfold execGateEntryAdvance
  simp only [outState_next]
  split <;> simp

@[simp] theorem view_execTasEnableWrite (port : Fin 2) (v : Word) (s : State) {m : Nat} (hm : 524288 &&& m = 524288) : view m (outState (execTasEnableWrite port v s) s) = view m s := by
  refine view_mono hm ?_
  unfold execTasEnableWrite
  simp only [outState_next]
  split <;> simp

@[simp] theorem view_gatesStepped (s : State) {m : Nat} (hm : 8912896 &&& m = 8912896) : view m (State.gatesStepped s) = view m s := by
  refine view_mono hm ?_
  unfold State.gatesStepped
  repeat' (first | (simp [*]; done) | split | rw [view_foldl] | rw [view_foldlp] | intro _ _ | simp)

@[simp] theorem view_endLine (s : State) (p : Fin 2) {m : Nat} (hm : 524288 &&& m = 524288) : view m (State.endLine s p) = view m s := by
  refine view_mono hm ?_
  unfold State.endLine
  (repeat' split) <;> simp

@[simp] theorem view_dropOversize (n : Nat) (s : State) (p : Fin 2) (tc : Nat) {m : Nat} (hm : 8912896 &&& m = 8912896) : view m (State.dropOversize n s p tc) = view m s := by
  refine view_mono hm ?_
  clear hm
  induction n generalizing s with
  | zero => rfl
  | succ n ih =>
    unfold State.dropOversize
    dsimp only
    (repeat' split) <;> simp [ih]

@[simp] theorem view_startFrame (s : State) (p : Fin 2) (tc : Nat) {m : Nat} (hm : 524288 &&& m = 524288) : view m (State.startFrame s p tc) = view m s := by
  refine view_mono hm ?_
  unfold State.startFrame
  split <;> simp

@[simp] theorem view_execFrameTransmitStart (port : Fin 2) (s : State) {m : Nat} (hm : 8912896 &&& m = 8912896) : view m (outState (execFrameTransmitStart port s) s) = view m s := by
  refine view_mono hm ?_
  unfold execFrameTransmitStart
  simp only [outState_next]
  repeat' (first | (simp [*]; done) | split | rw [view_foldl] | rw [view_foldlp] | intro _ _ | simp)

@[simp] theorem view_execLowPowerIdle (port : Fin 2) (s : State) {m : Nat} (hm : 8912896 &&& m = 8912896) : view m (outState (execLowPowerIdle port s) s) = view m s := by
  refine view_mono hm ?_
  unfold execLowPowerIdle
  simp only [outState_next]
  split <;> simp

@[simp] theorem view_ptpInt (s : State) (k : Nat) {m : Nat} (hm : 1048576 &&& m = 1048576) : view m (State.ptpInt s k) = view m s := by
  refine view_mono hm ?_
  unfold State.ptpInt
  simp

@[simp] theorem view_stepClock (s : State) (at_ : Nat) {m : Nat} (hm : 9961472 &&& m = 9961472) : view m (State.stepClock s at_) = view m s := by
  refine view_mono hm ?_
  unfold State.stepClock
  simp

@[simp] theorem view_servo (s : State) (o : Int) {m : Nat} (hm : 26738688 &&& m = 26738688) : view m (State.servo s o) = view m s := by
  refine view_mono hm ?_
  unfold State.servo
  dsimp only; (repeat' split) <;> simp

@[simp] theorem view_takeAnnounce (s : State) (m : PtpMsg) (a : Announce) {k : Nat} (hm : 1048576 &&& k = 1048576) : view k (State.takeAnnounce s m a) = view k s := by
  refine view_mono hm ?_
  unfold State.takeAnnounce
  simp

@[simp] theorem view_sendPtp (s : State) (p : Fin 2) (msg : Msg) (n : Nat) {m : Nat} (hm : 524288 &&& m = 524288) : view m (State.sendPtp s p msg n) = view m s := by
  refine view_mono hm ?_
  unfold State.sendPtp
  split <;> simp

@[simp] theorem view_ptpStamp (s : State) (m : PtpMsg) {k : Nat} (hm : 1572864 &&& k = 1572864) : view k (State.ptpStamp s m).1 = view k s := by
  refine view_mono hm ?_
  unfold State.ptpStamp
  dsimp only; (repeat' split) <;> simp

@[simp] theorem view_ptpAnswer (s : State) (m : PtpMsg) {k : Nat} (hm : 524288 &&& k = 524288) : view k (State.ptpAnswer s m) = view k s := by
  refine view_mono hm ?_
  unfold State.ptpAnswer
  dsimp only; (repeat' split) <;> simp

@[simp] theorem view_ptpSample (s : State) (m : PtpMsg) {k : Nat} (hm : 26738688 &&& k = 26738688) : view k (State.ptpSample s m) = view k s := by
  refine view_mono hm ?_
  unfold State.ptpSample
  (repeat' split) <;> simp

@[simp] theorem view_takeInterval (s : State) (m : PtpMsg) {k : Nat} (hm : 1048576 &&& k = 1048576) : view k (State.takeInterval s m) = view k s := by
  refine view_mono hm ?_
  unfold State.takeInterval
  split <;> simp

@[simp] theorem view_execPtpEventMessage (m : PtpMsg) (s : State) {k : Nat} (hm : 26738688 &&& k = 26738688) : view k (outState (execPtpEventMessage m s) s) = view k s := by
  refine view_mono hm ?_
  unfold execPtpEventMessage
  simp only [outState_next]
  (repeat' split) <;> simp

@[simp] theorem view_execPtpHoldover (s : State) {m : Nat} (hm : 1048576 &&& m = 1048576) : view m (outState (execPtpHoldover s) s) = view m s := by
  refine view_mono hm ?_
  unfold execPtpHoldover
  simp only [outState_next]
  (repeat' split) <;> simp

@[simp] theorem view_execPpsInEdge (s : State) {m : Nat} (hm : 26738688 &&& m = 26738688) : view m (outState (execPpsInEdge s) s) = view m s := by
  refine view_mono hm ?_
  unfold execPpsInEdge
  simp only [outState_next]
  split <;> simp

@[simp] theorem view_execPpsOutEdge (s : State) {m : Nat} (hm : 1048576 &&& m = 1048576) : view m (outState (execPpsOutEdge s) s) = view m s := by
  refine view_mono hm ?_
  unfold execPpsOutEdge
  simp only [outState_next]
  split <;> simp

@[simp] theorem view_execPpsOutFall (s : State) {m : Nat} (hm : 1048576 &&& m = 1048576) : view m (outState (execPpsOutFall s) s) = view m s := by
  refine view_mono hm ?_
  unfold execPpsOutFall
  simp only [outState_next]
  split <;> simp

@[simp] theorem view_execPtpCtrlStep (s : State) {m : Nat} (hm : 9961472 &&& m = 9961472) : view m (outState (execPtpCtrlStep s) s) = view m s := by
  refine view_mono hm ?_
  unfold execPtpCtrlStep
  simp only [outState_next]
  split <;> simp

@[simp] theorem view_execPtpTimeNsRead (s : State) {m : Nat} (hm : 1048592 &&& m = 1048592) : view m (outState (execPtpTimeNsRead s) s) = view m s := by
  refine view_mono hm ?_
  unfold execPtpTimeNsRead
  simp only [outState_next]
  simp

@[simp] theorem view_execPtpPpsInNsRead (s : State) {m : Nat} (hm : 1048592 &&& m = 1048592) : view m (outState (execPtpPpsInNsRead s) s) = view m s := by
  refine view_mono hm ?_
  unfold execPtpPpsInNsRead
  simp only [outState_next]
  simp

@[simp] theorem view_execPtpTsqData0Read (q : Fin 4) (s : State) {m : Nat} (hm : 1048592 &&& m = 1048592) : view m (outState (execPtpTsqData0Read q s) s) = view m s := by
  refine view_mono hm ?_
  unfold execPtpTsqData0Read
  simp only [outState_next]
  (repeat' split) <;> simp

@[simp] theorem view_execDelayReqTimer (port : Fin 2) (s : State) {m : Nat} (hm : 1572864 &&& m = 1572864) : view m (outState (execDelayReqTimer port s) s) = view m s := by
  refine view_mono hm ?_
  unfold execDelayReqTimer
  simp only [outState_next]
  split <;> simp

@[simp] theorem view_execPtpCfgWrite (v : Word) (s : State) {m : Nat} (hm : 1048576 &&& m = 1048576) : view m (outState (execPtpCfgWrite v s) s) = view m s := by
  refine view_mono hm ?_
  unfold execPtpCfgWrite
  simp only [outState_next]
  split <;> simp

end Sys2Proof.Machine
end

