-- ==== Sys2Proof/Laws/FrameLife.lean ====
section
/-! SUPPORT. Frames of update, power, resets and start-up. The masks are those of `Laws/FrameBase.lean`. -/

namespace Sys2Proof.Machine

@[simp] theorem view_endSources (s : State) {m : Nat} (hm : 6291936 &&& m = 6291936) : view m (State.endSources s) = view m s := by
  refine view_mono hm ?_
  unfold State.endSources
  simp

@[simp] theorem view_freeUnfilled (s : State) {m : Nat} (hm : 768 &&& m = 768) : view m (State.freeUnfilled s) = view m s := by
  refine view_mono hm ?_
  unfold State.freeUnfilled
  repeat' (first | (simp [*]; done) | split | rw [view_foldl] | rw [view_foldlp] | intro _ _ | simp)

@[simp] theorem view_resumeElapsed (s : State) {m : Nat} (hm : 4194304 &&& m = 4194304) : view m (State.resumeElapsed s) = view m s := by
  refine view_mono hm ?_
  unfold State.resumeElapsed
  split <;> simp

@[simp] theorem view_pauseSanitize (s : State) {m : Nat} (hm : 4194304 &&& m = 4194304) : view m (State.pauseSanitize s) = view m s := by
  refine view_mono hm ?_
  unfold State.pauseSanitize
  simp

@[simp] theorem view_pauseDma (s : State) {m : Nat} (hm : 16384 &&& m = 16384) : view m (State.pauseDma s) = view m s := by
  refine view_mono hm ?_
  unfold State.pauseDma
  simp

@[simp] theorem view_saveTable (s : State) {m : Nat} (hm : 137106400 &&& m = 137106400) : view m (State.saveTable s) = view m s := by
  refine view_mono hm ?_
  unfold State.saveTable
  repeat' (first | (simp [*]; done) | split | rw [view_foldl] | rw [view_foldlp] | intro _ _ | simp)

@[simp] theorem view_closeTable (s : State) {m : Nat} (hm : 137139168 &&& m = 137139168) : view m (State.closeTable s) = view m s := by
  refine view_mono hm ?_
  unfold State.closeTable
  split <;> simp

@[simp] theorem view_revertTable (s : State) {m : Nat} (hm : 256 &&& m = 256) : view m (State.revertTable s) = view m s := by
  refine view_mono hm ?_
  unfold State.revertTable
  split <;> simp

@[simp] theorem view_portsDown (s : State) {m : Nat} (hm : 10256384 &&& m = 10256384) : view m (State.portsDown s) = view m s := by
  refine view_mono hm ?_
  unfold State.portsDown
  simp

@[simp] theorem view_stopUngranted (s : State) {m : Nat} (hm : 36864 &&& m = 36864) : view m (State.stopUngranted s) = view m s := by
  refine view_mono hm ?_
  unfold State.stopUngranted
  simp

@[simp] theorem view_dropWriteThrough (s : State) {m : Nat} (hm : 4864 &&& m = 4864) : view m (State.dropWriteThrough s) = view m s := by
  refine view_mono hm ?_
  unfold State.dropWriteThrough
  repeat' (first | (simp [*]; done) | split | rw [view_foldl] | rw [view_foldlp] | intro _ _ | simp)

@[simp] theorem view_beginSequence (s : State) (mark : Life → Life) {m : Nat} (hm : 150920168 &&& m = 150920168) (hc : ∀ l, (mark l).clock = l.clock) :
    view m (s.beginSequence mark) = view m s := by
  refine view_mono hm ?_
  unfold State.beginSequence
  simp [hc]

@[simp] theorem view_flushPages (s : State) {m : Nat} (hm : 162308064 &&& m = 162308064) : view m (State.flushPages s) = view m s := by
  refine view_mono hm ?_
  unfold State.flushPages
  dsimp only; split <;> simp

@[simp] theorem view_closeJournal (s : State) {m : Nat} (hm : 162308064 &&& m = 162308064) : view m (State.closeJournal s) = view m s := by
  refine view_mono hm ?_
  unfold State.closeJournal
  split <;> simp

@[simp] theorem view_tearJournal (s : State) {m : Nat} (hm : 16779264 &&& m = 16779264) : view m (State.tearJournal s) = view m s := by
  refine view_mono hm ?_
  unfold State.tearJournal
  dsimp only; (repeat' split) <;> simp

@[simp] theorem view_loseJournalTail (s : State) {m : Nat} (hm : 16783360 &&& m = 16783360) : view m (State.loseJournalTail s) = view m s := by
  refine view_mono hm ?_
  unfold State.loseJournalTail
  dsimp only
  rw [view_setJrn _ _ (by decide), view_foldl]
  · simp
  · intro s r
    split <;> simp

@[simp] theorem view_cutUnits (s : State) {m : Nat} (hm : 4096 &&& m = 4096) : view m (State.cutUnits s) = view m s := by
  refine view_mono hm ?_
  unfold State.cutUnits
  simp

@[simp] theorem view_mirrorCut (s : State) {m : Nat} (hm : 262400 &&& m = 262400) : view m (State.mirrorCut s) = view m s := by
  refine view_mono hm ?_
  unfold State.mirrorCut
  dsimp only; split <;> simp

@[simp] theorem view_startInstant (s : State) (cause : Nat) (maint : Bool) (slot : Option Nat) {m : Nat} (hm : 167772152 &&& m = 167772152) : view m (State.startInstant s cause maint slot) = view m s := by
  refine view_mono hm ?_
  unfold State.startInstant
  dsimp only
  rw [view_settleTokens _ (by decide), view_setPwr _ _ (by decide)]
  have e : view 167772152 (((((((s.endSources).pauseSanitize).loseJournalTail).cutUnits).revertTable).mirrorCut).dropUnplaced) = view 167772152 s := by simp
  rw [← e]
  generalize ((((((s.endSources).pauseSanitize).loseJournalTail).cutUnits).revertTable).mirrorCut).dropUnplaced = t
  simp [view, pick, Life.fresh, Nat.testBit]

@[simp] theorem view_fullReset (s : State) (r : FullReset) (ended : Bool) {m : Nat} (hm : 167772152 &&& m = 167772152) : view m (State.fullReset s r ended) = view m s := by
  refine view_mono hm ?_
  unfold State.fullReset
  dsimp only; (repeat' split) <;> simp

@[simp] theorem view_requestFull (s : State) (r : FullReset) {m : Nat} (hm : 167772152 &&& m = 167772152) : view m (State.requestFull s r) = view m s := by
  refine view_mono hm ?_
  unfold State.requestFull
  (repeat' split) <;> simp

@[simp] theorem view_startCharge (s : State) {m : Nat} (hm : 98304 &&& m = 98304) : view m (State.startCharge s) = view m s := by
  refine view_mono hm ?_
  unfold State.startCharge
  (repeat' split) <;> simp

@[simp] theorem view_stopCharge (s : State) {m : Nat} (hm : 98304 &&& m = 98304) : view m (State.stopCharge s) = view m s := by
  refine view_mono hm ?_
  unfold State.stopCharge
  simp

@[simp] theorem view_rebuildIndex (s : State) {m : Nat} (hm : 16778496 &&& m = 16778496) : view m (State.rebuildIndex s) = view m s := by
  refine view_mono hm ?_
  unfold State.rebuildIndex
  repeat' (first | (simp [*]; done) | split | rw [view_foldl] | rw [view_foldlp] | intro _ _ | simp)

@[simp] theorem view_recount (s : State) {m : Nat} (hm : 256 &&& m = 256) : view m (State.recount s) = view m s := by
  refine view_mono hm ?_
  unfold State.recount
  simp

@[simp] theorem view_spillOver (s : State) {m : Nat} (hm : 1024 &&& m = 1024) : view m (State.spillOver s) = view m s := by
  refine view_mono hm ?_
  unfold State.spillOver
  simp

@[simp] theorem view_closeShort (s : State) (g : Segment) {m : Nat} (hm : 4096 &&& m = 4096) : view m (State.closeShort s g) = view m s := by
  refine view_mono hm ?_
  unfold State.closeShort
  simp

@[simp] theorem view_closeAllShort (s : State) {m : Nat} (hm : 36864 &&& m = 36864) : view m (State.closeAllShort s) = view m s := by
  refine view_mono hm ?_
  unfold State.closeAllShort
  repeat' (first | (simp [*]; done) | split | rw [view_foldl] | rw [view_foldlp] | intro _ _ | simp)

@[simp] theorem view_cancelAll (s : State) {m : Nat} (hm : 141333472 &&& m = 141333472) : view m (State.cancelAll s) = view m s := by
  refine view_mono hm ?_
  unfold State.cancelAll
  repeat' (first | (simp [*]; done) | split | rw [view_foldl] | rw [view_foldlp] | intro _ _ | simp)

@[simp] theorem view_dropUnits (s : State) {m : Nat} (hm : 38400 &&& m = 38400) : view m (State.dropUnits s) = view m s := by
  refine view_mono hm ?_
  unfold State.dropUnits
  repeat' (first | (simp [*]; done) | split | rw [view_foldl] | rw [view_foldlp] | intro _ _ | simp)

@[simp] theorem view_dropSlice (s : State) {m : Nat} (hm : 34816 &&& m = 34816) : view m (State.dropSlice s) = view m s := by
  refine view_mono hm ?_
  unfold State.dropSlice
  (repeat' split) <;> simp

@[simp] theorem view_scanCells (s : State) {m : Nat} (hm : 512 &&& m = 512) : view m (State.scanCells s) = view m s := by
  refine view_mono hm ?_
  unfold State.scanCells
  simp

@[simp] theorem view_beginService (s : State) (sv : SvcReset) {m : Nat} (hm : 149807080 &&& m = 149807080) : view m (State.beginService s sv) = view m s := by
  refine view_mono hm ?_
  unfold State.beginService
  dsimp only; (repeat' split) <;> simp

@[simp] theorem view_fwdEvent (s : State) {m : Nat} (hm : 8388608 &&& m = 8388608) : view m (State.fwdEvent s) = view m s := by
  refine view_mono hm ?_
  unfold State.fwdEvent
  simp

@[simp] theorem view_setFwd (s : State) (f : Fwd → Fwd) {m : Nat} (hm : 2097152 &&& m = 2097152) : view m (State.setFwd s f) = view m s := by
  refine view_mono hm ?_
  unfold State.setFwd
  simp

@[simp] theorem view_fwdSend (s : State) (dg : Bytes) {m : Nat} (hm : 524288 &&& m = 524288) : view m (State.fwdSend s dg) = view m s := by
  refine view_mono hm ?_
  unfold State.fwdSend
  simp

@[simp] theorem view_fwdHello (s : State) {m : Nat} (hm : 19398656 &&& m = 19398656) : view m (State.fwdHello s) = view m s := by
  refine view_mono hm ?_
  unfold State.fwdHello
  simp

@[simp] theorem view_fwdCmd (s : State) (op resp : Nat) (args payload : Bytes) {m : Nat} (hm : 2621440 &&& m = 2621440) : view m (State.fwdCmd s op resp args payload) = view m s := by
  refine view_mono hm ?_
  unfold State.fwdCmd
  simp

@[simp] theorem view_fwdFlight (s : State) (what : Option Nat) {m : Nat} (hm : 2097152 &&& m = 2097152) : view m (State.fwdFlight s what) = view m s := by
  refine view_mono hm ?_
  unfold State.fwdFlight
  simp

@[simp] theorem view_fwdBlock (s : State) (i : Nat) {m : Nat} (hm : 2654208 &&& m = 2654208) : view m (State.fwdBlock s i) = view m s := by
  refine view_mono hm ?_
  unfold State.fwdBlock
  repeat' (first | (simp [*]; done) | split | rw [view_foldl] | rw [view_foldlp] | intro _ _ | simp)

@[simp] theorem view_fwdPump (s : State) {m : Nat} (hm : 11042816 &&& m = 11042816) : view m (State.fwdPump s) = view m s := by
  refine view_mono hm ?_
  unfold State.fwdPump
  repeat' (first | (simp [*]; done) | split | rw [view_foldl] | rw [view_foldlp] | intro _ _ | simp)

@[simp] theorem view_fwdStart (s : State) {m : Nat} (hm : 27787264 &&& m = 27787264) : view m (State.fwdStart s) = view m s := by
  refine view_mono hm ?_
  unfold State.fwdStart
  dsimp only; (repeat' split) <;> simp

@[simp] theorem view_fwdAbandon (s : State) {m : Nat} (hm : 10485760 &&& m = 10485760) : view m (State.fwdAbandon s) = view m s := by
  refine view_mono hm ?_
  unfold State.fwdAbandon
  split <;> simp

@[simp] theorem view_fwdRetry (s : State) (st : BitVec 16) {m : Nat} (hm : 10485760 &&& m = 10485760) : view m (State.fwdRetry s st) = view m s := by
  refine view_mono hm ?_
  unfold State.fwdRetry
  simp

@[simp] theorem view_endSession (s : State) (result : Nat) {m : Nat} (hm : 2097152 &&& m = 2097152) : view m (State.endSession s result) = view m s := by
  refine view_mono hm ?_
  unfold State.endSession
  simp

@[simp] theorem view_abandonUpdate (s : State) {m : Nat} (hm : 10485760 &&& m = 10485760) : view m (State.abandonUpdate s) = view m s := by
  refine view_mono hm ?_
  unfold State.abandonUpdate
  simp

@[simp] theorem view_openUpdate (s : State) (src : UpdSrc) (h : Bytes) {m : Nat} (hm : 27787264 &&& m = 27787264) : view m (State.openUpdate s src h) = view m s := by
  refine view_mono hm ?_
  unfold State.openUpdate
  simp

@[simp] theorem view_heardFrom (s : State) (src : UpdSrc) {m : Nat} (hm : 2097152 &&& m = 2097152) : view m (State.heardFrom s src) = view m s := by
  refine view_mono hm ?_
  unfold State.heardFrom
  split <;> simp

@[simp] theorem view_noteOffer (s before : State) (c : Cmd) (src : UpdSrc) {m : Nat} (hm : 2097152 &&& m = 2097152) : view m (s.noteOffer before c src) = view m s := by
  refine view_mono hm ?_
  unfold State.noteOffer
  split <;> simp

@[simp] theorem view_askVerify (s : State) {m : Nat} (hm : 32768 &&& m = 32768) : view m (State.askVerify s) = view m s := by
  refine view_mono hm ?_
  unfold State.askVerify
  split <;> simp

@[simp] theorem view_measureSlot (s : State) (i slot : Nat) {m : Nat} (hm : 4194304 &&& m = 4194304) : view m (State.measureSlot s i slot) = view m s := by
  refine view_mono hm ?_
  unfold State.measureSlot
  simp

@[simp] theorem view_beginActivation (s : State) (adm : Option Nat) {m : Nat} (hm : 167772152 &&& m = 167772152) : view m (State.beginActivation s adm) = view m s := by
  refine view_mono hm ?_
  unfold State.beginActivation
  dsimp only
  split
  · rw [view_requestFull _ _ (by decide), view_setUpd _ _ (by decide)]
  · split
    · rw [view_leave _ _ _ (by decide), view_setUpd _ _ (by decide)]
    · rw [view_setUpd _ _ (by decide)]

@[simp] theorem view_activate (s : State) (c : Cmd) {m : Nat} (hm : 167772152 &&& m = 167772152) : view m (State.activate s c) = view m s := by
  refine view_mono hm ?_
  unfold State.activate
  split <;> simp

@[simp] theorem view_endActivate (s : State) (st : Status) {m : Nat} (hm : 137102304 &&& m = 137102304) : view m (State.endActivate s st) = view m s := by
  refine view_mono hm ?_
  unfold State.endActivate
  split <;> simp

@[simp] theorem view_revertActivation (s : State) {m : Nat} (hm : 149685224 &&& m = 149685224) : view m (State.revertActivation s) = view m s := by
  refine view_mono hm ?_
  unfold State.revertActivation
  dsimp only; (repeat' split) <;> simp

@[simp] theorem view_refuseHandOver (s : State) {m : Nat} (hm : 149685224 &&& m = 149685224) : view m (State.refuseHandOver s) = view m s := by
  refine view_mono hm ?_
  unfold State.refuseHandOver
  simp

@[simp] theorem view_fallback (s : State) (cause : Nat) {m : Nat} (hm : 167772152 &&& m = 167772152) : view m (State.fallback s cause) = view m s := by
  refine view_mono hm ?_
  unfold State.fallback
  dsimp only; (repeat' split) <;> simp

@[simp] theorem view_confirm (s : State) (by_ : Nat) {m : Nat} (hm : 10485760 &&& m = 10485760) : view m (State.confirm s by_) = view m s := by
  refine view_mono hm ?_
  unfold State.confirm
  simp

@[simp] theorem view_settleUpdate (s : State) (slot : Nat) {m : Nat} (hm : 10485760 &&& m = 10485760) : view m (State.settleUpdate s slot) = view m s := by
  refine view_mono hm ?_
  unfold State.settleUpdate
  dsimp only; (repeat' split) <;> simp

@[simp] theorem view_offer (s : State) (c : Cmd) {m : Nat} (hm : 162268128 &&& m = 162268128) : view m (State.offer s c) = view m s := by
  refine view_mono hm ?_
  unfold State.offer
  dsimp only
  (repeat' split) <;> simp

@[simp] theorem view_execUpdOffer (s : State) {m : Nat} (hm : 162268128 &&& m = 162268128) : view m (outState (execUpdOffer s) s) = view m s := by
  refine view_mono hm ?_
  unfold execUpdOffer
  simp only [outState_next]
  simp

@[simp] theorem view_blockComplete (s : State) (c : Cmd) (src : UpdSrc) (i : Nat) (data : Bytes) {m : Nat} (hm : 145527776 &&& m = 145527776) : view m (State.blockComplete s c src i data) = view m s := by
  refine view_mono hm ?_
  unfold State.blockComplete
  dsimp only; (repeat' split) <;> simp

@[simp] theorem view_block (s : State) (c : Cmd) {m : Nat} (hm : 145527776 &&& m = 145527776) : view m (State.block s c) = view m s := by
  refine view_mono hm ?_
  unfold State.block
  dsimp only; (repeat' split) <;> simp

@[simp] theorem view_execUpdBlock (s : State) {m : Nat} (hm : 145527776 &&& m = 145527776) : view m (outState (execUpdBlock s) s) = view m s := by
  refine view_mono hm ?_
  unfold execUpdBlock
  simp only [outState_next]
  simp

@[simp] theorem view_activateCmd (s : State) (c : Cmd) {m : Nat} (hm : 167772152 &&& m = 167772152) : view m (State.activateCmd s c) = view m s := by
  refine view_mono hm ?_
  unfold State.activateCmd
  dsimp only; split <;> simp

@[simp] theorem view_execUpdActivate (s : State) {m : Nat} (hm : 167772152 &&& m = 167772152) : view m (outState (execUpdActivate s) s) = view m s := by
  refine view_mono hm ?_
  unfold execUpdActivate
  simp only [outState_next]
  simp

@[simp] theorem view_execUpdConfirm (s : State) {m : Nat} (hm : 145490912 &&& m = 145490912) : view m (outState (execUpdConfirm s) s) = view m s := by
  refine view_mono hm ?_
  unfold execUpdConfirm
  simp only [outState_next]
  simp [ite_view]

@[simp] theorem view_decideWaiting (s : State) {m : Nat} (hm : 167772152 &&& m = 167772152) : view m (State.decideWaiting s) = view m s := by
  refine view_mono hm ?_
  unfold State.decideWaiting
  repeat' (first | (simp [*]; done) | split | rw [view_foldl] | rw [view_foldlp] | intro _ _ | simp)

@[simp] theorem view_verified (s : State) (badBlocks : List Nat) {m : Nat} (hm : 167772152 &&& m = 167772152) : view m (State.verified s badBlocks) = view m s := by
  refine view_mono hm ?_
  unfold State.verified
  dsimp only; (repeat' split) <;> simp

@[simp] theorem view_execUpdVerificationDone (badBlocks : List Nat) (s : State) {m : Nat} (hm : 167772152 &&& m = 167772152) : view m (outState (execUpdVerificationDone badBlocks s) s) = view m s := by
  refine view_mono hm ?_
  unfold execUpdVerificationDone
  simp only [outState_next]
  (repeat' split) <;> simp

@[simp] theorem view_execPartialBlockTimeout (s : State) {m : Nat} (hm : 2097152 &&& m = 2097152) : view m (outState (execPartialBlockTimeout s) s) = view m s := by
  refine view_mono hm ?_
  unfold execPartialBlockTimeout
  simp only [outState_next]
  simp

@[simp] theorem view_execUpdSessionAbandon (s : State) {m : Nat} (hm : 10485760 &&& m = 10485760) : view m (outState (execUpdSessionAbandon s) s) = view m s := by
  refine view_mono hm ?_
  unfold execUpdSessionAbandon
  simp only [outState_next]
  split <;> simp

@[simp] theorem view_execCfForwardRetry (s : State) {m : Nat} (hm : 27787264 &&& m = 27787264) : view m (outState (execCfForwardRetry s) s) = view m s := by
  refine view_mono hm ?_
  unfold execCfForwardRetry
  simp only [outState_next]
  (repeat' split) <;> simp

@[simp] theorem view_execCfForwardResponse (a : FwdAnswer) (s : State) {m : Nat} (hm : 11042816 &&& m = 11042816) : view m (outState (execCfForwardResponse a s) s) = view m s := by
  refine view_mono hm ?_
  unfold execCfForwardResponse
  simp only [outState_next]
  (repeat' split) <;> simp

@[simp] theorem view_execSelfActivation (s : State) {m : Nat} (hm : 167772152 &&& m = 167772152) : view m (outState (execSelfActivation s) s) = view m s := by
  refine view_mono hm ?_
  unfold execSelfActivation
  simp only [outState_next]
  split <;> simp

@[simp] theorem view_stepEffect (s : State) (step slot : Nat) {m : Nat} (hm : 15765512 &&& m = 15765512) : view m (State.stepEffect s step slot) = view m s := by
  refine view_mono hm ?_
  unfold State.stepEffect
  dsimp only; (repeat' split) <;> simp

@[simp] theorem view_stepsEnd (s : State) {m : Nat} (hm : 137104352 &&& m = 137104352) : view m (State.stepsEnd s) = view m s := by
  refine view_mono hm ?_
  unfold State.stepsEnd
  split <;> simp

@[simp] theorem view_execActivationStepDone (e : StepEnd) (s : State) {m : Nat} (hm : 150772712 &&& m = 150772712) : view m (outState (execActivationStepDone e s) s) = view m s := by
  refine view_mono hm ?_
  unfold execActivationStepDone
  simp only [outState_next]
  (repeat' split) <;> simp

@[simp] theorem view_watchSelfTest (s : State) {m : Nat} (hm : 167772152 &&& m = 167772152) : view m (State.watchSelfTest s) = view m s := by
  refine view_mono hm ?_
  unfold State.watchSelfTest
  dsimp only
  split
  · rw [view_fallback _ _ (by decide)]
  · rfl

@[simp] theorem view_execSelfTestPass (s : State) {m : Nat} (hm : 10485760 &&& m = 10485760) : view m (outState (execSelfTestPass s) s) = view m s := by
  refine view_mono hm ?_
  unfold execSelfTestPass
  simp only [outState_next]
  split <;> simp

@[simp] theorem view_execConfirmTimeout (s : State) {m : Nat} (hm : 167772152 &&& m = 167772152) : view m (outState (execConfirmTimeout s) s) = view m s := by
  refine view_mono hm ?_
  unfold execConfirmTimeout
  simp only [outState_next]
  split <;> simp

@[simp] theorem view_enterPs (s : State) (n : Fin 5) {m : Nat} (hm : 32768 &&& m = 32768) : view m (State.enterPs s n) = view m s := by
  refine view_mono hm ?_
  unfold State.enterPs
  simp

@[simp] theorem view_execPsIdleExpiry (ps : Fin 5) (s : State) {m : Nat} (hm : 32768 &&& m = 32768) : view m (outState (execPsIdleExpiry ps s) s) = view m s := by
  refine view_mono hm ?_
  unfold execPsIdleExpiry
  simp only [outState_next]
  split <;> simp

@[simp] theorem view_execWakeEvent (w : WakeSource) (s : State) {m : Nat} (hm : 32768 &&& m = 32768) : view m (outState (execWakeEvent w s) s) = view m s := by
  refine view_mono hm ?_
  unfold execWakeEvent
  simp only [outState_next]
  split <;> simp

@[simp] theorem view_ps4EntryPort (s : State) (p : Fin 2) {m : Nat} (hm : 150770656 &&& m = 150770656) : view m (State.ps4EntryPort s p) = view m s := by
  refine view_mono hm ?_
  unfold State.ps4EntryPort
  repeat' (first | (simp [*]; done) | split | rw [view_foldl] | rw [view_foldlp] | intro _ _ | simp)

@[simp] theorem view_ps4Entry (s : State) {m : Nat} (hm : 150770656 &&& m = 150770656) : view m (State.ps4Entry s) = view m s := by
  refine view_mono hm ?_
  unfold State.ps4Entry
  simp

@[simp] theorem view_ps4ExitPort (s : State) (p : Fin 2) {m : Nat} (hm : 10256384 &&& m = 10256384) : view m (State.ps4ExitPort s p) = view m s := by
  refine view_mono hm ?_
  unfold State.ps4ExitPort
  split <;> simp

@[simp] theorem view_ps4Exit (s : State) {m : Nat} (hm : 10256384 &&& m = 10256384) : view m (State.ps4Exit s) = view m s := by
  refine view_mono hm ?_
  unfold State.ps4Exit
  dsimp only; split <;> simp

@[simp] theorem view_enterPs0 (s : State) {m : Nat} (hm : 622592 &&& m = 622592) : view m (State.enterPs0 s) = view m s := by
  refine view_mono hm ?_
  unfold State.enterPs0
  split <;> simp

@[simp] theorem view_execPowerStateTransitionDone (s : State) {m : Nat} (hm : 150968288 &&& m = 150968288) : view m (outState (execPowerStateTransitionDone s) s) = view m s := by
  refine view_mono hm ?_
  unfold execPowerStateTransitionDone
  simp only [outState_next]
  (repeat' split) <;> simp

@[simp] theorem view_reviewClass (s : State) {m : Nat} (hm : 8552448 &&& m = 8552448) : view m (State.reviewClass s) = view m s := by
  refine view_mono hm ?_
  unfold State.reviewClass
  split <;> simp

@[simp] theorem view_evalIlimit (s : State) {m : Nat} (hm : 8552448 &&& m = 8552448) : view m (State.evalIlimit s) = view m s := by
  refine view_mono hm ?_
  unfold State.evalIlimit
  dsimp only; split <;> simp

@[simp] theorem view_execPwrclsChange (pads : Fin 8) (s : State) {m : Nat} (hm : 8552448 &&& m = 8552448) : view m (outState (execPwrclsChange pads s) s) = view m s := by
  refine view_mono hm ?_
  unfold execPwrclsChange
  simp only [outState_next]
  (repeat' split) <;> simp

@[simp] theorem view_execIlimitEvaluation (sample : InputSample) (s : State) {m : Nat} (hm : 8552448 &&& m = 8552448) : view m (outState (execIlimitEvaluation sample s) s) = view m s := by
  refine view_mono hm ?_
  unfold execIlimitEvaluation
  simp only [outState_next]
  split <;> simp

@[simp] theorem view_execIlimitClamp (vin10mV : Nat) (s : State) {m : Nat} (hm : 8421376 &&& m = 8421376) : view m (outState (execIlimitClamp vin10mV s) s) = view m s := by
  refine view_mono hm ?_
  unfold execIlimitClamp
  simp only [outState_next]
  split <;> simp

@[simp] theorem view_execVinHigh (vin10mV : Nat) (s : State) {m : Nat} (hm : 8388608 &&& m = 8388608) : view m (outState (execVinHigh vin10mV s) s) = view m s := by
  refine view_mono hm ?_
  unfold execVinHigh
  simp only [outState_next]
  split <;> simp

@[simp] theorem view_execPwrClassWrite (v : Word) (s : State) {m : Nat} (hm : 8552452 &&& m = 8552452) : view m (outState (execPwrClassWrite v s) s) = view m s := by
  refine view_mono hm ?_
  unfold execPwrClassWrite
  simp only [outState_next]
  split <;> simp

@[simp] theorem view_execPwrIlimitWrite (v : Word) (s : State) {m : Nat} (hm : 8552452 &&& m = 8552452) : view m (outState (execPwrIlimitWrite v s) s) = view m s := by
  refine view_mono hm ?_
  unfold execPwrIlimitWrite
  simp only [outState_next]
  split <;> simp

@[simp] theorem view_execTokenRequest (cls : Fin 4) (tokens : Nat) (s : State) {m : Nat} (hm : 32768 &&& m = 32768) : view m (outState (execTokenRequest cls tokens s) s) = view m s := by
  refine view_mono hm ?_
  unfold execTokenRequest
  simp only [outState_next]
  split <;> simp

@[simp] theorem view_execTokenReturn (grant : Nat) (s : State) {m : Nat} (hm : 32768 &&& m = 32768) : view m (outState (execTokenReturn grant s) s) = view m s := by
  refine view_mono hm ?_
  unfold execTokenReturn
  simp only [outState_next]
  split <;> simp

@[simp] theorem view_execPwrCtrlSnapshot (s : State) {m : Nat} (hm : 32768 &&& m = 32768) : view m (outState (execPwrCtrlSnapshot s) s) = view m s := by
  refine view_mono hm ?_
  unfold execPwrCtrlSnapshot
  simp only [outState_next]
  split <;> simp

@[simp] theorem view_publish (s : State) (v reason : Nat) {m : Nat} (hm : 8487424 &&& m = 8487424) : view m (State.publish s v reason) = view m s := by
  refine view_mono hm ?_
  unfold State.publish
  split <;> simp

@[simp] theorem view_startMetering (s : State) {m : Nat} (hm : 32768 &&& m = 32768) : view m (State.startMetering s) = view m s := by
  refine view_mono hm ?_
  unfold State.startMetering
  split <;> simp

@[simp] theorem view_startMeasure (s : State) {m : Nat} (hm : 98304 &&& m = 98304) : view m (State.startMeasure s) = view m s := by
  refine view_mono hm ?_
  unfold State.startMeasure
  split <;> simp

@[simp] theorem view_tryMeasure (s : State) {m : Nat} (hm : 8487424 &&& m = 8487424) : view m (State.tryMeasure s) = view m s := by
  refine view_mono hm ?_
  unfold State.tryMeasure
  dsimp only; (repeat' split) <;> simp

@[simp] theorem view_wantMeasure (s : State) {m : Nat} (hm : 8487424 &&& m = 8487424) : view m (State.wantMeasure s) = view m s := by
  refine view_mono hm ?_
  unfold State.wantMeasure
  dsimp only; (repeat' split) <;> simp

@[simp] theorem view_bankFails (s : State) (st : BankSt) {m : Nat} (hm : 8487424 &&& m = 8487424) : view m (State.bankFails s st) = view m s := by
  refine view_mono hm ?_
  unfold State.bankFails
  dsimp only; split <;> simp

@[simp] theorem view_charged (s : State) {m : Nat} (hm : 8487424 &&& m = 8487424) : view m (State.charged s) = view m s := by
  refine view_mono hm ?_
  unfold State.charged
  dsimp only; (repeat' split) <;> simp

@[simp] theorem view_execHoldVoltageStep (v10mV : Nat) (s : State) {m : Nat} (hm : 8487424 &&& m = 8487424) : view m (outState (execHoldVoltageStep v10mV s) s) = view m s := by
  refine view_mono hm ?_
  unfold execHoldVoltageStep
  simp only [outState_next]
  (repeat' split) <;> simp

@[simp] theorem view_execHoldVoltageFall (v10mV fell10mVIn1s : Nat) (s : State) {m : Nat} (hm : 8487424 &&& m = 8487424) : view m (outState (execHoldVoltageFall v10mV fell10mVIn1s s) s) = view m s := by
  refine view_mono hm ?_
  unfold execHoldVoltageFall
  simp only [outState_next]
  (repeat' split) <;> simp

@[simp] theorem view_execHoldAbsentTimeout (rise10mV : Nat) (s : State) {m : Nat} (hm : 8487424 &&& m = 8487424) : view m (outState (execHoldAbsentTimeout rise10mV s) s) = view m s := by
  refine view_mono hm ?_
  unfold execHoldAbsentTimeout
  simp only [outState_next]
  split <;> simp

@[simp] theorem view_execCapacitanceMeasurementDue (s : State) {m : Nat} (hm : 8487424 &&& m = 8487424) : view m (outState (execCapacitanceMeasurementDue s) s) = view m s := by
  refine view_mono hm ?_
  unfold execCapacitanceMeasurementDue
  simp only [outState_next]
  split <;> simp

@[simp] theorem view_execPwrCtrlMeasure (s : State) {m : Nat} (hm : 8487424 &&& m = 8487424) : view m (outState (execPwrCtrlMeasure s) s) = view m s := by
  refine view_mono hm ?_
  unfold execPwrCtrlMeasure
  simp only [outState_next]
  split <;> simp

@[simp] theorem view_execCapacitanceMeasurementDone (uF ms_ : Nat) (s : State) {m : Nat} (hm : 8487424 &&& m = 8487424) : view m (outState (execCapacitanceMeasurementDone uF ms_ s) s) = view m s := by
  refine view_mono hm ?_
  unfold execCapacitanceMeasurementDone
  simp only [outState_next]
  simp [ite_view]

@[simp] theorem view_execMeasurementRetry (s : State) {m : Nat} (hm : 8487424 &&& m = 8487424) : view m (outState (execMeasurementRetry s) s) = view m s := by
  refine view_mono hm ?_
  unfold execMeasurementRetry
  simp only [outState_next]
  split <;> simp

@[simp] theorem view_execBankRetry (s : State) {m : Nat} (hm : 98304 &&& m = 98304) : view m (outState (execBankRetry s) s) = view m s := by
  refine view_mono hm ?_
  unfold execBankRetry
  simp only [outState_next]
  split <;> simp

@[simp] theorem view_execHoldupChargeTimeout (s : State) {m : Nat} (hm : 8487424 &&& m = 8487424) : view m (outState (execHoldupChargeTimeout s) s) = view m s := by
  refine view_mono hm ?_
  unfold execHoldupChargeTimeout
  simp only [outState_next]
  split <;> simp

@[simp] theorem view_powerOff (s : State) (journalClosed : Bool) {m : Nat} (hm : 16548328 &&& m = 16548328) : view m (State.powerOff s journalClosed) = view m s := by
  refine view_mono hm ?_
  unfold State.powerOff
  dsimp only; (repeat' split) <;> simp

@[simp] theorem view_trip (s : State) (thermal : Bool) {m : Nat} (hm : 150920168 &&& m = 150920168) : view m (State.trip s thermal) = view m s := by
  refine view_mono hm ?_
  unfold State.trip
  dsimp only; (repeat' split) <;> simp

@[simp] theorem view_vinGone (s : State) {m : Nat} (hm : 8 &&& m = 8) : view m (State.vinGone s) = view m s := by
  refine view_mono hm ?_
  unfold State.vinGone
  simp

@[simp] theorem view_execUnderVoltageTrip (s : State) {m : Nat} (hm : 150920168 &&& m = 150920168) : view m (outState (execUnderVoltageTrip s) s) = view m s := by
  refine view_mono hm ?_
  unfold execUnderVoltageTrip
  simp only [outState_next]
  simp

@[simp] theorem view_execThermalTrip (s : State) {m : Nat} (hm : 150920168 &&& m = 150920168) : view m (outState (execThermalTrip s) s) = view m s := by
  refine view_mono hm ?_
  unfold execThermalTrip
  simp only [outState_next]
  split <;> simp

@[simp] theorem view_execHoldupDrainEnd (s : State) {m : Nat} (hm : 167550952 &&& m = 167550952) : view m (outState (execHoldupDrainEnd s) s) = view m s := by
  refine view_mono hm ?_
  unfold execHoldupDrainEnd
  simp only [outState_next]
  split <;> simp

@[simp] theorem view_execHoldAt12v (s : State) {m : Nat} (hm : 16613864 &&& m = 16613864) : view m (outState (execHoldAt12v s) s) = view m s := by
  refine view_mono hm ?_
  unfold execHoldAt12v
  simp only [outState_next]
  (repeat' split) <;> simp

@[simp] theorem view_execRestartQualification (straps : BitVec 4) (s : State) {m : Nat} (hm : 167772152 &&& m = 167772152) : view m (outState (execRestartQualification straps s) s) = view m s := by
  refine view_mono hm ?_
  unfold execRestartQualification
  simp only [outState_next]
  (repeat' split) <;> simp

@[simp] theorem view_thermalWarn (s : State) {m : Nat} (hm : 8552448 &&& m = 8552448) : view m (State.thermalWarn s) = view m s := by
  refine view_mono hm ?_
  unfold State.thermalWarn
  dsimp only; (repeat' split) <;> simp

@[simp] theorem view_thermalPause (s : State) {m : Nat} (hm : 142776832 &&& m = 142776832) : view m (State.thermalPause s) = view m s := by
  refine view_mono hm ?_
  unfold State.thermalPause
  (repeat' split) <;> simp

@[simp] theorem view_thermalDerate (s : State) {m : Nat} (hm : 8552448 &&& m = 8552448) : view m (State.thermalDerate s) = view m s := by
  refine view_mono hm ?_
  unfold State.thermalDerate
  (repeat' split) <;> simp

@[simp] theorem view_thermalFlash (s : State) {m : Nat} (hm : 8392704 &&& m = 8392704) : view m (State.thermalFlash s) = view m s := by
  refine view_mono hm ?_
  unfold State.thermalFlash
  dsimp only; (repeat' split) <;> simp

@[simp] theorem view_execThermalSample (ctrl16 : Int) (dies16 : List Int) (s : State) {m : Nat} (hm : 142776832 &&& m = 142776832) : view m (outState (execThermalSample ctrl16 dies16 s) s) = view m s := by
  refine view_mono hm ?_
  unfold execThermalSample
  simp only [outState_next]
  (repeat' split) <;> simp

@[simp] theorem view_execResetPin (s : State) {m : Nat} (hm : 167772152 &&& m = 167772152) : view m (outState (execResetPin s) s) = view m s := by
  refine view_mono hm ?_
  unfold execResetPin
  simp only [outState_next]
  simp

@[simp] theorem view_execSideBandSoftReset (v : Word) (s : State) {m : Nat} (hm : 167772152 &&& m = 167772152) : view m (outState (execSideBandSoftReset v s) s) = view m s := by
  refine view_mono hm ?_
  unfold execSideBandSoftReset
  simp only [outState_next]
  split <;> simp

@[simp] theorem view_execResetCloseDone (ended : Bool) (s : State) {m : Nat} (hm : 167772152 &&& m = 167772152) : view m (outState (execResetCloseDone ended s) s) = view m s := by
  refine view_mono hm ?_
  unfold execResetCloseDone
  simp only [outState_next]
  (repeat' split) <;> simp

@[simp] theorem view_execResetRelease (straps : BitVec 4) (s : State) {m : Nat} (hm : 167772152 &&& m = 167772152) : view m (outState (execResetRelease straps s) s) = view m s := by
  refine view_mono hm ?_
  unfold execResetRelease
  simp only [outState_next]
  (repeat' split) <;> simp

@[simp] theorem view_execReferenceLoss (s : State) {m : Nat} (hm : 167772152 &&& m = 167772152) : view m (outState (execReferenceLoss s) s) = view m s := by
  refine view_mono hm ?_
  unfold execReferenceLoss
  simp only [outState_next]
  split <;> simp

@[simp] theorem view_startService (s : State) (sv : SvcReset) {m : Nat} (hm : 167772152 &&& m = 167772152) : view m (State.startService s sv) = view m s := by
  refine view_mono hm ?_
  unfold State.startService
  dsimp only; (repeat' split) <;> simp

@[simp] theorem view_seeFault (s : State) {m : Nat} (hm : 2097152 &&& m = 2097152) : view m (State.seeFault s) = view m s := by
  refine view_mono hm ?_
  unfold State.seeFault
  simp

@[simp] theorem view_watchdog (s : State) (unit : Nat) {m : Nat} (hm : 167772152 &&& m = 167772152) : view m (State.watchdog s unit) = view m s := by
  refine view_mono hm ?_
  unfold State.watchdog
  dsimp only; (repeat' split) <;> simp

@[simp] theorem view_execCpWatchdog (cp : Fin 8) (s : State) {m : Nat} (hm : 167772152 &&& m = 167772152) : view m (outState (execCpWatchdog cp s) s) = view m s := by
  refine view_mono hm ?_
  unfold execCpWatchdog
  simp only [outState_next]
  simp

@[simp] theorem view_execEngineWatchdog (e : Engine) (s : State) {m : Nat} (hm : 167772152 &&& m = 167772152) : view m (outState (execEngineWatchdog e s) s) = view m s := by
  refine view_mono hm ?_
  unfold execEngineWatchdog
  simp only [outState_next]
  simp

@[simp] theorem view_execSupLockstepFailure (sup : Fin 2) (s : State) {m : Nat} (hm : 167772152 &&& m = 167772152) : view m (outState (execSupLockstepFailure sup s) s) = view m s := by
  refine view_mono hm ?_
  unfold execSupLockstepFailure
  simp only [outState_next]
  (repeat' split) <;> simp

@[simp] theorem view_resetPort (s : State) (p : Fin 2) {m : Nat} (hm : 150901728 &&& m = 150901728) : view m (State.resetPort s p) = view m s := by
  refine view_mono hm ?_
  unfold State.resetPort
  dsimp only; split <;> simp

@[simp] theorem view_execLedgerFault (l : LedgerId) (s : State) {m : Nat} (hm : 167772152 &&& m = 167772152) : view m (outState (execLedgerFault l s) s) = view m s := by
  refine view_mono hm ?_
  unfold execLedgerFault
  simp only [outState_next]
  (repeat' split) <;> simp

@[simp] theorem view_makeCompact (s : State) {m : Nat} (hm : 8390144 &&& m = 8390144) : view m (State.makeCompact s) = view m s := by
  refine view_mono hm ?_
  unfold State.makeCompact
  simp

@[simp] theorem view_resumePosting (s : State) {m : Nat} (hm : 149724128 &&& m = 149724128) : view m (State.resumePosting s) = view m s := by
  refine view_mono hm ?_
  unfold State.resumePosting
  repeat' (first | (simp [*]; done) | split | rw [view_foldl] | rw [view_foldlp] | intro _ _ | simp)

@[simp] theorem view_changeIndex (s : State) {m : Nat} (hm : 159424256 &&& m = 159424256) : view m (State.changeIndex s) = view m s := by
  refine view_mono hm ?_
  unfold State.changeIndex
  simp

@[simp] theorem view_endSvc (s : State) (sv : SvcReset) {m : Nat} (hm : 8 &&& m = 8) : view m (State.endSvc s sv) = view m s := by
  refine view_mono hm ?_
  unfold State.endSvc
  simp

@[simp] theorem view_execServiceResetEnd (s : State) {m : Nat} (hm : 166633448 &&& m = 166633448) : view m (outState (execServiceResetEnd s) s) = view m s := by
  refine view_mono hm ?_
  unfold execServiceResetEnd
  simp only [outState_next]
  (repeat' split) <;> simp

@[simp] theorem view_execServiceResetTimeout (s : State) {m : Nat} (hm : 167772152 &&& m = 167772152) : view m (outState (execServiceResetTimeout s) s) = view m s := by
  refine view_mono hm ?_
  unfold execServiceResetTimeout
  simp only [outState_next]
  (repeat' split) <;> simp

@[simp] theorem view_setDramCh (s : State) (ch : Nat) (f : DramCh → DramCh) {m : Nat} (hm : 8192 &&& m = 8192) : view m (State.setDramCh s ch f) = view m s := by
  refine view_mono hm ?_
  unfold State.setDramCh
  simp

@[simp] theorem view_retireDram (s : State) (ch : Nat) {m : Nat} (hm : 167772152 &&& m = 167772152) : view m (State.retireDram s ch) = view m s := by
  refine view_mono hm ?_
  unfold State.retireDram
  dsimp only; (repeat' split) <;> simp

@[simp] theorem view_retireBank (s : State) (ch bank : Nat) {m : Nat} (hm : 167772152 &&& m = 167772152) : view m (State.retireBank s ch bank) = view m s := by
  refine view_mono hm ?_
  unfold State.retireBank
  dsimp only; (repeat' split) <;> simp

@[simp] theorem view_failRow (s : State) (ch bank row : Nat) {m : Nat} (hm : 167772152 &&& m = 167772152) : view m (State.failRow s ch bank row) = view m s := by
  refine view_mono hm ?_
  unfold State.failRow
  dsimp only; split <;> simp

@[simp] theorem view_execDramError (ch : Fin 4) (e : DramErr) (s : State) {m : Nat} (hm : 167772152 &&& m = 167772152) : view m (outState (execDramError ch e s) s) = view m s := by
  refine view_mono hm ?_
  unfold execDramError
  simp only [outState_next]
  (repeat' split) <;> simp

@[simp] theorem view_measureStart (s : State) (slot : Nat) {m : Nat} (hm : 4194304 &&& m = 4194304) : view m (State.measureStart s slot) = view m s := by
  refine view_mono hm ?_
  unfold State.measureStart
  split <;> simp

@[simp] theorem view_bootRom (s : State) (verified : List Bool) {m : Nat} (hm : 14680072 &&& m = 14680072) : view m (State.bootRom s verified) = view m s := by
  refine view_mono hm ?_
  unfold State.bootRom
  repeat' (first | (simp [*]; done) | split | rw [view_foldl] | rw [view_foldlp] | intro _ _ | simp)

@[simp] theorem view_recoverRecorder (s : State) {m : Nat} (hm : 8388608 &&& m = 8388608) : view m (State.recoverRecorder s) = view m s := by
  refine view_mono hm ?_
  unfold State.recoverRecorder
  repeat' (first | (simp [*]; done) | split | rw [view_foldl] | rw [view_foldlp] | intro _ _ | simp)

@[simp] theorem view_settleSpaces (s : State) {m : Nat} (hm : 256 &&& m = 256) : view m (State.settleSpaces s) = view m s := by
  refine view_mono hm ?_
  unfold State.settleSpaces
  simp

@[simp] theorem view_reportShort (s : State) {m : Nat} (hm : 8454144 &&& m = 8454144) : view m (State.reportShort s) = view m s := by
  refine view_mono hm ?_
  unfold State.reportShort
  split <;> simp

@[simp] theorem view_repeatCrypto (s : State) {m : Nat} (hm : 12582912 &&& m = 12582912) : view m (State.repeatCrypto s) = view m s := by
  refine view_mono hm ?_
  unfold State.repeatCrypto
  (repeat' split) <;> simp

@[simp] theorem view_supStart (s : State) {m : Nat} (hm : 167772152 &&& m = 167772152) : view m (State.supStart s) = view m s := by
  refine view_mono hm ?_
  unfold State.supStart
  dsimp only; (repeat' split) <;> simp

@[simp] theorem view_logFromJournal (s : State) {m : Nat} (hm : 8650752 &&& m = 8650752) : view m (State.logFromJournal s) = view m s := by
  refine view_mono hm ?_
  unfold State.logFromJournal
  repeat' (first | (simp [*]; done) | split | rw [view_foldl] | rw [view_foldlp] | intro _ _ | simp)

@[simp] theorem view_goPhase (s : State) (n : Nat) {m : Nat} (hm : 8 &&& m = 8) : view m (State.goPhase s n) = view m s := by
  refine view_mono hm ?_
  unfold State.goPhase
  simp

@[simp] theorem view_trainPort (s : State) (p : Fin 2) {m : Nat} (hm : 557056 &&& m = 557056) : view m (State.trainPort s p) = view m s := by
  refine view_mono hm ?_
  unfold State.trainPort
  split <;> simp

@[simp] theorem view_spillCompact (s : State) {m : Nat} (hm : 1024 &&& m = 1024) : view m (State.spillCompact s) = view m s := by
  refine view_mono hm ?_
  unfold State.spillCompact
  split <;> simp

@[simp] theorem view_execStartUpPhaseDone (verified : List Bool) (s : State) {m : Nat} (hm : 167772152 &&& m = 167772152) : view m (outState (execStartUpPhaseDone verified s) s) = view m s := by
  refine view_mono hm ?_
  unfold execStartUpPhaseDone
  simp only [outState_next]
  (repeat' split) <;> simp

@[simp] theorem view_servoStart (s : State) {m : Nat} (hm : 1048576 &&& m = 1048576) : view m (State.servoStart s) = view m s := by
  refine view_mono hm ?_
  unfold State.servoStart
  split <;> simp

@[simp] theorem view_execServiceInstant (s : State) {m : Nat} (hm : 27000840 &&& m = 27000840) : view m (outState (execServiceInstant s) s) = view m s := by
  refine view_mono hm ?_
  unfold execServiceInstant
  simp only [outState_next]
  (repeat' split) <;> simp

end Sys2Proof.Machine
end

