-- ==== Sys2Proof/Laws/FrameSide.lean ====
section
/-! SUPPORT. Frames of the supervisor mailbox, the DMA engine, the side-band registers and the tick. The masks are those of `Laws/FrameBase.lean`. -/

namespace Sys2Proof.Machine

@[simp] theorem view_ksCreate (s : State) (c : Cmd) {m : Nat} (hm : 149722080 &&& m = 149722080) : view m (State.ksCreate s c) = view m s := by
  refine view_mono hm ?_
  unfold State.ksCreate
  dsimp only; (repeat' split) <;> simp

@[simp] theorem view_execKsCreate (s : State) {m : Nat} (hm : 149722080 &&& m = 149722080) : view m (outState (execKsCreate s) s) = view m s := by
  refine view_mono hm ?_
  unfold execKsCreate
  simp only [outState_next]
  simp

@[simp] theorem view_ksDelete (s : State) (c : Cmd) {m : Nat} (hm : 137102304 &&& m = 137102304) : view m (State.ksDelete s c) = view m s := by
  refine view_mono hm ?_
  unfold State.ksDelete
  (repeat' split) <;> simp

@[simp] theorem view_execKsDelete (s : State) {m : Nat} (hm : 137102304 &&& m = 137102304) : view m (outState (execKsDelete s) s) = view m s := by
  refine view_mono hm ?_
  unfold execKsDelete
  simp only [outState_next]
  simp

@[simp] theorem view_freeSpaceRecs (s : State) (ks : Nat) {m : Nat} (hm : 4608 &&& m = 4608) : view m (State.freeSpaceRecs s ks) = view m s := by
  refine view_mono hm ?_
  unfold State.freeSpaceRecs
  repeat' (first | (simp [*]; done) | split | rw [view_foldl] | rw [view_foldlp] | intro _ _ | simp)

@[simp] theorem view_flushDeleted (s : State) (ks : Nat) {m : Nat} (hm : 256 &&& m = 256) : view m (State.flushDeleted s ks) = view m s := by
  refine view_mono hm ?_
  unfold State.flushDeleted
  repeat' (first | (simp [*]; done) | split | rw [view_foldl] | rw [view_foldlp] | intro _ _ | simp)

@[simp] theorem view_forgetSpace (s : State) (ks : Nat) {m : Nat} (hm : 270080 &&& m = 270080) : view m (State.forgetSpace s ks) = view m s := by
  refine view_mono hm ?_
  unfold State.forgetSpace
  repeat' (first | (simp [*]; done) | split | rw [view_foldl] | rw [view_foldlp] | intro _ _ | simp)

@[simp] theorem view_execKsDeleteTakesEffect (adm : Nat) (s : State) {m : Nat} (hm : 149725152 &&& m = 149725152) : view m (outState (execKsDeleteTakesEffect adm s) s) = view m s := by
  refine view_mono hm ?_
  unfold execKsDeleteTakesEffect
  simp only [outState_next]
  (repeat' split) <;> simp

@[simp] theorem view_limitSet (s : State) (c : Cmd) (oldCap oldKeys : Nat) {m : Nat} (hm : 137102304 &&& m = 137102304) : view m (State.limitSet s c oldCap oldKeys) = view m s := by
  refine view_mono hm ?_
  unfold State.limitSet
  dsimp only; split <;> simp

@[simp] theorem view_ksSetLimit (s : State) (c : Cmd) {m : Nat} (hm : 145490912 &&& m = 145490912) : view m (State.ksSetLimit s c) = view m s := by
  refine view_mono hm ?_
  unfold State.ksSetLimit
  dsimp only; (repeat' split) <;> simp

@[simp] theorem view_execKsSetLimit (s : State) {m : Nat} (hm : 145490912 &&& m = 145490912) : view m (outState (execKsSetLimit s) s) = view m s := by
  refine view_mono hm ?_
  unfold execKsSetLimit
  simp only [outState_next]
  simp

@[simp] theorem view_destroyAll (s : State) {m : Nat} (hm : 138723072 &&& m = 138723072) : view m (State.destroyAll s) = view m s := by
  refine view_mono hm ?_
  unfold State.destroyAll
  repeat' (first | (simp [*]; done) | split | rw [view_foldl] | rw [view_foldlp] | intro _ _ | simp)

@[simp] theorem view_askMedium (s : State) {m : Nat} (hm : 32768 &&& m = 32768) : view m (State.askMedium s) = view m s := by
  refine view_mono hm ?_
  unfold State.askMedium
  split <;> simp

@[simp] theorem view_trySanitize (s : State) {m : Nat} (hm : 149733120 &&& m = 149733120) : view m (State.trySanitize s) = view m s := by
  refine view_mono hm ?_
  unfold State.trySanitize
  dsimp only; (repeat' split) <;> simp

@[simp] theorem view_sanitizeCmd (s : State) (c : Cmd) {m : Nat} (hm : 149733280 &&& m = 149733280) : view m (State.sanitizeCmd s c) = view m s := by
  refine view_mono hm ?_
  unfold State.sanitizeCmd
  simp

@[simp] theorem view_execFormat (s : State) {m : Nat} (hm : 149733344 &&& m = 149733344) : view m (outState (execFormat s) s) = view m s := by
  refine view_mono hm ?_
  unfold execFormat
  simp only [outState_next]
  simp

@[simp] theorem view_execSanitize (s : State) {m : Nat} (hm : 149733344 &&& m = 149733344) : view m (outState (execSanitize s) s) = view m s := by
  refine view_mono hm ?_
  unfold execSanitize
  simp only [outState_next]
  simp

@[simp] theorem view_formatted (s : State) {m : Nat} (hm : 166567908 &&& m = 166567908) : view m (State.formatted s) = view m s := by
  refine view_mono hm ?_
  unfold State.formatted
  repeat' (first | (simp [*]; done) | split | rw [view_foldl] | rw [view_foldlp] | intro _ _ | simp)

@[simp] theorem view_execSanitizeDone (s : State) {m : Nat} (hm : 166576100 &&& m = 166576100) : view m (outState (execSanitizeDone s) s) = view m s := by
  refine view_mono hm ?_
  unfold execSanitizeDone
  simp only [outState_next]
  (repeat' split) <;> simp

@[simp] theorem view_logReadCmd (s : State) (c : Cmd) {m : Nat} (hm : 137102304 &&& m = 137102304) : view m (State.logReadCmd s c) = view m s := by
  refine view_mono hm ?_
  unfold State.logReadCmd
  dsimp only; (repeat' split) <;> simp

@[simp] theorem view_execLogRead (s : State) {m : Nat} (hm : 137102304 &&& m = 137102304) : view m (outState (execLogRead s) s) = view m s := by
  refine view_mono hm ?_
  unfold execLogRead
  simp only [outState_next]
  simp

@[simp] theorem view_logClearCmd (s : State) (c : Cmd) {m : Nat} (hm : 145490912 &&& m = 145490912) : view m (State.logClearCmd s c) = view m s := by
  refine view_mono hm ?_
  unfold State.logClearCmd
  split <;> simp

@[simp] theorem view_execLogClear (s : State) {m : Nat} (hm : 145490912 &&& m = 145490912) : view m (outState (execLogClear s) s) = view m s := by
  refine view_mono hm ?_
  unfold execLogClear
  simp only [outState_next]
  simp

@[simp] theorem view_certReadCmd (s : State) (c : Cmd) {m : Nat} (hm : 137102304 &&& m = 137102304) : view m (State.certReadCmd s c) = view m s := by
  refine view_mono hm ?_
  unfold State.certReadCmd
  dsimp only; (repeat' split) <;> simp

@[simp] theorem view_execCertRead (s : State) {m : Nat} (hm : 137102304 &&& m = 137102304) : view m (outState (execCertRead s) s) = view m s := by
  refine view_mono hm ?_
  unfold execCertRead
  simp only [outState_next]
  simp

@[simp] theorem view_pumpSign (s : State) {m : Nat} (hm : 4227200 &&& m = 4227200) : view m (State.pumpSign s) = view m s := by
  refine view_mono hm ?_
  unfold State.pumpSign
  dsimp only; (repeat' split) <;> simp

@[simp] theorem view_attestCmd (s : State) (c : Cmd) {m : Nat} (hm : 141329376 &&& m = 141329376) : view m (State.attestCmd s c) = view m s := by
  refine view_mono hm ?_
  unfold State.attestCmd
  split <;> simp

@[simp] theorem view_execAttest (s : State) {m : Nat} (hm : 141329376 &&& m = 141329376) : view m (outState (execAttest s) s) = view m s := by
  refine view_mono hm ?_
  unfold execAttest
  simp only [outState_next]
  simp

@[simp] theorem view_execAttestSigningDone (s : State) {m : Nat} (hm : 158106592 &&& m = 158106592) : view m (outState (execAttestSigningDone s) s) = view m s := by
  refine view_mono hm ?_
  unfold execAttestSigningDone
  simp only [outState_next]
  split <;> simp

@[simp] theorem view_execAttestBusyTimeout (adm : Nat) (s : State) {m : Nat} (hm : 141333472 &&& m = 141333472) : view m (outState (execAttestBusyTimeout adm s) s) = view m s := by
  refine view_mono hm ?_
  unfold execAttestBusyTimeout
  simp only [outState_next]
  (repeat' split) <;> simp

@[simp] theorem view_identCmd (s : State) (c : Cmd) {m : Nat} (hm : 137102304 &&& m = 137102304) : view m (State.identCmd s c) = view m s := by
  refine view_mono hm ?_
  unfold State.identCmd
  split <;> simp

@[simp] theorem view_execIdent (s : State) {m : Nat} (hm : 137102304 &&& m = 137102304) : view m (outState (execIdent s) s) = view m s := by
  refine view_mono hm ?_
  unfold execIdent
  simp only [outState_next]
  simp

@[simp] theorem view_setPortCfg (s : State) (p : Fin 2) (f : PortCfg → PortCfg) {m : Nat} (hm : 4 &&& m = 4) : view m (State.setPortCfg s p f) = view m s := by
  refine view_mono hm ?_
  unfold State.setPortCfg
  simp

@[simp] theorem view_endBound (s : State) (p : Fin 2) (addr : Bytes) {m : Nat} (hm : 149722080 &&& m = 149722080) : view m (State.endBound s p addr) = view m s := by
  refine view_mono hm ?_
  unfold State.endBound
  repeat' (first | (simp [*]; done) | split | rw [view_foldl] | rw [view_foldlp] | intro _ _ | simp)

@[simp] theorem view_putFeature (s : State) (f ks pos v0 v1 : Nat) {m : Nat} (hm : 149853156 &&& m = 149853156) : view m (State.putFeature s f ks pos v0 v1) = view m s := by
  refine view_mono hm ?_
  unfold State.putFeature
  dsimp only; (repeat' split) <;> simp

@[simp] theorem view_setFeatureCmd (s : State) (c : Cmd) {m : Nat} (hm : 149853156 &&& m = 149853156) : view m (State.setFeatureCmd s c) = view m s := by
  refine view_mono hm ?_
  unfold State.setFeatureCmd
  dsimp only; (repeat' split) <;> simp

@[simp] theorem view_execSetFeature (s : State) {m : Nat} (hm : 149853156 &&& m = 149853156) : view m (outState (execSetFeature s) s) = view m s := by
  refine view_mono hm ?_
  unfold execSetFeature
  simp only [outState_next]
  simp

@[simp] theorem view_getFeatureCmd (s : State) (c : Cmd) {m : Nat} (hm : 153879520 &&& m = 153879520) : view m (State.getFeatureCmd s c) = view m s := by
  refine view_mono hm ?_
  unfold State.getFeatureCmd
  dsimp only; (repeat' split) <;> simp

@[simp] theorem view_execGetFeature (s : State) {m : Nat} (hm : 153879520 &&& m = 153879520) : view m (outState (execGetFeature s) s) = view m s := by
  refine view_mono hm ?_
  unfold execGetFeature
  simp only [outState_next]
  simp

@[simp] theorem view_summaryCmd (s : State) (c : Cmd) {m : Nat} (hm : 153879520 &&& m = 153879520) : view m (State.summaryCmd s c) = view m s := by
  refine view_mono hm ?_
  unfold State.summaryCmd
  split <;> simp

@[simp] theorem view_execSummary (s : State) {m : Nat} (hm : 153879520 &&& m = 153879520) : view m (outState (execSummary s) s) = view m s := by
  refine view_mono hm ?_
  unfold execSummary
  simp only [outState_next]
  simp

@[simp] theorem view_setDmaCh (s : State) (n : Fin 16) (f : DmaCh → DmaCh) {m : Nat} (hm : 16384 &&& m = 16384) : view m (State.setDmaCh s n f) = view m s := by
  refine view_mono hm ?_
  unfold State.setDmaCh
  simp

@[simp] theorem view_dmaMove (n : Nat) (s : State) (ch : Fin 16) (d : Desc) {m : Nat} (hm : 24576 &&& m = 24576) : view m (State.dmaMove n s ch d).1 = view m s := by
  refine view_mono hm ?_
  clear hm
  induction n generalizing s with
  | zero => rfl
  | succ n ih =>
    unfold State.dmaMove
    dsimp only
    (repeat' split) <;> simp [ih]

@[simp] theorem view_dmaHalt (s : State) (ch : Fin 16) (err : Nat) {m : Nat} (hm : 8404992 &&& m = 8404992) : view m (State.dmaHalt s ch err) = view m s := by
  refine view_mono hm ?_
  unfold State.dmaHalt
  simp

@[simp] theorem view_dmaStart (s : State) (ch : Fin 16) (d : Desc) {m : Nat} (hm : 8404992 &&& m = 8404992) : view m (State.dmaStart s ch d) = view m s := by
  refine view_mono hm ?_
  unfold State.dmaStart
  split <;> simp

@[simp] theorem view_dmaPromote (s : State) (ch : Fin 16) {m : Nat} (hm : 8404992 &&& m = 8404992) : view m (State.dmaPromote s ch) = view m s := by
  refine view_mono hm ?_
  unfold State.dmaPromote
  dsimp only; (repeat' split) <;> simp

@[simp] theorem view_dmaServe (n : Nat) (s : State) (clk : Nat) (served : List Nat) {m : Nat} (hm : 8413184 &&& m = 8413184) : view m (State.dmaServe n s clk served) = view m s := by
  refine view_mono hm ?_
  induction n generalizing s clk served with
  | zero => rfl
  | succ k ih =>
    unfold State.dmaServe
    split
    · rfl
    dsimp only
    split
    · rfl
    rw [ih, view_setDma _ _ (by decide), view_setDmaCh _ _ _ (by decide)]
    split <;> simp

@[simp] theorem view_tickDma (s : State) {m : Nat} (hm : 8413184 &&& m = 8413184) : view m (State.tickDma s) = view m s := by
  refine view_mono hm ?_
  unfold State.tickDma
  split <;> simp

@[simp] theorem view_execDmaPause (ch : Fin 16) (on : Bool) (s : State) {m : Nat} (hm : 16384 &&& m = 16384) : view m (outState (execDmaPause ch on s) s) = view m s := by
  refine view_mono hm ?_
  unfold execDmaPause
  simp only [outState_next]
  split <;> simp

@[simp] theorem view_execDmaStop (ch : Fin 16) (s : State) {m : Nat} (hm : 16384 &&& m = 16384) : view m (outState (execDmaStop ch s) s) = view m s := by
  refine view_mono hm ?_
  unfold execDmaStop
  simp only [outState_next]
  split <;> simp

@[simp] theorem view_execDmaShCommit (ch : Fin 16) (s : State) {m : Nat} (hm : 16384 &&& m = 16384) : view m (outState (execDmaShCommit ch s) s) = view m s := by
  refine view_mono hm ?_
  unfold execDmaShCommit
  simp only [outState_next]
  split <;> simp

@[simp] theorem view_execDmaRetry (ch : Fin 16) (s : State) {m : Nat} (hm : 8404992 &&& m = 8404992) : view m (outState (execDmaRetry ch s) s) = view m s := by
  refine view_mono hm ?_
  unfold execDmaRetry
  simp only [outState_next]
  (repeat' split) <;> simp

@[simp] theorem view_execDmaPauseDrainEnd (ch : Fin 16) (written : Nat) (s : State) {m : Nat} (hm : 8413184 &&& m = 8413184) : view m (outState (execDmaPauseDrainEnd ch written s) s) = view m s := by
  refine view_mono hm ?_
  unfold execDmaPauseDrainEnd
  simp only [outState_next]
  (repeat' split) <;> simp

@[simp] theorem view_execDmaHandOver (ch : Fin 16) (s : State) {m : Nat} (hm : 8413184 &&& m = 8413184) : view m (outState (execDmaHandOver ch s) s) = view m s := by
  refine view_mono hm ?_
  unfold execDmaHandOver
  simp only [outState_next]
  (repeat' split) <;> simp

@[simp] theorem view_serviceDmaError (s : State) (ch : Fin 16) (err : Nat) {m : Nat} (hm : 149722080 &&& m = 149722080) : view m (State.serviceDmaError s ch err) = view m s := by
  refine view_mono hm ?_
  unfold State.serviceDmaError
  (repeat' split) <;> simp

@[simp] theorem view_execDmaError (ch : Fin 16) (err : Fin 8) (written : Nat) (s : State) {m : Nat} (hm : 149746656 &&& m = 149746656) : view m (outState (execDmaError ch err written s) s) = view m s := by
  refine view_mono hm ?_
  unfold execDmaError
  simp only [outState_next]
  (repeat' split) <;> simp

@[simp] theorem view_execMbx31Doorbell (s : State) {m : Nat} (hm : 141329376 &&& m = 141329376) : view m (outState (execMbx31Doorbell s) s) = view m s := by
  refine view_mono hm ?_
  unfold execMbx31Doorbell
  simp only [outState_next]
  (repeat' split) <;> simp

@[simp] theorem view_execMbx31Cancel (s : State) {m : Nat} (hm : 141333472 &&& m = 141333472) : view m (outState (execMbx31Cancel s) s) = view m s := by
  refine view_mono hm ?_
  unfold execMbx31Cancel
  simp only [outState_next]
  (repeat' split) <;> simp

@[simp] theorem readBy_fst (s : State) (o : State → Host.Outcome State Fault Refusal) : (s.readBy o).1 = outState (o s) s := rfl

@[simp] theorem view_readReg (s : State) (addr : Nat) {m : Nat} (hm : 26214416 &&& m = 26214416) : view m (State.readReg s addr).1 = view m s := by
  refine view_mono hm ?_
  unfold State.readReg
  (repeat' split) <;> simp

@[simp] theorem view_execClkMeasSelWrite (v : Word) (s : State) {m : Nat} (hm : 8 &&& m = 8) : view m (outState (execClkMeasSelWrite v s) s) = view m s := by
  refine view_mono hm ?_
  unfold execClkMeasSelWrite
  simp only [outState_next]
  split <;> simp

@[simp] theorem view_execClkMeasDone (kHz : Nat) (s : State) {m : Nat} (hm : 8 &&& m = 8) : view m (outState (execClkMeasDone kHz s) s) = view m s := by
  refine view_mono hm ?_
  unfold execClkMeasDone
  simp only [outState_next]
  split <;> simp

@[simp] theorem by_eq (s : State) (o : State → Host.Outcome State Fault Refusal) : s.by o = outState (o s) s := rfl

@[simp] theorem view_writeGlb (s : State) (a : Nat) (v : Word) {m : Nat} (hm : 167772152 &&& m = 167772152) : view m (State.writeGlb s a v) = view m s := by
  refine view_mono hm ?_
  unfold State.writeGlb
  (repeat' split) <;> simp

@[simp] theorem view_writeMbx (s : State) (a : Nat) (v : Word) {m : Nat} (hm : 141333472 &&& m = 141333472) : view m (State.writeMbx s a v) = view m s := by
  refine view_mono hm ?_
  unfold State.writeMbx
  (repeat' split) <;> simp

@[simp] theorem view_writePwr (s : State) (a : Nat) (v : Word) {m : Nat} (hm : 149918692 &&& m = 149918692) : view m (State.writePwr s a v) = view m s := by
  refine view_mono hm ?_
  unfold State.writePwr
  (repeat' split) <;> simp

@[simp] theorem view_writeEvr (s : State) (a : Nat) (v : Word) {m : Nat} (hm : 8388608 &&& m = 8388608) : view m (State.writeEvr s a v) = view m s := by
  refine view_mono hm ?_
  unfold State.writeEvr
  (repeat' split) <;> simp

@[simp] theorem view_writeDmaCh (s : State) (ch : Fin 16) (a : Nat) (v : Word) {m : Nat} (hm : 8404992 &&& m = 8404992) : view m (State.writeDmaCh s ch a v) = view m s := by
  refine view_mono hm ?_
  unfold State.writeDmaCh
  (repeat' split) <;> simp

@[simp] theorem view_writeDma (s : State) (a : Nat) (v : Word) {m : Nat} (hm : 8404992 &&& m = 8404992) : view m (State.writeDma s a v) = view m s := by
  refine view_mono hm ?_
  unfold State.writeDma
  split <;> simp

@[simp] theorem view_putGcl (s : State) (p : Fin 2) (f : GateList → GateList) {m : Nat} (hm : 524288 &&& m = 524288) : view m (State.putGcl s p f) = view m s := by
  refine view_mono hm ?_
  unfold State.putGcl
  simp

@[simp] theorem view_writeMac (s : State) (p : Fin 2) (a : Nat) (v : Word) {m : Nat} (hm : 167678956 &&& m = 167678956) : view m (State.writeMac s p a v) = view m s := by
  refine view_mono hm ?_
  unfold State.writeMac
  dsimp only; (repeat' split) <;> simp

@[simp] theorem view_writePtp (s : State) (a : Nat) (v : Word) {m : Nat} (hm : 9961472 &&& m = 9961472) : view m (State.writePtp s a v) = view m s := by
  refine view_mono hm ?_
  unfold State.writePtp
  dsimp only; (repeat' split) <;> simp

@[simp] theorem view_writeReg (s : State) (addr : Nat) (v : Word) {m : Nat} (hm : 167772156 &&& m = 167772156) : view m (State.writeReg s addr v) = view m s := by
  refine view_mono hm ?_
  unfold State.writeReg
  dsimp only; (repeat' split) <;> simp

@[simp] theorem view_execRegisterWrite (addr : Nat) (v : Word) (s : State) {m : Nat} (hm : 167772156 &&& m = 167772156) : view m (outState (execRegisterWrite addr v s) s) = view m s := by
  refine view_mono hm ?_
  unfold execRegisterWrite
  simp only [outState_next]
  simp

@[simp] theorem view_sbTouch (s : State) (addr : Nat) {m : Nat} (hm : 32768 &&& m = 32768) : view m (State.sbTouch s addr) = view m s := by
  refine view_mono hm ?_
  unfold State.sbTouch
  split <;> simp

@[simp] theorem view_post (s : State) (addr : Nat) (v : Word) {m : Nat} (hm : 167772156 &&& m = 167772156) : view m (State.post s addr v) = view m s := by
  refine view_mono hm ?_
  unfold State.post
  dsimp only; (repeat' split) <;> simp

@[simp] theorem view_applyPosted (n : Nat) (s : State) {m : Nat} (hm : 167772156 &&& m = 167772156) : view m (State.applyPosted n s) = view m s := by
  refine view_mono hm ?_
  clear hm
  induction n generalizing s with
  | zero => rfl
  | succ n ih =>
    unfold State.applyPosted
    (repeat' split) <;> simp [ih]

@[simp] theorem view_execPostedWriteApply (s : State) {m : Nat} (hm : 167772156 &&& m = 167772156) : view m (outState (execPostedWriteApply s) s) = view m s := by
  refine view_mono hm ?_
  unfold execPostedWriteApply
  simp only [outState_next]
  simp

@[simp] theorem view_postWords (n : Nat) (s : State) (a : Nat) (b : Bytes) {m : Nat} (hm : 167772156 &&& m = 167772156) : view m (State.postWords n s a b) = view m s := by
  refine view_mono hm ?_
  clear hm
  induction n generalizing s a b with
  | zero => rfl
  | succ n ih =>
    unfold State.postWords
    (repeat' split) <;> simp [ih]

@[simp] theorem view_readWords (n : Nat) (s : State) (a : Nat) {m : Nat} (hm : 26214416 &&& m = 26214416) : view m (State.readWords n s a).1 = view m s := by
  refine view_mono hm ?_
  clear hm
  induction n generalizing s a with
  | zero => rfl
  | succ n ih =>
    unfold State.readWords
    dsimp only
    (repeat' split) <;> simp [ih]

@[simp] theorem view_sideRead (s : State) (addr words : Nat) (slow : Bool) {m : Nat} (hm : 167772156 &&& m = 167772156) : view m (State.sideRead s addr words slow) = view m s := by
  refine view_mono hm ?_
  unfold State.sideRead
  dsimp only; split <;> simp

@[simp] theorem view_execSpiWrite (addr : Nat) (data : Bytes) (s : State) {m : Nat} (hm : 167772156 &&& m = 167772156) : view m (outState (execSpiWrite addr data s) s) = view m s := by
  refine view_mono hm ?_
  unfold execSpiWrite
  simp only [outState_next]
  split <;> simp

@[simp] theorem view_execSpiRead (addr : Nat) (words : Nat) (waitBytes : Nat) (s : State) {m : Nat} (hm : 167772156 &&& m = 167772156) : view m (outState (execSpiRead addr words waitBytes s) s) = view m s := by
  refine view_mono hm ?_
  unfold execSpiRead
  simp only [outState_next]
  split <;> simp

@[simp] theorem view_execSpiStatus (s : State) {m : Nat} (hm : 16 &&& m = 16) : view m (outState (execSpiStatus s) s) = view m s := by
  refine view_mono hm ?_
  unfold execSpiStatus
  simp only [outState_next]
  split <;> simp

@[simp] theorem view_execI2cWrite (dev : BitVec 7) (addr : Nat) (data : Bytes) (s : State) {m : Nat} (hm : 167772156 &&& m = 167772156) : view m (outState (execI2cWrite dev addr data s) s) = view m s := by
  refine view_mono hm ?_
  unfold execI2cWrite
  simp only [outState_next]
  split <;> simp

@[simp] theorem view_execI2cRead (dev : BitVec 7) (addr : Nat) (words : Nat) (s : State) {m : Nat} (hm : 167772156 &&& m = 167772156) : view m (outState (execI2cRead dev addr words s) s) = view m s := by
  refine view_mono hm ?_
  unfold execI2cRead
  simp only [outState_next]
  split <;> simp

@[simp] theorem view_execI2cSclTimeout (s : State) {m : Nat} (hm : 16 &&& m = 16) : view m (outState (execI2cSclTimeout s) s) = view m s := by
  refine view_mono hm ?_
  unfold execI2cSclTimeout
  simp only [outState_next]
  simp

@[simp] theorem view_tickPtp (s : State) {m : Nat} (hm : 1048576 &&& m = 1048576) : view m (State.tickPtp s) = view m s := by
  refine view_mono hm ?_
  unfold State.tickPtp
  split <;> simp

@[simp] theorem view_tickPort (s : State) (p : Fin 2) {m : Nat} (hm : 524288 &&& m = 524288) : view m (State.tickPort s p) = view m s := by
  refine view_mono hm ?_
  unfold State.tickPort
  dsimp only; split <;> simp

@[simp] theorem view_tickStamps (s : State) {m : Nat} (hm : 1048576 &&& m = 1048576) : view m (State.tickStamps s) = view m s := by
  refine view_mono hm ?_
  unfold State.tickStamps
  split <;> simp

@[simp] theorem view_tickIdle (s : State) {m : Nat} (hm : 32768 &&& m = 32768) : view m (State.tickIdle s) = view m s := by
  refine view_mono hm ?_
  unfold State.tickIdle
  dsimp only; (repeat' split) <;> simp

@[simp] theorem view_tickTable (s : State) {m : Nat} (hm : 137139168 &&& m = 137139168) : view m (State.tickTable s) = view m s := by
  refine view_mono hm ?_
  unfold State.tickTable
  (repeat' split) <;> simp

@[simp] theorem view_tickUnits (s : State) {m : Nat} (hm : 167772152 &&& m = 167772152) : view m (State.tickUnits s) = view m s := by
  refine view_mono hm ?_
  unfold State.tickUnits
  dsimp only; (repeat' split) <;> simp

theorem view_moveClock (s : State) (n : Nat) : view 234881016 (s.setLife fun l => { l with clock := n }) = view 234881016 s := by
  simp [State.setLife, view, pick, Nat.testBit]

@[simp] theorem view_tick (s : State) {m : Nat} (hm : 234881016 &&& m = 234881016) : view m (State.tick s) = view m s := by
  refine view_mono hm ?_
  unfold State.tick
  dsimp only
  split
  · rfl
  split
  · exact view_moveClock s _
  · rw [view_tickIdle _ (by decide), view_tickDma _ (by decide), view_tickUnits _ (by decide), view_tickStamps _ (by decide), view_tickPort _ _ (by decide),
      view_tickPort _ _ (by decide), view_tickPtp _ (by decide)]
    exact view_moveClock s _

end Sys2Proof.Machine
end

