-- ==== Sys2Proof/Laws/Mem.lean ====
section
/-! SUPPORT. The byte memories: every write keeps the canonical form, a read after a write, inside and outside the bytes written. -/

namespace Sys2Proof.Machine

/-- Every listed address is at least `x`. -/
def From (x : Nat) (m : List Host.Cell) : Prop := ∀ c ∈ m, x ≤ c.1

theorem memWf_tail {c : Host.Cell} {m : List Host.Cell} (h : memWf (c :: m) = true) : memWf m = true := by
  cases m with
  | nil => rfl
  | cons d r => simp [memWf] at h; exact h.2

theorem memWf_head {c : Host.Cell} {m : List Host.Cell} (h : memWf (c :: m) = true) : c.2 ≠ 0 := by
  cases m with
  | nil => simpa [memWf] using h
  | cons d r => simp [memWf] at h; exact h.1.2

theorem memWf_from {c : Host.Cell} {m : List Host.Cell} (h : memWf (c :: m) = true) : From (c.1 + 1) m := by
  induction m generalizing c with
  | nil => intro d hd; simp at hd
  | cons e r ih =>
    intro d hd
    have h1 : c.1 < e.1 := by simp [memWf] at h; exact h.1.1
    rcases List.mem_cons.mp hd with rfl | hd
    · exact h1
    · have := ih (memWf_tail h) d hd; omega

theorem memWf_cons {c : Host.Cell} {m : List Host.Cell} (hc : c.2 ≠ 0) (hf : From (c.1 + 1) m) (hm : memWf m = true) :
    memWf (c :: m) = true := by
  cases m with
  | nil => simpa [memWf] using hc
  | cons d r =>
    have : c.1 < d.1 := hf d (by simp)
    simp [memWf, this, hm]; exact hc

theorem writeCell_from {m : List Host.Cell} {x y : Nat} {v : Byte} (hm : From y m) (hx : y ≤ x) : From y (writeCell m x v) := by
  induction m with
  | nil => unfold writeCell; split <;> intro c hc <;> simp_all
  | cons e r ih =>
    obtain ⟨a, b⟩ := e
    have ha : y ≤ a := hm (a, b) (by simp)
    have hr : From y r := fun c hc => hm c (by simp [hc])
    unfold writeCell
    split
    · split
      · exact hm
      · intro c hc; rcases List.mem_cons.mp hc with rfl | hc
        · exact hx
        · exact hm c hc
    · split
      · split
        · exact hr
        · intro c hc; rcases List.mem_cons.mp hc with rfl | hc
          · exact hx
          · exact hr c hc
      · intro c hc; rcases List.mem_cons.mp hc with rfl | hc
        · exact ha
        · exact ih hr c hc

/-- A write keeps the canonical form. -/
theorem writeCell_wf {m : List Host.Cell} {x : Nat} {v : Byte} (h : memWf m = true) : memWf (writeCell m x v) = true := by
  induction m with
  | nil => unfold writeCell; split <;> simp_all [memWf]
  | cons e r ih =>
    obtain ⟨a, b⟩ := e
    have hf := memWf_from h
    unfold writeCell
    split
    · split
      · exact h
      · rename_i hx hv
        refine memWf_cons hv ?_ h
        intro c hc
        rcases List.mem_cons.mp hc with rfl | hc
        · exact hx
        · have := hf c hc; simp at this ⊢; omega
    · split
      · split
        · exact memWf_tail h
        · rename_i hx hv
          subst hx
          exact memWf_cons hv hf (memWf_tail h)
      · rename_i h1 h2
        refine memWf_cons (memWf_head h) (writeCell_from hf ?_) (ih (memWf_tail h))
        simp; omega

/-- Writing bytes keeps the canonical form. -/
theorem writeCells_wf {m : List Host.Cell} {x : Nat} {b : Bytes} (h : memWf m = true) : memWf (writeCells m x b) = true := by
  induction b generalizing m x with
  | nil => exact h
  | cons v r ih => exact ih (writeCell_wf h)

theorem readCell_from {m : List Host.Cell} {x : Nat} (h : From (x + 1) m) : readCell m x = 0 := by
  induction m with
  | nil => rfl
  | cons e r ih =>
    obtain ⟨a, b⟩ := e
    have : x + 1 ≤ a := h (a, b) (by simp)
    unfold readCell
    rw [if_neg (by omega)]
    exact ih fun c hc => h c (by simp [hc])

/-- Reading the address just written gives the value. -/
theorem readCell_writeCell_self {m : List Host.Cell} {x : Nat} {v : Byte} (h : memWf m = true) : readCell (writeCell m x v) x = v := by
  induction m with
  | nil => unfold writeCell; split <;> simp_all [readCell]
  | cons e r ih =>
    obtain ⟨a, b⟩ := e
    have hf := memWf_from h
    unfold writeCell
    split
    · rename_i hx
      split
      · rename_i hv
        rw [hv]
        refine readCell_from ?_
        intro c hc
        rcases List.mem_cons.mp hc with rfl | hc
        · exact hx
        · have := hf c hc; simp at this; omega
      · simp [readCell]
    · split
      · rename_i hx
        subst hx
        split
        · rename_i hv; rw [hv]; exact readCell_from hf
        · simp [readCell]
      · rename_i h1 h2
        unfold readCell
        rw [if_neg (by omega)]
        exact ih (memWf_tail h)

/-- Reading another address gives what it gave before. -/
theorem readCell_writeCell_ne {m : List Host.Cell} {x y : Nat} {v : Byte} (hy : y ≠ x) : readCell (writeCell m x v) y = readCell m y := by
  induction m with
  | nil => unfold writeCell; split <;> simp [readCell]; omega
  | cons e r ih =>
    obtain ⟨a, b⟩ := e
    unfold writeCell
    split
    · split
      · rfl
      · rw [readCell, if_neg (by omega)]
    · split
      · rename_i hx
        subst hx
        split
        · rw [readCell, if_neg (by omega)]
        · rw [readCell, readCell, if_neg (by omega), if_neg (by omega)]
      · rw [readCell, readCell, ih]

/-- A byte string written is read back at its addresses. -/
theorem readCell_writeCells_out {m : List Host.Cell} {x y : Nat} {b : Bytes} (h : y < x ∨ x + b.length ≤ y) :
    readCell (writeCells m x b) y = readCell m y := by
  induction b generalizing m x with
  | nil => rfl
  | cons v r ih =>
    rw [writeCells, ih (by simp at h; omega), readCell_writeCell_ne (by simp at h; omega)]

theorem readCell_writeCells_in {m : List Host.Cell} {x : Nat} {b : Bytes} {i : Nat} (hm : memWf m = true) (hi : i < b.length) :
    readCell (writeCells m x b) (x + i) = b[i] := by
  induction b generalizing m x i with
  | nil => simp at hi
  | cons v r ih =>
    rw [writeCells]
    cases i with
    | zero => rw [readCell_writeCells_out (by omega)]; simpa using readCell_writeCell_self hm
    | succ j =>
      have := ih (m := writeCell m x v) (x := x + 1) (i := j) (writeCell_wf hm) (by simpa using hi)
      simpa [Nat.add_assoc, Nat.add_comm 1 j] using this

end Sys2Proof.Machine
end

