-- ==== Sys2Proof/Laws/Dram.lean ====
section
/-! SUPPORT. Every operation that reaches the DRAM keeps its byte memories in their canonical form; the others do not reach it (`Frame` files). -/

namespace Sys2Proof.Machine

/-- Every part of the state but the DRAM, as a mask (`Laws/FrameBase.lean`). -/
abbrev butDram : Nat := 268427263

/-- The byte memories of data DRAM and CP SRAM stand in their canonical form. -/
def dramOk (s : State) : Prop := memWf s.dram.mem = true ∧ memWf s.dram.sram = true

theorem dramOk_view (s : State) : dramOk (view 268427263 s) ↔ dramOk s := Iff.rfl

theorem dramOk_of {s t : State} (e : view 268427263 t = view 268427263 s) (h : dramOk (view 268427263 s)) : dramOk (view 268427263 t) := by rw [e]; exact h

theorem dram_foldl {α : Type} (f : State → α → State) (hf : ∀ s a, dramOk (view 268427263 s) → dramOk (view 268427263 (f s a))) (l : List α) (s : State)
    (h : dramOk (view 268427263 s)) : dramOk (view 268427263 (l.foldl f s)) := by
  induction l generalizing s with
  | nil => exact h
  | cons a r ih => exact ih _ (hf s a h)

theorem dram_runSup (s : State) (op : Nat) (f : State → Cmd → State) (hf : ∀ t c, dramOk (view 268427263 t) → dramOk (view 268427263 (f t c)))
    (h : dramOk (view 268427263 s)) : dramOk (view 268427263 (s.runSup op f)) := by
  unfold State.runSup State.checked
  (repeat' split)
  · simp [h]
  · exact hf _ _ h
  · exact h

@[simp] theorem dram_setLife (s : State) (f : Life → Life) (h : dramOk (view 268427263 s)) : dramOk (view 268427263 (s.setLife f)) := h

@[simp] theorem dram_setDramCh (s : State) (ch : Nat) (f : DramCh → DramCh) (h : dramOk (view 268427263 s)) : dramOk (view 268427263 (s.setDramCh ch f)) := h


@[simp] theorem dram_startInstant (s : State) (cause : Nat) (maint : Bool) (slot : Option Nat) (h : dramOk (view 268427263 s)) :
    dramOk (view 268427263 (State.startInstant s cause maint slot)) := by
  unfold State.startInstant
  dsimp only
  rw [view_settleTokens _ (by decide), view_setPwr _ _ (by decide)]
  exact ⟨rfl, rfl⟩

@[simp] theorem dram_fullReset (s : State) (r : FullReset) (ended : Bool) (h : dramOk (view 268427263 s)) :
    dramOk (view 268427263 (State.fullReset s r ended)) := by
  unfold State.fullReset
  dsimp only; (repeat' split) <;> simp [h]

@[simp] theorem dram_requestFull (s : State) (r : FullReset) (h : dramOk (view 268427263 s)) :
    dramOk (view 268427263 (State.requestFull s r)) := by
  unfold State.requestFull
  (repeat' split) <;> simp [h]

@[simp] theorem dram_beginActivation (s : State) (adm : Option Nat) (h : dramOk (view 268427263 s)) :
    dramOk (view 268427263 (State.beginActivation s adm)) := by
  unfold State.beginActivation
  dsimp only
  split
  · exact dram_requestFull _ _ (dramOk_of (view_setUpd _ _ (by decide)) h)
  · split
    · rw [view_leave _ _ _ (by decide), view_setUpd _ _ (by decide)]; exact h
    · rw [view_setUpd _ _ (by decide)]; exact h

@[simp] theorem dram_activate (s : State) (c : Cmd) (h : dramOk (view 268427263 s)) :
    dramOk (view 268427263 (State.activate s c)) := by
  unfold State.activate
  (repeat' split) <;> simp [h]

@[simp] theorem dram_fallback (s : State) (cause : Nat) (h : dramOk (view 268427263 s)) :
    dramOk (view 268427263 (State.fallback s cause)) := by
  unfold State.fallback
  dsimp only; (repeat' split) <;> simp [h]

@[simp] theorem dram_activateCmd (s : State) (c : Cmd) (h : dramOk (view 268427263 s)) :
    dramOk (view 268427263 (State.activateCmd s c)) := by
  unfold State.activateCmd
  dsimp only; (repeat' split) <;> simp [h]

@[simp] theorem dram_execUpdActivate (s : State) (h : dramOk (view 268427263 s)) :
    dramOk (view 268427263 (outState (execUpdActivate s) s)) := by
  unfold execUpdActivate
  simp only [outState_next]
  exact dram_runSup _ _ _ (fun t c h => by simp [h]) h

@[simp] theorem dram_decideWaiting (s : State) (h : dramOk (view 268427263 s)) :
    dramOk (view 268427263 (State.decideWaiting s)) := by
  unfold State.decideWaiting
  refine dram_foldl _ (fun s a h => ?_) _ _ (by simp [h])
  split <;> simp [h]

@[simp] theorem dram_verified (s : State) (badBlocks : List Nat) (h : dramOk (view 268427263 s)) :
    dramOk (view 268427263 (State.verified s badBlocks)) := by
  unfold State.verified
  dsimp only; (repeat' split) <;> simp [h]

@[simp] theorem dram_execUpdVerificationDone (badBlocks : List Nat) (s : State) (h : dramOk (view 268427263 s)) :
    dramOk (view 268427263 (outState (execUpdVerificationDone badBlocks s) s)) := by
  unfold execUpdVerificationDone
  simp only [outState_next]
  (repeat' split) <;> simp [h]

@[simp] theorem dram_execSelfActivation (s : State) (h : dramOk (view 268427263 s)) :
    dramOk (view 268427263 (outState (execSelfActivation s) s)) := by
  unfold execSelfActivation
  simp only [outState_next]
  (repeat' split) <;> simp [h]

@[simp] theorem dram_watchSelfTest (s : State) (h : dramOk (view 268427263 s)) :
    dramOk (view 268427263 (State.watchSelfTest s)) := by
  unfold State.watchSelfTest
  dsimp only
  split
  · exact dram_fallback _ _ h
  · exact h

@[simp] theorem dram_execConfirmTimeout (s : State) (h : dramOk (view 268427263 s)) :
    dramOk (view 268427263 (outState (execConfirmTimeout s) s)) := by
  unfold execConfirmTimeout
  simp only [outState_next]
  (repeat' split) <;> simp [h]

@[simp] theorem dram_execRestartQualification (straps : BitVec 4) (s : State) (h : dramOk (view 268427263 s)) :
    dramOk (view 268427263 (outState (execRestartQualification straps s) s)) := by
  unfold execRestartQualification
  simp only [outState_next]
  (repeat' split) <;> simp [h]

@[simp] theorem dram_execResetPin (s : State) (h : dramOk (view 268427263 s)) :
    dramOk (view 268427263 (outState (execResetPin s) s)) := by
  unfold execResetPin
  simp only [outState_next]
  simp [h]

@[simp] theorem dram_execSideBandSoftReset (v : Word) (s : State) (h : dramOk (view 268427263 s)) :
    dramOk (view 268427263 (outState (execSideBandSoftReset v s) s)) := by
  unfold execSideBandSoftReset
  simp only [outState_next]
  (repeat' split) <;> simp [h]

@[simp] theorem dram_execResetCloseDone (ended : Bool) (s : State) (h : dramOk (view 268427263 s)) :
    dramOk (view 268427263 (outState (execResetCloseDone ended s) s)) := by
  unfold execResetCloseDone
  simp only [outState_next]
  (repeat' split) <;> simp [h]

@[simp] theorem dram_execResetRelease (straps : BitVec 4) (s : State) (h : dramOk (view 268427263 s)) :
    dramOk (view 268427263 (outState (execResetRelease straps s) s)) := by
  unfold execResetRelease
  simp only [outState_next]
  (repeat' split) <;> simp [h]

@[simp] theorem dram_execReferenceLoss (s : State) (h : dramOk (view 268427263 s)) :
    dramOk (view 268427263 (outState (execReferenceLoss s) s)) := by
  unfold execReferenceLoss
  simp only [outState_next]
  (repeat' split) <;> simp [h]

@[simp] theorem dram_startService (s : State) (sv : SvcReset) (h : dramOk (view 268427263 s)) :
    dramOk (view 268427263 (State.startService s sv)) := by
  unfold State.startService
  dsimp only; (repeat' split) <;> simp [h]

@[simp] theorem dram_watchdog (s : State) (unit : Nat) (h : dramOk (view 268427263 s)) :
    dramOk (view 268427263 (State.watchdog s unit)) := by
  unfold State.watchdog
  dsimp only; (repeat' split) <;> simp [h]

@[simp] theorem dram_execCpWatchdog (cp : Fin 8) (s : State) (h : dramOk (view 268427263 s)) :
    dramOk (view 268427263 (outState (execCpWatchdog cp s) s)) := by
  unfold execCpWatchdog
  simp only [outState_next]
  simp [h]

@[simp] theorem dram_execEngineWatchdog (e : Engine) (s : State) (h : dramOk (view 268427263 s)) :
    dramOk (view 268427263 (outState (execEngineWatchdog e s) s)) := by
  unfold execEngineWatchdog
  simp only [outState_next]
  simp [h]

@[simp] theorem dram_execSupLockstepFailure (sup : Fin 2) (s : State) (h : dramOk (view 268427263 s)) :
    dramOk (view 268427263 (outState (execSupLockstepFailure sup s) s)) := by
  unfold execSupLockstepFailure
  simp only [outState_next]
  (repeat' split) <;> simp [h]

@[simp] theorem dram_execLedgerFault (l : LedgerId) (s : State) (h : dramOk (view 268427263 s)) :
    dramOk (view 268427263 (outState (execLedgerFault l s) s)) := by
  unfold execLedgerFault
  simp only [outState_next]
  (repeat' split) <;> simp [h]

@[simp] theorem dram_execServiceResetTimeout (s : State) (h : dramOk (view 268427263 s)) :
    dramOk (view 268427263 (outState (execServiceResetTimeout s) s)) := by
  unfold execServiceResetTimeout
  simp only [outState_next]
  (repeat' split) <;> simp [h]

@[simp] theorem dram_retireDram (s : State) (ch : Nat) (h : dramOk (view 268427263 s)) :
    dramOk (view 268427263 (State.retireDram s ch)) := by
  unfold State.retireDram
  dsimp only; (repeat' split) <;> simp [h]

@[simp] theorem dram_retireBank (s : State) (ch bank : Nat) (h : dramOk (view 268427263 s)) :
    dramOk (view 268427263 (State.retireBank s ch bank)) := by
  unfold State.retireBank
  dsimp only; (repeat' split) <;> simp [h]

@[simp] theorem dram_failRow (s : State) (ch bank row : Nat) (h : dramOk (view 268427263 s)) :
    dramOk (view 268427263 (State.failRow s ch bank row)) := by
  unfold State.failRow
  dsimp only
  split
  · exact dram_retireBank _ _ _ (dram_setDramCh _ _ _ h)
  · rw [view_logEv _ _ _ _ _ (by decide)]
    exact h

@[simp] theorem dram_execDramError (ch : Fin 4) (e : DramErr) (s : State) (h : dramOk (view 268427263 s)) :
    dramOk (view 268427263 (outState (execDramError ch e s) s)) := by
  unfold execDramError
  simp only [outState_next]
  split
  · exact h
  · split
    · split
      · exact dram_failRow _ _ _ _ (dram_setDramCh _ _ _ (dramOk_of (view_logEv _ _ _ _ _ (by decide)) h))
      · exact dram_setDramCh _ _ _ (dramOk_of (view_logEv _ _ _ _ _ (by decide)) h)
    · refine dram_failRow _ _ _ _ ?_
      split
      · exact dramOk_of (view_logEv _ _ _ _ _ (by decide)) h
      · exact h
    · split
      · exact dram_retireDram _ _ (dram_setDramCh _ _ _ (dramOk_of (view_logEv _ _ _ _ _ (by decide)) h))
      · exact dram_setDramCh _ _ _ (dramOk_of (view_logEv _ _ _ _ _ (by decide)) h)

@[simp] theorem dram_destroyAll (s : State) (h : dramOk (view 268427263 s)) :
    dramOk (view 268427263 (State.destroyAll s)) := by
  unfold State.destroyAll
  dsimp only
  rw [view_measureSecurity _ (by decide), view_setMir _ _ (by decide), view_setSec _ _ (by decide)]
  exact ⟨rfl, rfl⟩

@[simp] theorem dram_trySanitize (s : State) (h : dramOk (view 268427263 s)) :
    dramOk (view 268427263 (State.trySanitize s)) := by
  unfold State.trySanitize
  dsimp only; (repeat' split) <;> simp [h]

@[simp] theorem dram_sanitizeCmd (s : State) (c : Cmd) (h : dramOk (view 268427263 s)) :
    dramOk (view 268427263 (State.sanitizeCmd s c)) := by
  unfold State.sanitizeCmd
  simp [h]

@[simp] theorem dram_execFormat (s : State) (h : dramOk (view 268427263 s)) :
    dramOk (view 268427263 (outState (execFormat s) s)) := by
  unfold execFormat
  simp only [outState_next]
  exact dram_runSup _ _ _ (fun t c h => by simp [h]) h

@[simp] theorem dram_execSanitize (s : State) (h : dramOk (view 268427263 s)) :
    dramOk (view 268427263 (outState (execSanitize s) s)) := by
  unfold execSanitize
  simp only [outState_next]
  exact dram_runSup _ _ _ (fun t c h => by simp [h]) h

@[simp] theorem dram_execSanitizeDone (s : State) (h : dramOk (view 268427263 s)) :
    dramOk (view 268427263 (outState (execSanitizeDone s) s)) := by
  unfold execSanitizeDone
  simp only [outState_next]
  (repeat' split) <;> simp [h]

theorem dram_put (d : Dram) (space a : Nat) (v : Byte) (h : memWf d.mem = true ∧ memWf d.sram = true) :
    memWf (d.put space a v).mem = true ∧ memWf (d.put space a v).sram = true := by
  unfold Dram.put
  split
  · exact ⟨writeCell_wf h.1, h.2⟩
  · exact ⟨h.1, writeCell_wf h.2⟩

@[simp] theorem dram_dmaMove (n : Nat) (s : State) (ch : Fin 16) (d : Desc) (h : dramOk (view 268427263 s)) :
    dramOk (view 268427263 (State.dmaMove n s ch d).1) := by
  induction n generalizing s with
  | zero => exact h
  | succ n ih =>
    unfold State.dmaMove
    dsimp only
    (repeat' split)
    · exact h
    · exact h
    · exact ih _ (dram_put _ _ _ _ h)

@[simp] theorem dram_execDmaPauseDrainEnd (ch : Fin 16) (written : Nat) (s : State) (h : dramOk (view 268427263 s)) :
    dramOk (view 268427263 (outState (execDmaPauseDrainEnd ch written s) s)) := by
  unfold execDmaPauseDrainEnd
  simp only [outState_next]
  (repeat' split) <;> simp [h]

@[simp] theorem dram_execDmaHandOver (ch : Fin 16) (s : State) (h : dramOk (view 268427263 s)) :
    dramOk (view 268427263 (outState (execDmaHandOver ch s) s)) := by
  unfold execDmaHandOver
  simp only [outState_next]
  (repeat' split) <;> simp [h]

@[simp] theorem dram_execDmaError (ch : Fin 16) (err : Fin 8) (written : Nat) (s : State) (h : dramOk (view 268427263 s)) :
    dramOk (view 268427263 (outState (execDmaError ch err written s) s)) := by
  unfold execDmaError
  simp only [outState_next]
  (repeat' split) <;> simp [h]

@[simp] theorem dram_writeGlb (s : State) (a : Nat) (v : Word) (h : dramOk (view 268427263 s)) :
    dramOk (view 268427263 (State.writeGlb s a v)) := by
  unfold State.writeGlb
  (repeat' split) <;> simp [h]

@[simp] theorem dram_writeReg (s : State) (addr : Nat) (v : Word) (h : dramOk (view 268427263 s)) :
    dramOk (view 268427263 (State.writeReg s addr v)) := by
  unfold State.writeReg
  dsimp only; (repeat' split) <;> simp [h]

@[simp] theorem dram_execRegisterWrite (addr : Nat) (v : Word) (s : State) (h : dramOk (view 268427263 s)) :
    dramOk (view 268427263 (outState (execRegisterWrite addr v s) s)) := by
  unfold execRegisterWrite
  simp only [outState_next]
  simp [h]

@[simp] theorem dram_post (s : State) (addr : Nat) (v : Word) (h : dramOk (view 268427263 s)) :
    dramOk (view 268427263 (State.post s addr v)) := by
  unfold State.post
  dsimp only; (repeat' split) <;> simp [h]

@[simp] theorem dram_applyPosted (n : Nat) (s : State) (h : dramOk (view 268427263 s)) : dramOk (view 268427263 (State.applyPosted n s)) := by
  induction n generalizing s with
  | zero => exact h
  | succ n ih =>
    unfold State.applyPosted
    (repeat' split)
    · exact h
    · exact ih _ (by simp [h])
    · exact h

@[simp] theorem dram_execPostedWriteApply (s : State) (h : dramOk (view 268427263 s)) :
    dramOk (view 268427263 (outState (execPostedWriteApply s) s)) := by
  unfold execPostedWriteApply
  simp only [outState_next]
  simp [h]

@[simp] theorem dram_postWords (n : Nat) (s : State) (a : Nat) (b : Bytes) (h : dramOk (view 268427263 s)) :
    dramOk (view 268427263 (State.postWords n s a b)) := by
  induction n generalizing s a b with
  | zero => exact h
  | succ n ih =>
    unfold State.postWords
    (repeat' split) <;> simp [ih, h]

@[simp] theorem dram_sideRead (s : State) (addr words : Nat) (slow : Bool) (h : dramOk (view 268427263 s)) :
    dramOk (view 268427263 (State.sideRead s addr words slow)) := by
  unfold State.sideRead
  dsimp only; (repeat' split) <;> simp [h]

@[simp] theorem dram_execSpiWrite (addr : Nat) (data : Bytes) (s : State) (h : dramOk (view 268427263 s)) :
    dramOk (view 268427263 (outState (execSpiWrite addr data s) s)) := by
  unfold execSpiWrite
  simp only [outState_next]
  split <;> simp [h]

@[simp] theorem dram_execSpiRead (addr : Nat) (words : Nat) (waitBytes : Nat) (s : State) (h : dramOk (view 268427263 s)) :
    dramOk (view 268427263 (outState (execSpiRead addr words waitBytes s) s)) := by
  unfold execSpiRead
  simp only [outState_next]
  (repeat' split) <;> simp [h]

@[simp] theorem dram_execI2cWrite (dev : BitVec 7) (addr : Nat) (data : Bytes) (s : State) (h : dramOk (view 268427263 s)) :
    dramOk (view 268427263 (outState (execI2cWrite dev addr data s) s)) := by
  unfold execI2cWrite
  simp only [outState_next]
  (repeat' split) <;> simp [h]

@[simp] theorem dram_execI2cRead (dev : BitVec 7) (addr : Nat) (words : Nat) (s : State) (h : dramOk (view 268427263 s)) :
    dramOk (view 268427263 (outState (execI2cRead dev addr words s) s)) := by
  unfold execI2cRead
  simp only [outState_next]
  (repeat' split) <;> simp [h]

@[simp] theorem dram_tickUnits (s : State) (h : dramOk (view 268427263 s)) :
    dramOk (view 268427263 (State.tickUnits s)) := by
  unfold State.tickUnits
  dsimp only; (repeat' split) <;> simp [h]

@[simp] theorem dram_dmaServe (n : Nat) (s : State) (clk : Nat) (l : List Nat) (h : dramOk (view 268427263 s)) :
    dramOk (view 268427263 (State.dmaServe n s clk l)) := by
  induction n generalizing s clk l with
  | zero => exact h
  | succ n ih =>
    unfold State.dmaServe
    split
    · exact h
    dsimp only
    split
    · exact h
    · refine ih _ _ _ ?_
      split <;> simp [h]

@[simp] theorem dram_tickDma (s : State) (h : dramOk (view 268427263 s)) : dramOk (view 268427263 (State.tickDma s)) := by
  unfold State.tickDma
  split <;> simp [h]

@[simp] theorem dram_tick (s : State) (h : dramOk (view 268427263 s)) :
    dramOk (view 268427263 (State.tick s)) := by
  unfold State.tick
  dsimp only
  split
  · exact h
  split
  · exact h
  · refine dramOk_of (view_tickIdle _ (by decide)) (dram_tickDma _ (dram_tickUnits _ ?_))
    refine dramOk_of (view_tickStamps _ (by decide)) (dramOk_of (view_tickPort _ _ (by decide)) (dramOk_of (view_tickPort _ _ (by decide))
      (dramOk_of (view_tickPtp _ (by decide)) h)))

@[simp] theorem dram_supStart (s : State) (h : dramOk (view 268427263 s)) : dramOk (view 268427263 (State.supStart s)) := by
  unfold State.supStart
  dsimp only
  (repeat' split) <;> simp [h]

@[simp] theorem dram_execStartUpPhaseDone (verified : List Bool) (s : State) (h : dramOk (view 268427263 s)) :
    dramOk (view 268427263 (outState (execStartUpPhaseDone verified s) s)) := by
  unfold execStartUpPhaseDone
  simp only [outState_next]
  (repeat' split) <;> simp [h]

end Sys2Proof.Machine
end

