-- ==== Sys2Proof/Laws/Frame.lean ====
section
/-! SUPPORT. From a frame lemma of the `Frame` files to the reach of a command (`Safety.lean`). -/

namespace Sys2Proof.Machine

open Safety

/-- The bit of a mask that stands for a part of the state. -/
def Field.bit (f : Safety.Field) : Nat :=
  match f with
  | .part => 0
  | .ident => 1
  | .stored => 2
  | .life => 3
  | .sb => 4
  | .mbx => 5
  | .tr => 6
  | .cmds => 7
  | .kv => 8
  | .land => 9
  | .prism => 10
  | .jrn => 11
  | .flash => 12
  | .dram => 13
  | .dma => 14
  | .pwr => 15
  | .hold => 16
  | .thm => 17
  | .mir => 18
  | .ports => 19
  | .ptp => 20
  | .upd => 21
  | .sec => 22
  | .evr => 23
  | .freeCtr => 24
  | .pending => 25
  | .clock => 26
  | .mover => 27

/-- Two states with one view differ at most in the parts the mask blanks. -/
theorem only_of_view {m : Nat} {s t : State} {l : List Safety.Field} (h : view m t = view m s)
    (hl : ∀ f : Safety.Field, f ∉ l → m.testBit (Field.bit f) = false) : Only l s t := by
  intro f hf
  have hb := hl f hf
  cases f
  · exact of_view_part h hb
  · exact of_view_ident h hb
  · exact of_view_stored h hb
  · exact of_view_life h hb
  · exact of_view_sb h hb
  · exact of_view_mbx h hb
  · exact of_view_tr h hb
  · exact of_view_cmds h hb
  · exact of_view_kv h hb
  · exact of_view_land h hb
  · exact of_view_prism h hb
  · exact of_view_jrn h hb
  · exact of_view_flash h hb
  · exact of_view_dram h hb
  · exact of_view_dma h hb
  · exact of_view_mover h hb
  · exact of_view_pwr h hb
  · exact of_view_hold h hb
  · exact of_view_thm h hb
  · exact of_view_mir h hb
  · exact of_view_ports h hb
  · exact of_view_ptp h hb
  · exact of_view_upd h hb
  · exact of_view_sec h hb
  · exact of_view_evr h hb
  · exact of_view_freeCtr h hb
  · exact of_view_pending h hb
  · exact of_view_clock h hb

/-- Every part of the state. -/
def Field.all : List Safety.Field :=
  [.part, .ident, .stored, .life, .sb, .mbx, .tr, .cmds, .kv, .land, .prism, .jrn, .flash, .dram,
   .dma, .mover, .pwr, .hold, .thm, .mir, .ports, .ptp, .upd, .sec, .evr, .freeCtr, .pending, .clock]

theorem Field.mem_all (f : Safety.Field) : f ∈ Field.all := by cases f <;> decide

/-- A command's frame lemma gives its reach: the mask's bits are the parts of the list. -/
theorem reach_of_view {m : Nat} {i : Instr} {o : Host.Outcome State Fault Refusal} {s t : State} (h : o = .next t)
    (e : view m (outState o s) = view m s)
    (hl : (Field.all.all fun f => (reach i).contains f || !m.testBit (Field.bit f)) = true) : Only (reach i) s t := by
  subst h
  refine only_of_view e fun f hf => ?_
  have := List.all_eq_true.mp hl f (Field.mem_all f)
  simpa [hf] using this

end Sys2Proof.Machine
end

