-- ==== Sys2Proof/Laws/State.lean ====
section
/-! SUPPORT. What each small update of State does to each field (true by rfl), and what recording an event leaves alone. -/

namespace Sys2Proof.Machine

-- State.setEvr
@[simp] theorem State.setEvr_part (s : State) (g : Recorder → Recorder) : (s.setEvr g).part = s.part := rfl
@[simp] theorem State.setEvr_ident (s : State) (g : Recorder → Recorder) : (s.setEvr g).ident = s.ident := rfl
@[simp] theorem State.setEvr_stored (s : State) (g : Recorder → Recorder) : (s.setEvr g).stored = s.stored := rfl
@[simp] theorem State.setEvr_life (s : State) (g : Recorder → Recorder) : (s.setEvr g).life = s.life := rfl
@[simp] theorem State.setEvr_sb (s : State) (g : Recorder → Recorder) : (s.setEvr g).sb = s.sb := rfl
@[simp] theorem State.setEvr_mbx (s : State) (g : Recorder → Recorder) : (s.setEvr g).mbx = s.mbx := rfl
@[simp] theorem State.setEvr_tr (s : State) (g : Recorder → Recorder) : (s.setEvr g).tr = s.tr := rfl
@[simp] theorem State.setEvr_cmds (s : State) (g : Recorder → Recorder) : (s.setEvr g).cmds = s.cmds := rfl
@[simp] theorem State.setEvr_kv (s : State) (g : Recorder → Recorder) : (s.setEvr g).kv = s.kv := rfl
@[simp] theorem State.setEvr_land (s : State) (g : Recorder → Recorder) : (s.setEvr g).land = s.land := rfl
@[simp] theorem State.setEvr_prism (s : State) (g : Recorder → Recorder) : (s.setEvr g).prism = s.prism := rfl
@[simp] theorem State.setEvr_jrn (s : State) (g : Recorder → Recorder) : (s.setEvr g).jrn = s.jrn := rfl
@[simp] theorem State.setEvr_flash (s : State) (g : Recorder → Recorder) : (s.setEvr g).flash = s.flash := rfl
@[simp] theorem State.setEvr_dram (s : State) (g : Recorder → Recorder) : (s.setEvr g).dram = s.dram := rfl
@[simp] theorem State.setEvr_dma (s : State) (g : Recorder → Recorder) : (s.setEvr g).dma = s.dma := rfl
@[simp] theorem State.setEvr_mover (s : State) (g : Recorder → Recorder) : (s.setEvr g).mover = s.mover := rfl
@[simp] theorem State.setEvr_pwr (s : State) (g : Recorder → Recorder) : (s.setEvr g).pwr = s.pwr := rfl
@[simp] theorem State.setEvr_hold (s : State) (g : Recorder → Recorder) : (s.setEvr g).hold = s.hold := rfl
@[simp] theorem State.setEvr_thm (s : State) (g : Recorder → Recorder) : (s.setEvr g).thm = s.thm := rfl
@[simp] theorem State.setEvr_mir (s : State) (g : Recorder → Recorder) : (s.setEvr g).mir = s.mir := rfl
@[simp] theorem State.setEvr_ports (s : State) (g : Recorder → Recorder) : (s.setEvr g).ports = s.ports := rfl
@[simp] theorem State.setEvr_ptp (s : State) (g : Recorder → Recorder) : (s.setEvr g).ptp = s.ptp := rfl
@[simp] theorem State.setEvr_upd (s : State) (g : Recorder → Recorder) : (s.setEvr g).upd = s.upd := rfl
@[simp] theorem State.setEvr_sec (s : State) (g : Recorder → Recorder) : (s.setEvr g).sec = s.sec := rfl
@[simp] theorem State.setEvr_evr (s : State) (g : Recorder → Recorder) : (s.setEvr g).evr = g s.evr := rfl
@[simp] theorem State.setEvr_freeCtr (s : State) (g : Recorder → Recorder) : (s.setEvr g).freeCtr = s.freeCtr := rfl
@[simp] theorem State.setEvr_pending (s : State) (g : Recorder → Recorder) : (s.setEvr g).pending = s.pending := rfl
-- State.setPwr
@[simp] theorem State.setPwr_part (s : State) (g : Power → Power) : (s.setPwr g).part = s.part := rfl
@[simp] theorem State.setPwr_ident (s : State) (g : Power → Power) : (s.setPwr g).ident = s.ident := rfl
@[simp] theorem State.setPwr_stored (s : State) (g : Power → Power) : (s.setPwr g).stored = s.stored := rfl
@[simp] theorem State.setPwr_life (s : State) (g : Power → Power) : (s.setPwr g).life = s.life := rfl
@[simp] theorem State.setPwr_sb (s : State) (g : Power → Power) : (s.setPwr g).sb = s.sb := rfl
@[simp] theorem State.setPwr_mbx (s : State) (g : Power → Power) : (s.setPwr g).mbx = s.mbx := rfl
@[simp] theorem State.setPwr_tr (s : State) (g : Power → Power) : (s.setPwr g).tr = s.tr := rfl
@[simp] theorem State.setPwr_cmds (s : State) (g : Power → Power) : (s.setPwr g).cmds = s.cmds := rfl
@[simp] theorem State.setPwr_kv (s : State) (g : Power → Power) : (s.setPwr g).kv = s.kv := rfl
@[simp] theorem State.setPwr_land (s : State) (g : Power → Power) : (s.setPwr g).land = s.land := rfl
@[simp] theorem State.setPwr_prism (s : State) (g : Power → Power) : (s.setPwr g).prism = s.prism := rfl
@[simp] theorem State.setPwr_jrn (s : State) (g : Power → Power) : (s.setPwr g).jrn = s.jrn := rfl
@[simp] theorem State.setPwr_flash (s : State) (g : Power → Power) : (s.setPwr g).flash = s.flash := rfl
@[simp] theorem State.setPwr_dram (s : State) (g : Power → Power) : (s.setPwr g).dram = s.dram := rfl
@[simp] theorem State.setPwr_dma (s : State) (g : Power → Power) : (s.setPwr g).dma = s.dma := rfl
@[simp] theorem State.setPwr_mover (s : State) (g : Power → Power) : (s.setPwr g).mover = s.mover := rfl
@[simp] theorem State.setPwr_pwr (s : State) (g : Power → Power) : (s.setPwr g).pwr = g s.pwr := rfl
@[simp] theorem State.setPwr_hold (s : State) (g : Power → Power) : (s.setPwr g).hold = s.hold := rfl
@[simp] theorem State.setPwr_thm (s : State) (g : Power → Power) : (s.setPwr g).thm = s.thm := rfl
@[simp] theorem State.setPwr_mir (s : State) (g : Power → Power) : (s.setPwr g).mir = s.mir := rfl
@[simp] theorem State.setPwr_ports (s : State) (g : Power → Power) : (s.setPwr g).ports = s.ports := rfl
@[simp] theorem State.setPwr_ptp (s : State) (g : Power → Power) : (s.setPwr g).ptp = s.ptp := rfl
@[simp] theorem State.setPwr_upd (s : State) (g : Power → Power) : (s.setPwr g).upd = s.upd := rfl
@[simp] theorem State.setPwr_sec (s : State) (g : Power → Power) : (s.setPwr g).sec = s.sec := rfl
@[simp] theorem State.setPwr_evr (s : State) (g : Power → Power) : (s.setPwr g).evr = s.evr := rfl
@[simp] theorem State.setPwr_freeCtr (s : State) (g : Power → Power) : (s.setPwr g).freeCtr = s.freeCtr := rfl
@[simp] theorem State.setPwr_pending (s : State) (g : Power → Power) : (s.setPwr g).pending = s.pending := rfl
-- State.setHold
@[simp] theorem State.setHold_part (s : State) (g : Holdup → Holdup) : (s.setHold g).part = s.part := rfl
@[simp] theorem State.setHold_ident (s : State) (g : Holdup → Holdup) : (s.setHold g).ident = s.ident := rfl
@[simp] theorem State.setHold_stored (s : State) (g : Holdup → Holdup) : (s.setHold g).stored = s.stored := rfl
@[simp] theorem State.setHold_life (s : State) (g : Holdup → Holdup) : (s.setHold g).life = s.life := rfl
@[simp] theorem State.setHold_sb (s : State) (g : Holdup → Holdup) : (s.setHold g).sb = s.sb := rfl
@[simp] theorem State.setHold_mbx (s : State) (g : Holdup → Holdup) : (s.setHold g).mbx = s.mbx := rfl
@[simp] theorem State.setHold_tr (s : State) (g : Holdup → Holdup) : (s.setHold g).tr = s.tr := rfl
@[simp] theorem State.setHold_cmds (s : State) (g : Holdup → Holdup) : (s.setHold g).cmds = s.cmds := rfl
@[simp] theorem State.setHold_kv (s : State) (g : Holdup → Holdup) : (s.setHold g).kv = s.kv := rfl
@[simp] theorem State.setHold_land (s : State) (g : Holdup → Holdup) : (s.setHold g).land = s.land := rfl
@[simp] theorem State.setHold_prism (s : State) (g : Holdup → Holdup) : (s.setHold g).prism = s.prism := rfl
@[simp] theorem State.setHold_jrn (s : State) (g : Holdup → Holdup) : (s.setHold g).jrn = s.jrn := rfl
@[simp] theorem State.setHold_flash (s : State) (g : Holdup → Holdup) : (s.setHold g).flash = s.flash := rfl
@[simp] theorem State.setHold_dram (s : State) (g : Holdup → Holdup) : (s.setHold g).dram = s.dram := rfl
@[simp] theorem State.setHold_dma (s : State) (g : Holdup → Holdup) : (s.setHold g).dma = s.dma := rfl
@[simp] theorem State.setHold_mover (s : State) (g : Holdup → Holdup) : (s.setHold g).mover = s.mover := rfl
@[simp] theorem State.setHold_pwr (s : State) (g : Holdup → Holdup) : (s.setHold g).pwr = s.pwr := rfl
@[simp] theorem State.setHold_hold (s : State) (g : Holdup → Holdup) : (s.setHold g).hold = g s.hold := rfl
@[simp] theorem State.setHold_thm (s : State) (g : Holdup → Holdup) : (s.setHold g).thm = s.thm := rfl
@[simp] theorem State.setHold_mir (s : State) (g : Holdup → Holdup) : (s.setHold g).mir = s.mir := rfl
@[simp] theorem State.setHold_ports (s : State) (g : Holdup → Holdup) : (s.setHold g).ports = s.ports := rfl
@[simp] theorem State.setHold_ptp (s : State) (g : Holdup → Holdup) : (s.setHold g).ptp = s.ptp := rfl
@[simp] theorem State.setHold_upd (s : State) (g : Holdup → Holdup) : (s.setHold g).upd = s.upd := rfl
@[simp] theorem State.setHold_sec (s : State) (g : Holdup → Holdup) : (s.setHold g).sec = s.sec := rfl
@[simp] theorem State.setHold_evr (s : State) (g : Holdup → Holdup) : (s.setHold g).evr = s.evr := rfl
@[simp] theorem State.setHold_freeCtr (s : State) (g : Holdup → Holdup) : (s.setHold g).freeCtr = s.freeCtr := rfl
@[simp] theorem State.setHold_pending (s : State) (g : Holdup → Holdup) : (s.setHold g).pending = s.pending := rfl
-- State.setThm
@[simp] theorem State.setThm_part (s : State) (g : Thermal → Thermal) : (s.setThm g).part = s.part := rfl
@[simp] theorem State.setThm_ident (s : State) (g : Thermal → Thermal) : (s.setThm g).ident = s.ident := rfl
@[simp] theorem State.setThm_stored (s : State) (g : Thermal → Thermal) : (s.setThm g).stored = s.stored := rfl
@[simp] theorem State.setThm_life (s : State) (g : Thermal → Thermal) : (s.setThm g).life = s.life := rfl
@[simp] theorem State.setThm_sb (s : State) (g : Thermal → Thermal) : (s.setThm g).sb = s.sb := rfl
@[simp] theorem State.setThm_mbx (s : State) (g : Thermal → Thermal) : (s.setThm g).mbx = s.mbx := rfl
@[simp] theorem State.setThm_tr (s : State) (g : Thermal → Thermal) : (s.setThm g).tr = s.tr := rfl
@[simp] theorem State.setThm_cmds (s : State) (g : Thermal → Thermal) : (s.setThm g).cmds = s.cmds := rfl
@[simp] theorem State.setThm_kv (s : State) (g : Thermal → Thermal) : (s.setThm g).kv = s.kv := rfl
@[simp] theorem State.setThm_land (s : State) (g : Thermal → Thermal) : (s.setThm g).land = s.land := rfl
@[simp] theorem State.setThm_prism (s : State) (g : Thermal → Thermal) : (s.setThm g).prism = s.prism := rfl
@[simp] theorem State.setThm_jrn (s : State) (g : Thermal → Thermal) : (s.setThm g).jrn = s.jrn := rfl
@[simp] theorem State.setThm_flash (s : State) (g : Thermal → Thermal) : (s.setThm g).flash = s.flash := rfl
@[simp] theorem State.setThm_dram (s : State) (g : Thermal → Thermal) : (s.setThm g).dram = s.dram := rfl
@[simp] theorem State.setThm_dma (s : State) (g : Thermal → Thermal) : (s.setThm g).dma = s.dma := rfl
@[simp] theorem State.setThm_mover (s : State) (g : Thermal → Thermal) : (s.setThm g).mover = s.mover := rfl
@[simp] theorem State.setThm_pwr (s : State) (g : Thermal → Thermal) : (s.setThm g).pwr = s.pwr := rfl
@[simp] theorem State.setThm_hold (s : State) (g : Thermal → Thermal) : (s.setThm g).hold = s.hold := rfl
@[simp] theorem State.setThm_thm (s : State) (g : Thermal → Thermal) : (s.setThm g).thm = g s.thm := rfl
@[simp] theorem State.setThm_mir (s : State) (g : Thermal → Thermal) : (s.setThm g).mir = s.mir := rfl
@[simp] theorem State.setThm_ports (s : State) (g : Thermal → Thermal) : (s.setThm g).ports = s.ports := rfl
@[simp] theorem State.setThm_ptp (s : State) (g : Thermal → Thermal) : (s.setThm g).ptp = s.ptp := rfl
@[simp] theorem State.setThm_upd (s : State) (g : Thermal → Thermal) : (s.setThm g).upd = s.upd := rfl
@[simp] theorem State.setThm_sec (s : State) (g : Thermal → Thermal) : (s.setThm g).sec = s.sec := rfl
@[simp] theorem State.setThm_evr (s : State) (g : Thermal → Thermal) : (s.setThm g).evr = s.evr := rfl
@[simp] theorem State.setThm_freeCtr (s : State) (g : Thermal → Thermal) : (s.setThm g).freeCtr = s.freeCtr := rfl
@[simp] theorem State.setThm_pending (s : State) (g : Thermal → Thermal) : (s.setThm g).pending = s.pending := rfl
-- State.setLand
@[simp] theorem State.setLand_part (s : State) (g : Landing → Landing) : (s.setLand g).part = s.part := rfl
@[simp] theorem State.setLand_ident (s : State) (g : Landing → Landing) : (s.setLand g).ident = s.ident := rfl
@[simp] theorem State.setLand_stored (s : State) (g : Landing → Landing) : (s.setLand g).stored = s.stored := rfl
@[simp] theorem State.setLand_life (s : State) (g : Landing → Landing) : (s.setLand g).life = s.life := rfl
@[simp] theorem State.setLand_sb (s : State) (g : Landing → Landing) : (s.setLand g).sb = s.sb := rfl
@[simp] theorem State.setLand_mbx (s : State) (g : Landing → Landing) : (s.setLand g).mbx = s.mbx := rfl
@[simp] theorem State.setLand_tr (s : State) (g : Landing → Landing) : (s.setLand g).tr = s.tr := rfl
@[simp] theorem State.setLand_cmds (s : State) (g : Landing → Landing) : (s.setLand g).cmds = s.cmds := rfl
@[simp] theorem State.setLand_kv (s : State) (g : Landing → Landing) : (s.setLand g).kv = s.kv := rfl
@[simp] theorem State.setLand_land (s : State) (g : Landing → Landing) : (s.setLand g).land = g s.land := rfl
@[simp] theorem State.setLand_prism (s : State) (g : Landing → Landing) : (s.setLand g).prism = s.prism := rfl
@[simp] theorem State.setLand_jrn (s : State) (g : Landing → Landing) : (s.setLand g).jrn = s.jrn := rfl
@[simp] theorem State.setLand_flash (s : State) (g : Landing → Landing) : (s.setLand g).flash = s.flash := rfl
@[simp] theorem State.setLand_dram (s : State) (g : Landing → Landing) : (s.setLand g).dram = s.dram := rfl
@[simp] theorem State.setLand_dma (s : State) (g : Landing → Landing) : (s.setLand g).dma = s.dma := rfl
@[simp] theorem State.setLand_mover (s : State) (g : Landing → Landing) : (s.setLand g).mover = s.mover := rfl
@[simp] theorem State.setLand_pwr (s : State) (g : Landing → Landing) : (s.setLand g).pwr = s.pwr := rfl
@[simp] theorem State.setLand_hold (s : State) (g : Landing → Landing) : (s.setLand g).hold = s.hold := rfl
@[simp] theorem State.setLand_thm (s : State) (g : Landing → Landing) : (s.setLand g).thm = s.thm := rfl
@[simp] theorem State.setLand_mir (s : State) (g : Landing → Landing) : (s.setLand g).mir = s.mir := rfl
@[simp] theorem State.setLand_ports (s : State) (g : Landing → Landing) : (s.setLand g).ports = s.ports := rfl
@[simp] theorem State.setLand_ptp (s : State) (g : Landing → Landing) : (s.setLand g).ptp = s.ptp := rfl
@[simp] theorem State.setLand_upd (s : State) (g : Landing → Landing) : (s.setLand g).upd = s.upd := rfl
@[simp] theorem State.setLand_sec (s : State) (g : Landing → Landing) : (s.setLand g).sec = s.sec := rfl
@[simp] theorem State.setLand_evr (s : State) (g : Landing → Landing) : (s.setLand g).evr = s.evr := rfl
@[simp] theorem State.setLand_freeCtr (s : State) (g : Landing → Landing) : (s.setLand g).freeCtr = s.freeCtr := rfl
@[simp] theorem State.setLand_pending (s : State) (g : Landing → Landing) : (s.setLand g).pending = s.pending := rfl
-- State.setKv
@[simp] theorem State.setKv_part (s : State) (g : Kv → Kv) : (s.setKv g).part = s.part := rfl
@[simp] theorem State.setKv_ident (s : State) (g : Kv → Kv) : (s.setKv g).ident = s.ident := rfl
@[simp] theorem State.setKv_stored (s : State) (g : Kv → Kv) : (s.setKv g).stored = s.stored := rfl
@[simp] theorem State.setKv_life (s : State) (g : Kv → Kv) : (s.setKv g).life = s.life := rfl
@[simp] theorem State.setKv_sb (s : State) (g : Kv → Kv) : (s.setKv g).sb = s.sb := rfl
@[simp] theorem State.setKv_mbx (s : State) (g : Kv → Kv) : (s.setKv g).mbx = s.mbx := rfl
@[simp] theorem State.setKv_tr (s : State) (g : Kv → Kv) : (s.setKv g).tr = s.tr := rfl
@[simp] theorem State.setKv_cmds (s : State) (g : Kv → Kv) : (s.setKv g).cmds = s.cmds := rfl
@[simp] theorem State.setKv_kv (s : State) (g : Kv → Kv) : (s.setKv g).kv = g s.kv := rfl
@[simp] theorem State.setKv_land (s : State) (g : Kv → Kv) : (s.setKv g).land = s.land := rfl
@[simp] theorem State.setKv_prism (s : State) (g : Kv → Kv) : (s.setKv g).prism = s.prism := rfl
@[simp] theorem State.setKv_jrn (s : State) (g : Kv → Kv) : (s.setKv g).jrn = s.jrn := rfl
@[simp] theorem State.setKv_flash (s : State) (g : Kv → Kv) : (s.setKv g).flash = s.flash := rfl
@[simp] theorem State.setKv_dram (s : State) (g : Kv → Kv) : (s.setKv g).dram = s.dram := rfl
@[simp] theorem State.setKv_dma (s : State) (g : Kv → Kv) : (s.setKv g).dma = s.dma := rfl
@[simp] theorem State.setKv_mover (s : State) (g : Kv → Kv) : (s.setKv g).mover = s.mover := rfl
@[simp] theorem State.setKv_pwr (s : State) (g : Kv → Kv) : (s.setKv g).pwr = s.pwr := rfl
@[simp] theorem State.setKv_hold (s : State) (g : Kv → Kv) : (s.setKv g).hold = s.hold := rfl
@[simp] theorem State.setKv_thm (s : State) (g : Kv → Kv) : (s.setKv g).thm = s.thm := rfl
@[simp] theorem State.setKv_mir (s : State) (g : Kv → Kv) : (s.setKv g).mir = s.mir := rfl
@[simp] theorem State.setKv_ports (s : State) (g : Kv → Kv) : (s.setKv g).ports = s.ports := rfl
@[simp] theorem State.setKv_ptp (s : State) (g : Kv → Kv) : (s.setKv g).ptp = s.ptp := rfl
@[simp] theorem State.setKv_upd (s : State) (g : Kv → Kv) : (s.setKv g).upd = s.upd := rfl
@[simp] theorem State.setKv_sec (s : State) (g : Kv → Kv) : (s.setKv g).sec = s.sec := rfl
@[simp] theorem State.setKv_evr (s : State) (g : Kv → Kv) : (s.setKv g).evr = s.evr := rfl
@[simp] theorem State.setKv_freeCtr (s : State) (g : Kv → Kv) : (s.setKv g).freeCtr = s.freeCtr := rfl
@[simp] theorem State.setKv_pending (s : State) (g : Kv → Kv) : (s.setKv g).pending = s.pending := rfl
-- State.setPrism
@[simp] theorem State.setPrism_part (s : State) (g : Prism → Prism) : (s.setPrism g).part = s.part := rfl
@[simp] theorem State.setPrism_ident (s : State) (g : Prism → Prism) : (s.setPrism g).ident = s.ident := rfl
@[simp] theorem State.setPrism_stored (s : State) (g : Prism → Prism) : (s.setPrism g).stored = s.stored := rfl
@[simp] theorem State.setPrism_life (s : State) (g : Prism → Prism) : (s.setPrism g).life = s.life := rfl
@[simp] theorem State.setPrism_sb (s : State) (g : Prism → Prism) : (s.setPrism g).sb = s.sb := rfl
@[simp] theorem State.setPrism_mbx (s : State) (g : Prism → Prism) : (s.setPrism g).mbx = s.mbx := rfl
@[simp] theorem State.setPrism_tr (s : State) (g : Prism → Prism) : (s.setPrism g).tr = s.tr := rfl
@[simp] theorem State.setPrism_cmds (s : State) (g : Prism → Prism) : (s.setPrism g).cmds = s.cmds := rfl
@[simp] theorem State.setPrism_kv (s : State) (g : Prism → Prism) : (s.setPrism g).kv = s.kv := rfl
@[simp] theorem State.setPrism_land (s : State) (g : Prism → Prism) : (s.setPrism g).land = s.land := rfl
@[simp] theorem State.setPrism_prism (s : State) (g : Prism → Prism) : (s.setPrism g).prism = g s.prism := rfl
@[simp] theorem State.setPrism_jrn (s : State) (g : Prism → Prism) : (s.setPrism g).jrn = s.jrn := rfl
@[simp] theorem State.setPrism_flash (s : State) (g : Prism → Prism) : (s.setPrism g).flash = s.flash := rfl
@[simp] theorem State.setPrism_dram (s : State) (g : Prism → Prism) : (s.setPrism g).dram = s.dram := rfl
@[simp] theorem State.setPrism_dma (s : State) (g : Prism → Prism) : (s.setPrism g).dma = s.dma := rfl
@[simp] theorem State.setPrism_mover (s : State) (g : Prism → Prism) : (s.setPrism g).mover = s.mover := rfl
@[simp] theorem State.setPrism_pwr (s : State) (g : Prism → Prism) : (s.setPrism g).pwr = s.pwr := rfl
@[simp] theorem State.setPrism_hold (s : State) (g : Prism → Prism) : (s.setPrism g).hold = s.hold := rfl
@[simp] theorem State.setPrism_thm (s : State) (g : Prism → Prism) : (s.setPrism g).thm = s.thm := rfl
@[simp] theorem State.setPrism_mir (s : State) (g : Prism → Prism) : (s.setPrism g).mir = s.mir := rfl
@[simp] theorem State.setPrism_ports (s : State) (g : Prism → Prism) : (s.setPrism g).ports = s.ports := rfl
@[simp] theorem State.setPrism_ptp (s : State) (g : Prism → Prism) : (s.setPrism g).ptp = s.ptp := rfl
@[simp] theorem State.setPrism_upd (s : State) (g : Prism → Prism) : (s.setPrism g).upd = s.upd := rfl
@[simp] theorem State.setPrism_sec (s : State) (g : Prism → Prism) : (s.setPrism g).sec = s.sec := rfl
@[simp] theorem State.setPrism_evr (s : State) (g : Prism → Prism) : (s.setPrism g).evr = s.evr := rfl
@[simp] theorem State.setPrism_freeCtr (s : State) (g : Prism → Prism) : (s.setPrism g).freeCtr = s.freeCtr := rfl
@[simp] theorem State.setPrism_pending (s : State) (g : Prism → Prism) : (s.setPrism g).pending = s.pending := rfl
-- State.setJrn
@[simp] theorem State.setJrn_part (s : State) (g : Journal → Journal) : (s.setJrn g).part = s.part := rfl
@[simp] theorem State.setJrn_ident (s : State) (g : Journal → Journal) : (s.setJrn g).ident = s.ident := rfl
@[simp] theorem State.setJrn_stored (s : State) (g : Journal → Journal) : (s.setJrn g).stored = s.stored := rfl
@[simp] theorem State.setJrn_life (s : State) (g : Journal → Journal) : (s.setJrn g).life = s.life := rfl
@[simp] theorem State.setJrn_sb (s : State) (g : Journal → Journal) : (s.setJrn g).sb = s.sb := rfl
@[simp] theorem State.setJrn_mbx (s : State) (g : Journal → Journal) : (s.setJrn g).mbx = s.mbx := rfl
@[simp] theorem State.setJrn_tr (s : State) (g : Journal → Journal) : (s.setJrn g).tr = s.tr := rfl
@[simp] theorem State.setJrn_cmds (s : State) (g : Journal → Journal) : (s.setJrn g).cmds = s.cmds := rfl
@[simp] theorem State.setJrn_kv (s : State) (g : Journal → Journal) : (s.setJrn g).kv = s.kv := rfl
@[simp] theorem State.setJrn_land (s : State) (g : Journal → Journal) : (s.setJrn g).land = s.land := rfl
@[simp] theorem State.setJrn_prism (s : State) (g : Journal → Journal) : (s.setJrn g).prism = s.prism := rfl
@[simp] theorem State.setJrn_jrn (s : State) (g : Journal → Journal) : (s.setJrn g).jrn = g s.jrn := rfl
@[simp] theorem State.setJrn_flash (s : State) (g : Journal → Journal) : (s.setJrn g).flash = s.flash := rfl
@[simp] theorem State.setJrn_dram (s : State) (g : Journal → Journal) : (s.setJrn g).dram = s.dram := rfl
@[simp] theorem State.setJrn_dma (s : State) (g : Journal → Journal) : (s.setJrn g).dma = s.dma := rfl
@[simp] theorem State.setJrn_mover (s : State) (g : Journal → Journal) : (s.setJrn g).mover = s.mover := rfl
@[simp] theorem State.setJrn_pwr (s : State) (g : Journal → Journal) : (s.setJrn g).pwr = s.pwr := rfl
@[simp] theorem State.setJrn_hold (s : State) (g : Journal → Journal) : (s.setJrn g).hold = s.hold := rfl
@[simp] theorem State.setJrn_thm (s : State) (g : Journal → Journal) : (s.setJrn g).thm = s.thm := rfl
@[simp] theorem State.setJrn_mir (s : State) (g : Journal → Journal) : (s.setJrn g).mir = s.mir := rfl
@[simp] theorem State.setJrn_ports (s : State) (g : Journal → Journal) : (s.setJrn g).ports = s.ports := rfl
@[simp] theorem State.setJrn_ptp (s : State) (g : Journal → Journal) : (s.setJrn g).ptp = s.ptp := rfl
@[simp] theorem State.setJrn_upd (s : State) (g : Journal → Journal) : (s.setJrn g).upd = s.upd := rfl
@[simp] theorem State.setJrn_sec (s : State) (g : Journal → Journal) : (s.setJrn g).sec = s.sec := rfl
@[simp] theorem State.setJrn_evr (s : State) (g : Journal → Journal) : (s.setJrn g).evr = s.evr := rfl
@[simp] theorem State.setJrn_freeCtr (s : State) (g : Journal → Journal) : (s.setJrn g).freeCtr = s.freeCtr := rfl
@[simp] theorem State.setJrn_pending (s : State) (g : Journal → Journal) : (s.setJrn g).pending = s.pending := rfl
-- State.setFlash
@[simp] theorem State.setFlash_part (s : State) (g : Flash → Flash) : (s.setFlash g).part = s.part := rfl
@[simp] theorem State.setFlash_ident (s : State) (g : Flash → Flash) : (s.setFlash g).ident = s.ident := rfl
@[simp] theorem State.setFlash_stored (s : State) (g : Flash → Flash) : (s.setFlash g).stored = s.stored := rfl
@[simp] theorem State.setFlash_life (s : State) (g : Flash → Flash) : (s.setFlash g).life = s.life := rfl
@[simp] theorem State.setFlash_sb (s : State) (g : Flash → Flash) : (s.setFlash g).sb = s.sb := rfl
@[simp] theorem State.setFlash_mbx (s : State) (g : Flash → Flash) : (s.setFlash g).mbx = s.mbx := rfl
@[simp] theorem State.setFlash_tr (s : State) (g : Flash → Flash) : (s.setFlash g).tr = s.tr := rfl
@[simp] theorem State.setFlash_cmds (s : State) (g : Flash → Flash) : (s.setFlash g).cmds = s.cmds := rfl
@[simp] theorem State.setFlash_kv (s : State) (g : Flash → Flash) : (s.setFlash g).kv = s.kv := rfl
@[simp] theorem State.setFlash_land (s : State) (g : Flash → Flash) : (s.setFlash g).land = s.land := rfl
@[simp] theorem State.setFlash_prism (s : State) (g : Flash → Flash) : (s.setFlash g).prism = s.prism := rfl
@[simp] theorem State.setFlash_jrn (s : State) (g : Flash → Flash) : (s.setFlash g).jrn = s.jrn := rfl
@[simp] theorem State.setFlash_flash (s : State) (g : Flash → Flash) : (s.setFlash g).flash = g s.flash := rfl
@[simp] theorem State.setFlash_dram (s : State) (g : Flash → Flash) : (s.setFlash g).dram = s.dram := rfl
@[simp] theorem State.setFlash_dma (s : State) (g : Flash → Flash) : (s.setFlash g).dma = s.dma := rfl
@[simp] theorem State.setFlash_mover (s : State) (g : Flash → Flash) : (s.setFlash g).mover = s.mover := rfl
@[simp] theorem State.setFlash_pwr (s : State) (g : Flash → Flash) : (s.setFlash g).pwr = s.pwr := rfl
@[simp] theorem State.setFlash_hold (s : State) (g : Flash → Flash) : (s.setFlash g).hold = s.hold := rfl
@[simp] theorem State.setFlash_thm (s : State) (g : Flash → Flash) : (s.setFlash g).thm = s.thm := rfl
@[simp] theorem State.setFlash_mir (s : State) (g : Flash → Flash) : (s.setFlash g).mir = s.mir := rfl
@[simp] theorem State.setFlash_ports (s : State) (g : Flash → Flash) : (s.setFlash g).ports = s.ports := rfl
@[simp] theorem State.setFlash_ptp (s : State) (g : Flash → Flash) : (s.setFlash g).ptp = s.ptp := rfl
@[simp] theorem State.setFlash_upd (s : State) (g : Flash → Flash) : (s.setFlash g).upd = s.upd := rfl
@[simp] theorem State.setFlash_sec (s : State) (g : Flash → Flash) : (s.setFlash g).sec = s.sec := rfl
@[simp] theorem State.setFlash_evr (s : State) (g : Flash → Flash) : (s.setFlash g).evr = s.evr := rfl
@[simp] theorem State.setFlash_freeCtr (s : State) (g : Flash → Flash) : (s.setFlash g).freeCtr = s.freeCtr := rfl
@[simp] theorem State.setFlash_pending (s : State) (g : Flash → Flash) : (s.setFlash g).pending = s.pending := rfl
-- State.setDram
@[simp] theorem State.setDram_part (s : State) (g : Dram → Dram) : (s.setDram g).part = s.part := rfl
@[simp] theorem State.setDram_ident (s : State) (g : Dram → Dram) : (s.setDram g).ident = s.ident := rfl
@[simp] theorem State.setDram_stored (s : State) (g : Dram → Dram) : (s.setDram g).stored = s.stored := rfl
@[simp] theorem State.setDram_life (s : State) (g : Dram → Dram) : (s.setDram g).life = s.life := rfl
@[simp] theorem State.setDram_sb (s : State) (g : Dram → Dram) : (s.setDram g).sb = s.sb := rfl
@[simp] theorem State.setDram_mbx (s : State) (g : Dram → Dram) : (s.setDram g).mbx = s.mbx := rfl
@[simp] theorem State.setDram_tr (s : State) (g : Dram → Dram) : (s.setDram g).tr = s.tr := rfl
@[simp] theorem State.setDram_cmds (s : State) (g : Dram → Dram) : (s.setDram g).cmds = s.cmds := rfl
@[simp] theorem State.setDram_kv (s : State) (g : Dram → Dram) : (s.setDram g).kv = s.kv := rfl
@[simp] theorem State.setDram_land (s : State) (g : Dram → Dram) : (s.setDram g).land = s.land := rfl
@[simp] theorem State.setDram_prism (s : State) (g : Dram → Dram) : (s.setDram g).prism = s.prism := rfl
@[simp] theorem State.setDram_jrn (s : State) (g : Dram → Dram) : (s.setDram g).jrn = s.jrn := rfl
@[simp] theorem State.setDram_flash (s : State) (g : Dram → Dram) : (s.setDram g).flash = s.flash := rfl
@[simp] theorem State.setDram_dram (s : State) (g : Dram → Dram) : (s.setDram g).dram = g s.dram := rfl
@[simp] theorem State.setDram_dma (s : State) (g : Dram → Dram) : (s.setDram g).dma = s.dma := rfl
@[simp] theorem State.setDram_mover (s : State) (g : Dram → Dram) : (s.setDram g).mover = s.mover := rfl
@[simp] theorem State.setDram_pwr (s : State) (g : Dram → Dram) : (s.setDram g).pwr = s.pwr := rfl
@[simp] theorem State.setDram_hold (s : State) (g : Dram → Dram) : (s.setDram g).hold = s.hold := rfl
@[simp] theorem State.setDram_thm (s : State) (g : Dram → Dram) : (s.setDram g).thm = s.thm := rfl
@[simp] theorem State.setDram_mir (s : State) (g : Dram → Dram) : (s.setDram g).mir = s.mir := rfl
@[simp] theorem State.setDram_ports (s : State) (g : Dram → Dram) : (s.setDram g).ports = s.ports := rfl
@[simp] theorem State.setDram_ptp (s : State) (g : Dram → Dram) : (s.setDram g).ptp = s.ptp := rfl
@[simp] theorem State.setDram_upd (s : State) (g : Dram → Dram) : (s.setDram g).upd = s.upd := rfl
@[simp] theorem State.setDram_sec (s : State) (g : Dram → Dram) : (s.setDram g).sec = s.sec := rfl
@[simp] theorem State.setDram_evr (s : State) (g : Dram → Dram) : (s.setDram g).evr = s.evr := rfl
@[simp] theorem State.setDram_freeCtr (s : State) (g : Dram → Dram) : (s.setDram g).freeCtr = s.freeCtr := rfl
@[simp] theorem State.setDram_pending (s : State) (g : Dram → Dram) : (s.setDram g).pending = s.pending := rfl
-- State.setTr
@[simp] theorem State.setTr_part (s : State) (g : Transport → Transport) : (s.setTr g).part = s.part := rfl
@[simp] theorem State.setTr_ident (s : State) (g : Transport → Transport) : (s.setTr g).ident = s.ident := rfl
@[simp] theorem State.setTr_stored (s : State) (g : Transport → Transport) : (s.setTr g).stored = s.stored := rfl
@[simp] theorem State.setTr_life (s : State) (g : Transport → Transport) : (s.setTr g).life = s.life := rfl
@[simp] theorem State.setTr_sb (s : State) (g : Transport → Transport) : (s.setTr g).sb = s.sb := rfl
@[simp] theorem State.setTr_mbx (s : State) (g : Transport → Transport) : (s.setTr g).mbx = s.mbx := rfl
@[simp] theorem State.setTr_tr (s : State) (g : Transport → Transport) : (s.setTr g).tr = g s.tr := rfl
@[simp] theorem State.setTr_cmds (s : State) (g : Transport → Transport) : (s.setTr g).cmds = s.cmds := rfl
@[simp] theorem State.setTr_kv (s : State) (g : Transport → Transport) : (s.setTr g).kv = s.kv := rfl
@[simp] theorem State.setTr_land (s : State) (g : Transport → Transport) : (s.setTr g).land = s.land := rfl
@[simp] theorem State.setTr_prism (s : State) (g : Transport → Transport) : (s.setTr g).prism = s.prism := rfl
@[simp] theorem State.setTr_jrn (s : State) (g : Transport → Transport) : (s.setTr g).jrn = s.jrn := rfl
@[simp] theorem State.setTr_flash (s : State) (g : Transport → Transport) : (s.setTr g).flash = s.flash := rfl
@[simp] theorem State.setTr_dram (s : State) (g : Transport → Transport) : (s.setTr g).dram = s.dram := rfl
@[simp] theorem State.setTr_dma (s : State) (g : Transport → Transport) : (s.setTr g).dma = s.dma := rfl
@[simp] theorem State.setTr_mover (s : State) (g : Transport → Transport) : (s.setTr g).mover = s.mover := rfl
@[simp] theorem State.setTr_pwr (s : State) (g : Transport → Transport) : (s.setTr g).pwr = s.pwr := rfl
@[simp] theorem State.setTr_hold (s : State) (g : Transport → Transport) : (s.setTr g).hold = s.hold := rfl
@[simp] theorem State.setTr_thm (s : State) (g : Transport → Transport) : (s.setTr g).thm = s.thm := rfl
@[simp] theorem State.setTr_mir (s : State) (g : Transport → Transport) : (s.setTr g).mir = s.mir := rfl
@[simp] theorem State.setTr_ports (s : State) (g : Transport → Transport) : (s.setTr g).ports = s.ports := rfl
@[simp] theorem State.setTr_ptp (s : State) (g : Transport → Transport) : (s.setTr g).ptp = s.ptp := rfl
@[simp] theorem State.setTr_upd (s : State) (g : Transport → Transport) : (s.setTr g).upd = s.upd := rfl
@[simp] theorem State.setTr_sec (s : State) (g : Transport → Transport) : (s.setTr g).sec = s.sec := rfl
@[simp] theorem State.setTr_evr (s : State) (g : Transport → Transport) : (s.setTr g).evr = s.evr := rfl
@[simp] theorem State.setTr_freeCtr (s : State) (g : Transport → Transport) : (s.setTr g).freeCtr = s.freeCtr := rfl
@[simp] theorem State.setTr_pending (s : State) (g : Transport → Transport) : (s.setTr g).pending = s.pending := rfl
-- State.setMbx
@[simp] theorem State.setMbx_part (s : State) (g : Mailbox → Mailbox) : (s.setMbx g).part = s.part := rfl
@[simp] theorem State.setMbx_ident (s : State) (g : Mailbox → Mailbox) : (s.setMbx g).ident = s.ident := rfl
@[simp] theorem State.setMbx_stored (s : State) (g : Mailbox → Mailbox) : (s.setMbx g).stored = s.stored := rfl
@[simp] theorem State.setMbx_life (s : State) (g : Mailbox → Mailbox) : (s.setMbx g).life = s.life := rfl
@[simp] theorem State.setMbx_sb (s : State) (g : Mailbox → Mailbox) : (s.setMbx g).sb = s.sb := rfl
@[simp] theorem State.setMbx_mbx (s : State) (g : Mailbox → Mailbox) : (s.setMbx g).mbx = g s.mbx := rfl
@[simp] theorem State.setMbx_tr (s : State) (g : Mailbox → Mailbox) : (s.setMbx g).tr = s.tr := rfl
@[simp] theorem State.setMbx_cmds (s : State) (g : Mailbox → Mailbox) : (s.setMbx g).cmds = s.cmds := rfl
@[simp] theorem State.setMbx_kv (s : State) (g : Mailbox → Mailbox) : (s.setMbx g).kv = s.kv := rfl
@[simp] theorem State.setMbx_land (s : State) (g : Mailbox → Mailbox) : (s.setMbx g).land = s.land := rfl
@[simp] theorem State.setMbx_prism (s : State) (g : Mailbox → Mailbox) : (s.setMbx g).prism = s.prism := rfl
@[simp] theorem State.setMbx_jrn (s : State) (g : Mailbox → Mailbox) : (s.setMbx g).jrn = s.jrn := rfl
@[simp] theorem State.setMbx_flash (s : State) (g : Mailbox → Mailbox) : (s.setMbx g).flash = s.flash := rfl
@[simp] theorem State.setMbx_dram (s : State) (g : Mailbox → Mailbox) : (s.setMbx g).dram = s.dram := rfl
@[simp] theorem State.setMbx_dma (s : State) (g : Mailbox → Mailbox) : (s.setMbx g).dma = s.dma := rfl
@[simp] theorem State.setMbx_mover (s : State) (g : Mailbox → Mailbox) : (s.setMbx g).mover = s.mover := rfl
@[simp] theorem State.setMbx_pwr (s : State) (g : Mailbox → Mailbox) : (s.setMbx g).pwr = s.pwr := rfl
@[simp] theorem State.setMbx_hold (s : State) (g : Mailbox → Mailbox) : (s.setMbx g).hold = s.hold := rfl
@[simp] theorem State.setMbx_thm (s : State) (g : Mailbox → Mailbox) : (s.setMbx g).thm = s.thm := rfl
@[simp] theorem State.setMbx_mir (s : State) (g : Mailbox → Mailbox) : (s.setMbx g).mir = s.mir := rfl
@[simp] theorem State.setMbx_ports (s : State) (g : Mailbox → Mailbox) : (s.setMbx g).ports = s.ports := rfl
@[simp] theorem State.setMbx_ptp (s : State) (g : Mailbox → Mailbox) : (s.setMbx g).ptp = s.ptp := rfl
@[simp] theorem State.setMbx_upd (s : State) (g : Mailbox → Mailbox) : (s.setMbx g).upd = s.upd := rfl
@[simp] theorem State.setMbx_sec (s : State) (g : Mailbox → Mailbox) : (s.setMbx g).sec = s.sec := rfl
@[simp] theorem State.setMbx_evr (s : State) (g : Mailbox → Mailbox) : (s.setMbx g).evr = s.evr := rfl
@[simp] theorem State.setMbx_freeCtr (s : State) (g : Mailbox → Mailbox) : (s.setMbx g).freeCtr = s.freeCtr := rfl
@[simp] theorem State.setMbx_pending (s : State) (g : Mailbox → Mailbox) : (s.setMbx g).pending = s.pending := rfl
-- State.setMir
@[simp] theorem State.setMir_part (s : State) (g : Mirror → Mirror) : (s.setMir g).part = s.part := rfl
@[simp] theorem State.setMir_ident (s : State) (g : Mirror → Mirror) : (s.setMir g).ident = s.ident := rfl
@[simp] theorem State.setMir_stored (s : State) (g : Mirror → Mirror) : (s.setMir g).stored = s.stored := rfl
@[simp] theorem State.setMir_life (s : State) (g : Mirror → Mirror) : (s.setMir g).life = s.life := rfl
@[simp] theorem State.setMir_sb (s : State) (g : Mirror → Mirror) : (s.setMir g).sb = s.sb := rfl
@[simp] theorem State.setMir_mbx (s : State) (g : Mirror → Mirror) : (s.setMir g).mbx = s.mbx := rfl
@[simp] theorem State.setMir_tr (s : State) (g : Mirror → Mirror) : (s.setMir g).tr = s.tr := rfl
@[simp] theorem State.setMir_cmds (s : State) (g : Mirror → Mirror) : (s.setMir g).cmds = s.cmds := rfl
@[simp] theorem State.setMir_kv (s : State) (g : Mirror → Mirror) : (s.setMir g).kv = s.kv := rfl
@[simp] theorem State.setMir_land (s : State) (g : Mirror → Mirror) : (s.setMir g).land = s.land := rfl
@[simp] theorem State.setMir_prism (s : State) (g : Mirror → Mirror) : (s.setMir g).prism = s.prism := rfl
@[simp] theorem State.setMir_jrn (s : State) (g : Mirror → Mirror) : (s.setMir g).jrn = s.jrn := rfl
@[simp] theorem State.setMir_flash (s : State) (g : Mirror → Mirror) : (s.setMir g).flash = s.flash := rfl
@[simp] theorem State.setMir_dram (s : State) (g : Mirror → Mirror) : (s.setMir g).dram = s.dram := rfl
@[simp] theorem State.setMir_dma (s : State) (g : Mirror → Mirror) : (s.setMir g).dma = s.dma := rfl
@[simp] theorem State.setMir_mover (s : State) (g : Mirror → Mirror) : (s.setMir g).mover = s.mover := rfl
@[simp] theorem State.setMir_pwr (s : State) (g : Mirror → Mirror) : (s.setMir g).pwr = s.pwr := rfl
@[simp] theorem State.setMir_hold (s : State) (g : Mirror → Mirror) : (s.setMir g).hold = s.hold := rfl
@[simp] theorem State.setMir_thm (s : State) (g : Mirror → Mirror) : (s.setMir g).thm = s.thm := rfl
@[simp] theorem State.setMir_mir (s : State) (g : Mirror → Mirror) : (s.setMir g).mir = g s.mir := rfl
@[simp] theorem State.setMir_ports (s : State) (g : Mirror → Mirror) : (s.setMir g).ports = s.ports := rfl
@[simp] theorem State.setMir_ptp (s : State) (g : Mirror → Mirror) : (s.setMir g).ptp = s.ptp := rfl
@[simp] theorem State.setMir_upd (s : State) (g : Mirror → Mirror) : (s.setMir g).upd = s.upd := rfl
@[simp] theorem State.setMir_sec (s : State) (g : Mirror → Mirror) : (s.setMir g).sec = s.sec := rfl
@[simp] theorem State.setMir_evr (s : State) (g : Mirror → Mirror) : (s.setMir g).evr = s.evr := rfl
@[simp] theorem State.setMir_freeCtr (s : State) (g : Mirror → Mirror) : (s.setMir g).freeCtr = s.freeCtr := rfl
@[simp] theorem State.setMir_pending (s : State) (g : Mirror → Mirror) : (s.setMir g).pending = s.pending := rfl
-- State.setPtp
@[simp] theorem State.setPtp_part (s : State) (g : Ptp → Ptp) : (s.setPtp g).part = s.part := rfl
@[simp] theorem State.setPtp_ident (s : State) (g : Ptp → Ptp) : (s.setPtp g).ident = s.ident := rfl
@[simp] theorem State.setPtp_stored (s : State) (g : Ptp → Ptp) : (s.setPtp g).stored = s.stored := rfl
@[simp] theorem State.setPtp_life (s : State) (g : Ptp → Ptp) : (s.setPtp g).life = s.life := rfl
@[simp] theorem State.setPtp_sb (s : State) (g : Ptp → Ptp) : (s.setPtp g).sb = s.sb := rfl
@[simp] theorem State.setPtp_mbx (s : State) (g : Ptp → Ptp) : (s.setPtp g).mbx = s.mbx := rfl
@[simp] theorem State.setPtp_tr (s : State) (g : Ptp → Ptp) : (s.setPtp g).tr = s.tr := rfl
@[simp] theorem State.setPtp_cmds (s : State) (g : Ptp → Ptp) : (s.setPtp g).cmds = s.cmds := rfl
@[simp] theorem State.setPtp_kv (s : State) (g : Ptp → Ptp) : (s.setPtp g).kv = s.kv := rfl
@[simp] theorem State.setPtp_land (s : State) (g : Ptp → Ptp) : (s.setPtp g).land = s.land := rfl
@[simp] theorem State.setPtp_prism (s : State) (g : Ptp → Ptp) : (s.setPtp g).prism = s.prism := rfl
@[simp] theorem State.setPtp_jrn (s : State) (g : Ptp → Ptp) : (s.setPtp g).jrn = s.jrn := rfl
@[simp] theorem State.setPtp_flash (s : State) (g : Ptp → Ptp) : (s.setPtp g).flash = s.flash := rfl
@[simp] theorem State.setPtp_dram (s : State) (g : Ptp → Ptp) : (s.setPtp g).dram = s.dram := rfl
@[simp] theorem State.setPtp_dma (s : State) (g : Ptp → Ptp) : (s.setPtp g).dma = s.dma := rfl
@[simp] theorem State.setPtp_mover (s : State) (g : Ptp → Ptp) : (s.setPtp g).mover = s.mover := rfl
@[simp] theorem State.setPtp_pwr (s : State) (g : Ptp → Ptp) : (s.setPtp g).pwr = s.pwr := rfl
@[simp] theorem State.setPtp_hold (s : State) (g : Ptp → Ptp) : (s.setPtp g).hold = s.hold := rfl
@[simp] theorem State.setPtp_thm (s : State) (g : Ptp → Ptp) : (s.setPtp g).thm = s.thm := rfl
@[simp] theorem State.setPtp_mir (s : State) (g : Ptp → Ptp) : (s.setPtp g).mir = s.mir := rfl
@[simp] theorem State.setPtp_ports (s : State) (g : Ptp → Ptp) : (s.setPtp g).ports = s.ports := rfl
@[simp] theorem State.setPtp_ptp (s : State) (g : Ptp → Ptp) : (s.setPtp g).ptp = g s.ptp := rfl
@[simp] theorem State.setPtp_upd (s : State) (g : Ptp → Ptp) : (s.setPtp g).upd = s.upd := rfl
@[simp] theorem State.setPtp_sec (s : State) (g : Ptp → Ptp) : (s.setPtp g).sec = s.sec := rfl
@[simp] theorem State.setPtp_evr (s : State) (g : Ptp → Ptp) : (s.setPtp g).evr = s.evr := rfl
@[simp] theorem State.setPtp_freeCtr (s : State) (g : Ptp → Ptp) : (s.setPtp g).freeCtr = s.freeCtr := rfl
@[simp] theorem State.setPtp_pending (s : State) (g : Ptp → Ptp) : (s.setPtp g).pending = s.pending := rfl
-- State.setUpd
@[simp] theorem State.setUpd_part (s : State) (g : Update → Update) : (s.setUpd g).part = s.part := rfl
@[simp] theorem State.setUpd_ident (s : State) (g : Update → Update) : (s.setUpd g).ident = s.ident := rfl
@[simp] theorem State.setUpd_stored (s : State) (g : Update → Update) : (s.setUpd g).stored = s.stored := rfl
@[simp] theorem State.setUpd_life (s : State) (g : Update → Update) : (s.setUpd g).life = s.life := rfl
@[simp] theorem State.setUpd_sb (s : State) (g : Update → Update) : (s.setUpd g).sb = s.sb := rfl
@[simp] theorem State.setUpd_mbx (s : State) (g : Update → Update) : (s.setUpd g).mbx = s.mbx := rfl
@[simp] theorem State.setUpd_tr (s : State) (g : Update → Update) : (s.setUpd g).tr = s.tr := rfl
@[simp] theorem State.setUpd_cmds (s : State) (g : Update → Update) : (s.setUpd g).cmds = s.cmds := rfl
@[simp] theorem State.setUpd_kv (s : State) (g : Update → Update) : (s.setUpd g).kv = s.kv := rfl
@[simp] theorem State.setUpd_land (s : State) (g : Update → Update) : (s.setUpd g).land = s.land := rfl
@[simp] theorem State.setUpd_prism (s : State) (g : Update → Update) : (s.setUpd g).prism = s.prism := rfl
@[simp] theorem State.setUpd_jrn (s : State) (g : Update → Update) : (s.setUpd g).jrn = s.jrn := rfl
@[simp] theorem State.setUpd_flash (s : State) (g : Update → Update) : (s.setUpd g).flash = s.flash := rfl
@[simp] theorem State.setUpd_dram (s : State) (g : Update → Update) : (s.setUpd g).dram = s.dram := rfl
@[simp] theorem State.setUpd_dma (s : State) (g : Update → Update) : (s.setUpd g).dma = s.dma := rfl
@[simp] theorem State.setUpd_mover (s : State) (g : Update → Update) : (s.setUpd g).mover = s.mover := rfl
@[simp] theorem State.setUpd_pwr (s : State) (g : Update → Update) : (s.setUpd g).pwr = s.pwr := rfl
@[simp] theorem State.setUpd_hold (s : State) (g : Update → Update) : (s.setUpd g).hold = s.hold := rfl
@[simp] theorem State.setUpd_thm (s : State) (g : Update → Update) : (s.setUpd g).thm = s.thm := rfl
@[simp] theorem State.setUpd_mir (s : State) (g : Update → Update) : (s.setUpd g).mir = s.mir := rfl
@[simp] theorem State.setUpd_ports (s : State) (g : Update → Update) : (s.setUpd g).ports = s.ports := rfl
@[simp] theorem State.setUpd_ptp (s : State) (g : Update → Update) : (s.setUpd g).ptp = s.ptp := rfl
@[simp] theorem State.setUpd_upd (s : State) (g : Update → Update) : (s.setUpd g).upd = g s.upd := rfl
@[simp] theorem State.setUpd_sec (s : State) (g : Update → Update) : (s.setUpd g).sec = s.sec := rfl
@[simp] theorem State.setUpd_evr (s : State) (g : Update → Update) : (s.setUpd g).evr = s.evr := rfl
@[simp] theorem State.setUpd_freeCtr (s : State) (g : Update → Update) : (s.setUpd g).freeCtr = s.freeCtr := rfl
@[simp] theorem State.setUpd_pending (s : State) (g : Update → Update) : (s.setUpd g).pending = s.pending := rfl
-- State.setSec
@[simp] theorem State.setSec_part (s : State) (g : Security → Security) : (s.setSec g).part = s.part := rfl
@[simp] theorem State.setSec_ident (s : State) (g : Security → Security) : (s.setSec g).ident = s.ident := rfl
@[simp] theorem State.setSec_stored (s : State) (g : Security → Security) : (s.setSec g).stored = s.stored := rfl
@[simp] theorem State.setSec_life (s : State) (g : Security → Security) : (s.setSec g).life = s.life := rfl
@[simp] theorem State.setSec_sb (s : State) (g : Security → Security) : (s.setSec g).sb = s.sb := rfl
@[simp] theorem State.setSec_mbx (s : State) (g : Security → Security) : (s.setSec g).mbx = s.mbx := rfl
@[simp] theorem State.setSec_tr (s : State) (g : Security → Security) : (s.setSec g).tr = s.tr := rfl
@[simp] theorem State.setSec_cmds (s : State) (g : Security → Security) : (s.setSec g).cmds = s.cmds := rfl
@[simp] theorem State.setSec_kv (s : State) (g : Security → Security) : (s.setSec g).kv = s.kv := rfl
@[simp] theorem State.setSec_land (s : State) (g : Security → Security) : (s.setSec g).land = s.land := rfl
@[simp] theorem State.setSec_prism (s : State) (g : Security → Security) : (s.setSec g).prism = s.prism := rfl
@[simp] theorem State.setSec_jrn (s : State) (g : Security → Security) : (s.setSec g).jrn = s.jrn := rfl
@[simp] theorem State.setSec_flash (s : State) (g : Security → Security) : (s.setSec g).flash = s.flash := rfl
@[simp] theorem State.setSec_dram (s : State) (g : Security → Security) : (s.setSec g).dram = s.dram := rfl
@[simp] theorem State.setSec_dma (s : State) (g : Security → Security) : (s.setSec g).dma = s.dma := rfl
@[simp] theorem State.setSec_mover (s : State) (g : Security → Security) : (s.setSec g).mover = s.mover := rfl
@[simp] theorem State.setSec_pwr (s : State) (g : Security → Security) : (s.setSec g).pwr = s.pwr := rfl
@[simp] theorem State.setSec_hold (s : State) (g : Security → Security) : (s.setSec g).hold = s.hold := rfl
@[simp] theorem State.setSec_thm (s : State) (g : Security → Security) : (s.setSec g).thm = s.thm := rfl
@[simp] theorem State.setSec_mir (s : State) (g : Security → Security) : (s.setSec g).mir = s.mir := rfl
@[simp] theorem State.setSec_ports (s : State) (g : Security → Security) : (s.setSec g).ports = s.ports := rfl
@[simp] theorem State.setSec_ptp (s : State) (g : Security → Security) : (s.setSec g).ptp = s.ptp := rfl
@[simp] theorem State.setSec_upd (s : State) (g : Security → Security) : (s.setSec g).upd = s.upd := rfl
@[simp] theorem State.setSec_sec (s : State) (g : Security → Security) : (s.setSec g).sec = g s.sec := rfl
@[simp] theorem State.setSec_evr (s : State) (g : Security → Security) : (s.setSec g).evr = s.evr := rfl
@[simp] theorem State.setSec_freeCtr (s : State) (g : Security → Security) : (s.setSec g).freeCtr = s.freeCtr := rfl
@[simp] theorem State.setSec_pending (s : State) (g : Security → Security) : (s.setSec g).pending = s.pending := rfl
-- State.setLife
@[simp] theorem State.setLife_part (s : State) (g : Life → Life) : (s.setLife g).part = s.part := rfl
@[simp] theorem State.setLife_ident (s : State) (g : Life → Life) : (s.setLife g).ident = s.ident := rfl
@[simp] theorem State.setLife_stored (s : State) (g : Life → Life) : (s.setLife g).stored = s.stored := rfl
@[simp] theorem State.setLife_life (s : State) (g : Life → Life) : (s.setLife g).life = g s.life := rfl
@[simp] theorem State.setLife_sb (s : State) (g : Life → Life) : (s.setLife g).sb = s.sb := rfl
@[simp] theorem State.setLife_mbx (s : State) (g : Life → Life) : (s.setLife g).mbx = s.mbx := rfl
@[simp] theorem State.setLife_tr (s : State) (g : Life → Life) : (s.setLife g).tr = s.tr := rfl
@[simp] theorem State.setLife_cmds (s : State) (g : Life → Life) : (s.setLife g).cmds = s.cmds := rfl
@[simp] theorem State.setLife_kv (s : State) (g : Life → Life) : (s.setLife g).kv = s.kv := rfl
@[simp] theorem State.setLife_land (s : State) (g : Life → Life) : (s.setLife g).land = s.land := rfl
@[simp] theorem State.setLife_prism (s : State) (g : Life → Life) : (s.setLife g).prism = s.prism := rfl
@[simp] theorem State.setLife_jrn (s : State) (g : Life → Life) : (s.setLife g).jrn = s.jrn := rfl
@[simp] theorem State.setLife_flash (s : State) (g : Life → Life) : (s.setLife g).flash = s.flash := rfl
@[simp] theorem State.setLife_dram (s : State) (g : Life → Life) : (s.setLife g).dram = s.dram := rfl
@[simp] theorem State.setLife_dma (s : State) (g : Life → Life) : (s.setLife g).dma = s.dma := rfl
@[simp] theorem State.setLife_mover (s : State) (g : Life → Life) : (s.setLife g).mover = s.mover := rfl
@[simp] theorem State.setLife_pwr (s : State) (g : Life → Life) : (s.setLife g).pwr = s.pwr := rfl
@[simp] theorem State.setLife_hold (s : State) (g : Life → Life) : (s.setLife g).hold = s.hold := rfl
@[simp] theorem State.setLife_thm (s : State) (g : Life → Life) : (s.setLife g).thm = s.thm := rfl
@[simp] theorem State.setLife_mir (s : State) (g : Life → Life) : (s.setLife g).mir = s.mir := rfl
@[simp] theorem State.setLife_ports (s : State) (g : Life → Life) : (s.setLife g).ports = s.ports := rfl
@[simp] theorem State.setLife_ptp (s : State) (g : Life → Life) : (s.setLife g).ptp = s.ptp := rfl
@[simp] theorem State.setLife_upd (s : State) (g : Life → Life) : (s.setLife g).upd = s.upd := rfl
@[simp] theorem State.setLife_sec (s : State) (g : Life → Life) : (s.setLife g).sec = s.sec := rfl
@[simp] theorem State.setLife_evr (s : State) (g : Life → Life) : (s.setLife g).evr = s.evr := rfl
@[simp] theorem State.setLife_freeCtr (s : State) (g : Life → Life) : (s.setLife g).freeCtr = s.freeCtr := rfl
@[simp] theorem State.setLife_pending (s : State) (g : Life → Life) : (s.setLife g).pending = s.pending := rfl
-- State.setSb
@[simp] theorem State.setSb_part (s : State) (g : SideBand → SideBand) : (s.setSb g).part = s.part := rfl
@[simp] theorem State.setSb_ident (s : State) (g : SideBand → SideBand) : (s.setSb g).ident = s.ident := rfl
@[simp] theorem State.setSb_stored (s : State) (g : SideBand → SideBand) : (s.setSb g).stored = s.stored := rfl
@[simp] theorem State.setSb_life (s : State) (g : SideBand → SideBand) : (s.setSb g).life = s.life := rfl
@[simp] theorem State.setSb_sb (s : State) (g : SideBand → SideBand) : (s.setSb g).sb = g s.sb := rfl
@[simp] theorem State.setSb_mbx (s : State) (g : SideBand → SideBand) : (s.setSb g).mbx = s.mbx := rfl
@[simp] theorem State.setSb_tr (s : State) (g : SideBand → SideBand) : (s.setSb g).tr = s.tr := rfl
@[simp] theorem State.setSb_cmds (s : State) (g : SideBand → SideBand) : (s.setSb g).cmds = s.cmds := rfl
@[simp] theorem State.setSb_kv (s : State) (g : SideBand → SideBand) : (s.setSb g).kv = s.kv := rfl
@[simp] theorem State.setSb_land (s : State) (g : SideBand → SideBand) : (s.setSb g).land = s.land := rfl
@[simp] theorem State.setSb_prism (s : State) (g : SideBand → SideBand) : (s.setSb g).prism = s.prism := rfl
@[simp] theorem State.setSb_jrn (s : State) (g : SideBand → SideBand) : (s.setSb g).jrn = s.jrn := rfl
@[simp] theorem State.setSb_flash (s : State) (g : SideBand → SideBand) : (s.setSb g).flash = s.flash := rfl
@[simp] theorem State.setSb_dram (s : State) (g : SideBand → SideBand) : (s.setSb g).dram = s.dram := rfl
@[simp] theorem State.setSb_dma (s : State) (g : SideBand → SideBand) : (s.setSb g).dma = s.dma := rfl
@[simp] theorem State.setSb_mover (s : State) (g : SideBand → SideBand) : (s.setSb g).mover = s.mover := rfl
@[simp] theorem State.setSb_pwr (s : State) (g : SideBand → SideBand) : (s.setSb g).pwr = s.pwr := rfl
@[simp] theorem State.setSb_hold (s : State) (g : SideBand → SideBand) : (s.setSb g).hold = s.hold := rfl
@[simp] theorem State.setSb_thm (s : State) (g : SideBand → SideBand) : (s.setSb g).thm = s.thm := rfl
@[simp] theorem State.setSb_mir (s : State) (g : SideBand → SideBand) : (s.setSb g).mir = s.mir := rfl
@[simp] theorem State.setSb_ports (s : State) (g : SideBand → SideBand) : (s.setSb g).ports = s.ports := rfl
@[simp] theorem State.setSb_ptp (s : State) (g : SideBand → SideBand) : (s.setSb g).ptp = s.ptp := rfl
@[simp] theorem State.setSb_upd (s : State) (g : SideBand → SideBand) : (s.setSb g).upd = s.upd := rfl
@[simp] theorem State.setSb_sec (s : State) (g : SideBand → SideBand) : (s.setSb g).sec = s.sec := rfl
@[simp] theorem State.setSb_evr (s : State) (g : SideBand → SideBand) : (s.setSb g).evr = s.evr := rfl
@[simp] theorem State.setSb_freeCtr (s : State) (g : SideBand → SideBand) : (s.setSb g).freeCtr = s.freeCtr := rfl
@[simp] theorem State.setSb_pending (s : State) (g : SideBand → SideBand) : (s.setSb g).pending = s.pending := rfl
-- State.setStored
@[simp] theorem State.setStored_part (s : State) (g : Stored → Stored) : (s.setStored g).part = s.part := rfl
@[simp] theorem State.setStored_ident (s : State) (g : Stored → Stored) : (s.setStored g).ident = s.ident := rfl
@[simp] theorem State.setStored_stored (s : State) (g : Stored → Stored) : (s.setStored g).stored = g s.stored := rfl
@[simp] theorem State.setStored_life (s : State) (g : Stored → Stored) : (s.setStored g).life = s.life := rfl
@[simp] theorem State.setStored_sb (s : State) (g : Stored → Stored) : (s.setStored g).sb = s.sb := rfl
@[simp] theorem State.setStored_mbx (s : State) (g : Stored → Stored) : (s.setStored g).mbx = s.mbx := rfl
@[simp] theorem State.setStored_tr (s : State) (g : Stored → Stored) : (s.setStored g).tr = s.tr := rfl
@[simp] theorem State.setStored_cmds (s : State) (g : Stored → Stored) : (s.setStored g).cmds = s.cmds := rfl
@[simp] theorem State.setStored_kv (s : State) (g : Stored → Stored) : (s.setStored g).kv = s.kv := rfl
@[simp] theorem State.setStored_land (s : State) (g : Stored → Stored) : (s.setStored g).land = s.land := rfl
@[simp] theorem State.setStored_prism (s : State) (g : Stored → Stored) : (s.setStored g).prism = s.prism := rfl
@[simp] theorem State.setStored_jrn (s : State) (g : Stored → Stored) : (s.setStored g).jrn = s.jrn := rfl
@[simp] theorem State.setStored_flash (s : State) (g : Stored → Stored) : (s.setStored g).flash = s.flash := rfl
@[simp] theorem State.setStored_dram (s : State) (g : Stored → Stored) : (s.setStored g).dram = s.dram := rfl
@[simp] theorem State.setStored_dma (s : State) (g : Stored → Stored) : (s.setStored g).dma = s.dma := rfl
@[simp] theorem State.setStored_mover (s : State) (g : Stored → Stored) : (s.setStored g).mover = s.mover := rfl
@[simp] theorem State.setStored_pwr (s : State) (g : Stored → Stored) : (s.setStored g).pwr = s.pwr := rfl
@[simp] theorem State.setStored_hold (s : State) (g : Stored → Stored) : (s.setStored g).hold = s.hold := rfl
@[simp] theorem State.setStored_thm (s : State) (g : Stored → Stored) : (s.setStored g).thm = s.thm := rfl
@[simp] theorem State.setStored_mir (s : State) (g : Stored → Stored) : (s.setStored g).mir = s.mir := rfl
@[simp] theorem State.setStored_ports (s : State) (g : Stored → Stored) : (s.setStored g).ports = s.ports := rfl
@[simp] theorem State.setStored_ptp (s : State) (g : Stored → Stored) : (s.setStored g).ptp = s.ptp := rfl
@[simp] theorem State.setStored_upd (s : State) (g : Stored → Stored) : (s.setStored g).upd = s.upd := rfl
@[simp] theorem State.setStored_sec (s : State) (g : Stored → Stored) : (s.setStored g).sec = s.sec := rfl
@[simp] theorem State.setStored_evr (s : State) (g : Stored → Stored) : (s.setStored g).evr = s.evr := rfl
@[simp] theorem State.setStored_freeCtr (s : State) (g : Stored → Stored) : (s.setStored g).freeCtr = s.freeCtr := rfl
@[simp] theorem State.setStored_pending (s : State) (g : Stored → Stored) : (s.setStored g).pending = s.pending := rfl
-- State.setDma
@[simp] theorem State.setDma_part (s : State) (g : Dma → Dma) : (s.setDma g).part = s.part := rfl
@[simp] theorem State.setDma_ident (s : State) (g : Dma → Dma) : (s.setDma g).ident = s.ident := rfl
@[simp] theorem State.setDma_stored (s : State) (g : Dma → Dma) : (s.setDma g).stored = s.stored := rfl
@[simp] theorem State.setDma_life (s : State) (g : Dma → Dma) : (s.setDma g).life = s.life := rfl
@[simp] theorem State.setDma_sb (s : State) (g : Dma → Dma) : (s.setDma g).sb = s.sb := rfl
@[simp] theorem State.setDma_mbx (s : State) (g : Dma → Dma) : (s.setDma g).mbx = s.mbx := rfl
@[simp] theorem State.setDma_tr (s : State) (g : Dma → Dma) : (s.setDma g).tr = s.tr := rfl
@[simp] theorem State.setDma_cmds (s : State) (g : Dma → Dma) : (s.setDma g).cmds = s.cmds := rfl
@[simp] theorem State.setDma_kv (s : State) (g : Dma → Dma) : (s.setDma g).kv = s.kv := rfl
@[simp] theorem State.setDma_land (s : State) (g : Dma → Dma) : (s.setDma g).land = s.land := rfl
@[simp] theorem State.setDma_prism (s : State) (g : Dma → Dma) : (s.setDma g).prism = s.prism := rfl
@[simp] theorem State.setDma_jrn (s : State) (g : Dma → Dma) : (s.setDma g).jrn = s.jrn := rfl
@[simp] theorem State.setDma_flash (s : State) (g : Dma → Dma) : (s.setDma g).flash = s.flash := rfl
@[simp] theorem State.setDma_dram (s : State) (g : Dma → Dma) : (s.setDma g).dram = s.dram := rfl
@[simp] theorem State.setDma_dma (s : State) (g : Dma → Dma) : (s.setDma g).dma = g s.dma := rfl
@[simp] theorem State.setDma_mover (s : State) (g : Dma → Dma) : (s.setDma g).mover = s.mover := rfl
@[simp] theorem State.setDma_pwr (s : State) (g : Dma → Dma) : (s.setDma g).pwr = s.pwr := rfl
@[simp] theorem State.setDma_hold (s : State) (g : Dma → Dma) : (s.setDma g).hold = s.hold := rfl
@[simp] theorem State.setDma_thm (s : State) (g : Dma → Dma) : (s.setDma g).thm = s.thm := rfl
@[simp] theorem State.setDma_mir (s : State) (g : Dma → Dma) : (s.setDma g).mir = s.mir := rfl
@[simp] theorem State.setDma_ports (s : State) (g : Dma → Dma) : (s.setDma g).ports = s.ports := rfl
@[simp] theorem State.setDma_ptp (s : State) (g : Dma → Dma) : (s.setDma g).ptp = s.ptp := rfl
@[simp] theorem State.setDma_upd (s : State) (g : Dma → Dma) : (s.setDma g).upd = s.upd := rfl
@[simp] theorem State.setDma_sec (s : State) (g : Dma → Dma) : (s.setDma g).sec = s.sec := rfl
@[simp] theorem State.setDma_evr (s : State) (g : Dma → Dma) : (s.setDma g).evr = s.evr := rfl
@[simp] theorem State.setDma_freeCtr (s : State) (g : Dma → Dma) : (s.setDma g).freeCtr = s.freeCtr := rfl
@[simp] theorem State.setDma_pending (s : State) (g : Dma → Dma) : (s.setDma g).pending = s.pending := rfl
-- State.setMover
@[simp] theorem State.setMover_part (s : State) (g : Mover → Mover) : (s.setMover g).part = s.part := rfl
@[simp] theorem State.setMover_ident (s : State) (g : Mover → Mover) : (s.setMover g).ident = s.ident := rfl
@[simp] theorem State.setMover_stored (s : State) (g : Mover → Mover) : (s.setMover g).stored = s.stored := rfl
@[simp] theorem State.setMover_life (s : State) (g : Mover → Mover) : (s.setMover g).life = s.life := rfl
@[simp] theorem State.setMover_sb (s : State) (g : Mover → Mover) : (s.setMover g).sb = s.sb := rfl
@[simp] theorem State.setMover_mbx (s : State) (g : Mover → Mover) : (s.setMover g).mbx = s.mbx := rfl
@[simp] theorem State.setMover_tr (s : State) (g : Mover → Mover) : (s.setMover g).tr = s.tr := rfl
@[simp] theorem State.setMover_cmds (s : State) (g : Mover → Mover) : (s.setMover g).cmds = s.cmds := rfl
@[simp] theorem State.setMover_kv (s : State) (g : Mover → Mover) : (s.setMover g).kv = s.kv := rfl
@[simp] theorem State.setMover_land (s : State) (g : Mover → Mover) : (s.setMover g).land = s.land := rfl
@[simp] theorem State.setMover_prism (s : State) (g : Mover → Mover) : (s.setMover g).prism = s.prism := rfl
@[simp] theorem State.setMover_jrn (s : State) (g : Mover → Mover) : (s.setMover g).jrn = s.jrn := rfl
@[simp] theorem State.setMover_flash (s : State) (g : Mover → Mover) : (s.setMover g).flash = s.flash := rfl
@[simp] theorem State.setMover_dram (s : State) (g : Mover → Mover) : (s.setMover g).dram = s.dram := rfl
@[simp] theorem State.setMover_dma (s : State) (g : Mover → Mover) : (s.setMover g).dma = s.dma := rfl
@[simp] theorem State.setMover_mover (s : State) (g : Mover → Mover) : (s.setMover g).mover = g s.mover := rfl
@[simp] theorem State.setMover_pwr (s : State) (g : Mover → Mover) : (s.setMover g).pwr = s.pwr := rfl
@[simp] theorem State.setMover_hold (s : State) (g : Mover → Mover) : (s.setMover g).hold = s.hold := rfl
@[simp] theorem State.setMover_thm (s : State) (g : Mover → Mover) : (s.setMover g).thm = s.thm := rfl
@[simp] theorem State.setMover_mir (s : State) (g : Mover → Mover) : (s.setMover g).mir = s.mir := rfl
@[simp] theorem State.setMover_ports (s : State) (g : Mover → Mover) : (s.setMover g).ports = s.ports := rfl
@[simp] theorem State.setMover_ptp (s : State) (g : Mover → Mover) : (s.setMover g).ptp = s.ptp := rfl
@[simp] theorem State.setMover_upd (s : State) (g : Mover → Mover) : (s.setMover g).upd = s.upd := rfl
@[simp] theorem State.setMover_sec (s : State) (g : Mover → Mover) : (s.setMover g).sec = s.sec := rfl
@[simp] theorem State.setMover_evr (s : State) (g : Mover → Mover) : (s.setMover g).evr = s.evr := rfl
@[simp] theorem State.setMover_freeCtr (s : State) (g : Mover → Mover) : (s.setMover g).freeCtr = s.freeCtr := rfl
@[simp] theorem State.setMover_pending (s : State) (g : Mover → Mover) : (s.setMover g).pending = s.pending := rfl
-- State.setCmds
@[simp] theorem State.setCmds_part (s : State) (g : List Cmd → List Cmd) : (s.setCmds g).part = s.part := rfl
@[simp] theorem State.setCmds_ident (s : State) (g : List Cmd → List Cmd) : (s.setCmds g).ident = s.ident := rfl
@[simp] theorem State.setCmds_stored (s : State) (g : List Cmd → List Cmd) : (s.setCmds g).stored = s.stored := rfl
@[simp] theorem State.setCmds_life (s : State) (g : List Cmd → List Cmd) : (s.setCmds g).life = s.life := rfl
@[simp] theorem State.setCmds_sb (s : State) (g : List Cmd → List Cmd) : (s.setCmds g).sb = s.sb := rfl
@[simp] theorem State.setCmds_mbx (s : State) (g : List Cmd → List Cmd) : (s.setCmds g).mbx = s.mbx := rfl
@[simp] theorem State.setCmds_tr (s : State) (g : List Cmd → List Cmd) : (s.setCmds g).tr = s.tr := rfl
@[simp] theorem State.setCmds_cmds (s : State) (g : List Cmd → List Cmd) : (s.setCmds g).cmds = g s.cmds := rfl
@[simp] theorem State.setCmds_kv (s : State) (g : List Cmd → List Cmd) : (s.setCmds g).kv = s.kv := rfl
@[simp] theorem State.setCmds_land (s : State) (g : List Cmd → List Cmd) : (s.setCmds g).land = s.land := rfl
@[simp] theorem State.setCmds_prism (s : State) (g : List Cmd → List Cmd) : (s.setCmds g).prism = s.prism := rfl
@[simp] theorem State.setCmds_jrn (s : State) (g : List Cmd → List Cmd) : (s.setCmds g).jrn = s.jrn := rfl
@[simp] theorem State.setCmds_flash (s : State) (g : List Cmd → List Cmd) : (s.setCmds g).flash = s.flash := rfl
@[simp] theorem State.setCmds_dram (s : State) (g : List Cmd → List Cmd) : (s.setCmds g).dram = s.dram := rfl
@[simp] theorem State.setCmds_dma (s : State) (g : List Cmd → List Cmd) : (s.setCmds g).dma = s.dma := rfl
@[simp] theorem State.setCmds_mover (s : State) (g : List Cmd → List Cmd) : (s.setCmds g).mover = s.mover := rfl
@[simp] theorem State.setCmds_pwr (s : State) (g : List Cmd → List Cmd) : (s.setCmds g).pwr = s.pwr := rfl
@[simp] theorem State.setCmds_hold (s : State) (g : List Cmd → List Cmd) : (s.setCmds g).hold = s.hold := rfl
@[simp] theorem State.setCmds_thm (s : State) (g : List Cmd → List Cmd) : (s.setCmds g).thm = s.thm := rfl
@[simp] theorem State.setCmds_mir (s : State) (g : List Cmd → List Cmd) : (s.setCmds g).mir = s.mir := rfl
@[simp] theorem State.setCmds_ports (s : State) (g : List Cmd → List Cmd) : (s.setCmds g).ports = s.ports := rfl
@[simp] theorem State.setCmds_ptp (s : State) (g : List Cmd → List Cmd) : (s.setCmds g).ptp = s.ptp := rfl
@[simp] theorem State.setCmds_upd (s : State) (g : List Cmd → List Cmd) : (s.setCmds g).upd = s.upd := rfl
@[simp] theorem State.setCmds_sec (s : State) (g : List Cmd → List Cmd) : (s.setCmds g).sec = s.sec := rfl
@[simp] theorem State.setCmds_evr (s : State) (g : List Cmd → List Cmd) : (s.setCmds g).evr = s.evr := rfl
@[simp] theorem State.setCmds_freeCtr (s : State) (g : List Cmd → List Cmd) : (s.setCmds g).freeCtr = s.freeCtr := rfl
@[simp] theorem State.setCmds_pending (s : State) (g : List Cmd → List Cmd) : (s.setCmds g).pending = s.pending := rfl
-- State.setPort
@[simp] theorem State.setPort_part (s : State) (p : Fin 2) (g : Port → Port) : (s.setPort p g).part = s.part := rfl
@[simp] theorem State.setPort_ident (s : State) (p : Fin 2) (g : Port → Port) : (s.setPort p g).ident = s.ident := rfl
@[simp] theorem State.setPort_stored (s : State) (p : Fin 2) (g : Port → Port) : (s.setPort p g).stored = s.stored := rfl
@[simp] theorem State.setPort_life (s : State) (p : Fin 2) (g : Port → Port) : (s.setPort p g).life = s.life := rfl
@[simp] theorem State.setPort_sb (s : State) (p : Fin 2) (g : Port → Port) : (s.setPort p g).sb = s.sb := rfl
@[simp] theorem State.setPort_mbx (s : State) (p : Fin 2) (g : Port → Port) : (s.setPort p g).mbx = s.mbx := rfl
@[simp] theorem State.setPort_tr (s : State) (p : Fin 2) (g : Port → Port) : (s.setPort p g).tr = s.tr := rfl
@[simp] theorem State.setPort_cmds (s : State) (p : Fin 2) (g : Port → Port) : (s.setPort p g).cmds = s.cmds := rfl
@[simp] theorem State.setPort_kv (s : State) (p : Fin 2) (g : Port → Port) : (s.setPort p g).kv = s.kv := rfl
@[simp] theorem State.setPort_land (s : State) (p : Fin 2) (g : Port → Port) : (s.setPort p g).land = s.land := rfl
@[simp] theorem State.setPort_prism (s : State) (p : Fin 2) (g : Port → Port) : (s.setPort p g).prism = s.prism := rfl
@[simp] theorem State.setPort_jrn (s : State) (p : Fin 2) (g : Port → Port) : (s.setPort p g).jrn = s.jrn := rfl
@[simp] theorem State.setPort_flash (s : State) (p : Fin 2) (g : Port → Port) : (s.setPort p g).flash = s.flash := rfl
@[simp] theorem State.setPort_dram (s : State) (p : Fin 2) (g : Port → Port) : (s.setPort p g).dram = s.dram := rfl
@[simp] theorem State.setPort_dma (s : State) (p : Fin 2) (g : Port → Port) : (s.setPort p g).dma = s.dma := rfl
@[simp] theorem State.setPort_mover (s : State) (p : Fin 2) (g : Port → Port) : (s.setPort p g).mover = s.mover := rfl
@[simp] theorem State.setPort_pwr (s : State) (p : Fin 2) (g : Port → Port) : (s.setPort p g).pwr = s.pwr := rfl
@[simp] theorem State.setPort_hold (s : State) (p : Fin 2) (g : Port → Port) : (s.setPort p g).hold = s.hold := rfl
@[simp] theorem State.setPort_thm (s : State) (p : Fin 2) (g : Port → Port) : (s.setPort p g).thm = s.thm := rfl
@[simp] theorem State.setPort_mir (s : State) (p : Fin 2) (g : Port → Port) : (s.setPort p g).mir = s.mir := rfl
@[simp] theorem State.setPort_ports (s : State) (p : Fin 2) (g : Port → Port) : (s.setPort p g).ports = modAt s.ports p.val g := rfl
@[simp] theorem State.setPort_ptp (s : State) (p : Fin 2) (g : Port → Port) : (s.setPort p g).ptp = s.ptp := rfl
@[simp] theorem State.setPort_upd (s : State) (p : Fin 2) (g : Port → Port) : (s.setPort p g).upd = s.upd := rfl
@[simp] theorem State.setPort_sec (s : State) (p : Fin 2) (g : Port → Port) : (s.setPort p g).sec = s.sec := rfl
@[simp] theorem State.setPort_evr (s : State) (p : Fin 2) (g : Port → Port) : (s.setPort p g).evr = s.evr := rfl
@[simp] theorem State.setPort_freeCtr (s : State) (p : Fin 2) (g : Port → Port) : (s.setPort p g).freeCtr = s.freeCtr := rfl
@[simp] theorem State.setPort_pending (s : State) (p : Fin 2) (g : Port → Port) : (s.setPort p g).pending = s.pending := rfl
-- State.setCmd
@[simp] theorem State.setCmd_part (s : State) (n : Nat) (g : Cmd → Cmd) : (s.setCmd n g).part = s.part := rfl
@[simp] theorem State.setCmd_ident (s : State) (n : Nat) (g : Cmd → Cmd) : (s.setCmd n g).ident = s.ident := rfl
@[simp] theorem State.setCmd_stored (s : State) (n : Nat) (g : Cmd → Cmd) : (s.setCmd n g).stored = s.stored := rfl
@[simp] theorem State.setCmd_life (s : State) (n : Nat) (g : Cmd → Cmd) : (s.setCmd n g).life = s.life := rfl
@[simp] theorem State.setCmd_sb (s : State) (n : Nat) (g : Cmd → Cmd) : (s.setCmd n g).sb = s.sb := rfl
@[simp] theorem State.setCmd_mbx (s : State) (n : Nat) (g : Cmd → Cmd) : (s.setCmd n g).mbx = s.mbx := rfl
@[simp] theorem State.setCmd_tr (s : State) (n : Nat) (g : Cmd → Cmd) : (s.setCmd n g).tr = s.tr := rfl
@[simp] theorem State.setCmd_cmds (s : State) (n : Nat) (g : Cmd → Cmd) : (s.setCmd n g).cmds = s.cmds.map (fun c => if c.adm = n then g c else c) := rfl
@[simp] theorem State.setCmd_kv (s : State) (n : Nat) (g : Cmd → Cmd) : (s.setCmd n g).kv = s.kv := rfl
@[simp] theorem State.setCmd_land (s : State) (n : Nat) (g : Cmd → Cmd) : (s.setCmd n g).land = s.land := rfl
@[simp] theorem State.setCmd_prism (s : State) (n : Nat) (g : Cmd → Cmd) : (s.setCmd n g).prism = s.prism := rfl
@[simp] theorem State.setCmd_jrn (s : State) (n : Nat) (g : Cmd → Cmd) : (s.setCmd n g).jrn = s.jrn := rfl
@[simp] theorem State.setCmd_flash (s : State) (n : Nat) (g : Cmd → Cmd) : (s.setCmd n g).flash = s.flash := rfl
@[simp] theorem State.setCmd_dram (s : State) (n : Nat) (g : Cmd → Cmd) : (s.setCmd n g).dram = s.dram := rfl
@[simp] theorem State.setCmd_dma (s : State) (n : Nat) (g : Cmd → Cmd) : (s.setCmd n g).dma = s.dma := rfl
@[simp] theorem State.setCmd_mover (s : State) (n : Nat) (g : Cmd → Cmd) : (s.setCmd n g).mover = s.mover := rfl
@[simp] theorem State.setCmd_pwr (s : State) (n : Nat) (g : Cmd → Cmd) : (s.setCmd n g).pwr = s.pwr := rfl
@[simp] theorem State.setCmd_hold (s : State) (n : Nat) (g : Cmd → Cmd) : (s.setCmd n g).hold = s.hold := rfl
@[simp] theorem State.setCmd_thm (s : State) (n : Nat) (g : Cmd → Cmd) : (s.setCmd n g).thm = s.thm := rfl
@[simp] theorem State.setCmd_mir (s : State) (n : Nat) (g : Cmd → Cmd) : (s.setCmd n g).mir = s.mir := rfl
@[simp] theorem State.setCmd_ports (s : State) (n : Nat) (g : Cmd → Cmd) : (s.setCmd n g).ports = s.ports := rfl
@[simp] theorem State.setCmd_ptp (s : State) (n : Nat) (g : Cmd → Cmd) : (s.setCmd n g).ptp = s.ptp := rfl
@[simp] theorem State.setCmd_upd (s : State) (n : Nat) (g : Cmd → Cmd) : (s.setCmd n g).upd = s.upd := rfl
@[simp] theorem State.setCmd_sec (s : State) (n : Nat) (g : Cmd → Cmd) : (s.setCmd n g).sec = s.sec := rfl
@[simp] theorem State.setCmd_evr (s : State) (n : Nat) (g : Cmd → Cmd) : (s.setCmd n g).evr = s.evr := rfl
@[simp] theorem State.setCmd_freeCtr (s : State) (n : Nat) (g : Cmd → Cmd) : (s.setCmd n g).freeCtr = s.freeCtr := rfl
@[simp] theorem State.setCmd_pending (s : State) (n : Nat) (g : Cmd → Cmd) : (s.setCmd n g).pending = s.pending := rfl
-- State.freeNext
@[simp] theorem State.freeNext_part (s : State) : s.freeNext.part = s.part := rfl
@[simp] theorem State.freeNext_ident (s : State) : s.freeNext.ident = s.ident := rfl
@[simp] theorem State.freeNext_stored (s : State) : s.freeNext.stored = s.stored := rfl
@[simp] theorem State.freeNext_life (s : State) : s.freeNext.life = s.life := rfl
@[simp] theorem State.freeNext_sb (s : State) : s.freeNext.sb = s.sb := rfl
@[simp] theorem State.freeNext_mbx (s : State) : s.freeNext.mbx = s.mbx := rfl
@[simp] theorem State.freeNext_tr (s : State) : s.freeNext.tr = s.tr := rfl
@[simp] theorem State.freeNext_cmds (s : State) : s.freeNext.cmds = s.cmds := rfl
@[simp] theorem State.freeNext_kv (s : State) : s.freeNext.kv = s.kv := rfl
@[simp] theorem State.freeNext_land (s : State) : s.freeNext.land = s.land := rfl
@[simp] theorem State.freeNext_prism (s : State) : s.freeNext.prism = s.prism := rfl
@[simp] theorem State.freeNext_jrn (s : State) : s.freeNext.jrn = s.jrn := rfl
@[simp] theorem State.freeNext_flash (s : State) : s.freeNext.flash = s.flash := rfl
@[simp] theorem State.freeNext_dram (s : State) : s.freeNext.dram = s.dram := rfl
@[simp] theorem State.freeNext_dma (s : State) : s.freeNext.dma = s.dma := rfl
@[simp] theorem State.freeNext_mover (s : State) : s.freeNext.mover = s.mover := rfl
@[simp] theorem State.freeNext_pwr (s : State) : s.freeNext.pwr = s.pwr := rfl
@[simp] theorem State.freeNext_hold (s : State) : s.freeNext.hold = s.hold := rfl
@[simp] theorem State.freeNext_thm (s : State) : s.freeNext.thm = s.thm := rfl
@[simp] theorem State.freeNext_mir (s : State) : s.freeNext.mir = s.mir := rfl
@[simp] theorem State.freeNext_ports (s : State) : s.freeNext.ports = s.ports := rfl
@[simp] theorem State.freeNext_ptp (s : State) : s.freeNext.ptp = s.ptp := rfl
@[simp] theorem State.freeNext_upd (s : State) : s.freeNext.upd = s.upd := rfl
@[simp] theorem State.freeNext_sec (s : State) : s.freeNext.sec = s.sec := rfl
@[simp] theorem State.freeNext_evr (s : State) : s.freeNext.evr = s.evr := rfl
@[simp] theorem State.freeNext_freeCtr (s : State) : s.freeNext.freeCtr = s.freeCtr + 1 := rfl
@[simp] theorem State.freeNext_pending (s : State) : s.freeNext.pending = s.pending := rfl
-- Recording an event touches the recorder alone.
@[simp] theorem State.logEv_part (s : State) (c : EvCode) (u a b : Nat) : (s.logEv c u a b).part = s.part := by unfold State.logEv; dsimp only; split <;> rfl
@[simp] theorem State.logEv_ident (s : State) (c : EvCode) (u a b : Nat) : (s.logEv c u a b).ident = s.ident := by unfold State.logEv; dsimp only; split <;> rfl
@[simp] theorem State.logEv_stored (s : State) (c : EvCode) (u a b : Nat) : (s.logEv c u a b).stored = s.stored := by unfold State.logEv; dsimp only; split <;> rfl
@[simp] theorem State.logEv_life (s : State) (c : EvCode) (u a b : Nat) : (s.logEv c u a b).life = s.life := by unfold State.logEv; dsimp only; split <;> rfl
@[simp] theorem State.logEv_sb (s : State) (c : EvCode) (u a b : Nat) : (s.logEv c u a b).sb = s.sb := by unfold State.logEv; dsimp only; split <;> rfl
@[simp] theorem State.logEv_mbx (s : State) (c : EvCode) (u a b : Nat) : (s.logEv c u a b).mbx = s.mbx := by unfold State.logEv; dsimp only; split <;> rfl
@[simp] theorem State.logEv_tr (s : State) (c : EvCode) (u a b : Nat) : (s.logEv c u a b).tr = s.tr := by unfold State.logEv; dsimp only; split <;> rfl
@[simp] theorem State.logEv_cmds (s : State) (c : EvCode) (u a b : Nat) : (s.logEv c u a b).cmds = s.cmds := by unfold State.logEv; dsimp only; split <;> rfl
@[simp] theorem State.logEv_kv (s : State) (c : EvCode) (u a b : Nat) : (s.logEv c u a b).kv = s.kv := by unfold State.logEv; dsimp only; split <;> rfl
@[simp] theorem State.logEv_land (s : State) (c : EvCode) (u a b : Nat) : (s.logEv c u a b).land = s.land := by unfold State.logEv; dsimp only; split <;> rfl
@[simp] theorem State.logEv_prism (s : State) (c : EvCode) (u a b : Nat) : (s.logEv c u a b).prism = s.prism := by unfold State.logEv; dsimp only; split <;> rfl
@[simp] theorem State.logEv_jrn (s : State) (c : EvCode) (u a b : Nat) : (s.logEv c u a b).jrn = s.jrn := by unfold State.logEv; dsimp only; split <;> rfl
@[simp] theorem State.logEv_flash (s : State) (c : EvCode) (u a b : Nat) : (s.logEv c u a b).flash = s.flash := by unfold State.logEv; dsimp only; split <;> rfl
@[simp] theorem State.logEv_dram (s : State) (c : EvCode) (u a b : Nat) : (s.logEv c u a b).dram = s.dram := by unfold State.logEv; dsimp only; split <;> rfl
@[simp] theorem State.logEv_dma (s : State) (c : EvCode) (u a b : Nat) : (s.logEv c u a b).dma = s.dma := by unfold State.logEv; dsimp only; split <;> rfl
@[simp] theorem State.logEv_mover (s : State) (c : EvCode) (u a b : Nat) : (s.logEv c u a b).mover = s.mover := by unfold State.logEv; dsimp only; split <;> rfl
@[simp] theorem State.logEv_pwr (s : State) (c : EvCode) (u a b : Nat) : (s.logEv c u a b).pwr = s.pwr := by unfold State.logEv; dsimp only; split <;> rfl
@[simp] theorem State.logEv_hold (s : State) (c : EvCode) (u a b : Nat) : (s.logEv c u a b).hold = s.hold := by unfold State.logEv; dsimp only; split <;> rfl
@[simp] theorem State.logEv_thm (s : State) (c : EvCode) (u a b : Nat) : (s.logEv c u a b).thm = s.thm := by unfold State.logEv; dsimp only; split <;> rfl
@[simp] theorem State.logEv_mir (s : State) (c : EvCode) (u a b : Nat) : (s.logEv c u a b).mir = s.mir := by unfold State.logEv; dsimp only; split <;> rfl
@[simp] theorem State.logEv_ports (s : State) (c : EvCode) (u a b : Nat) : (s.logEv c u a b).ports = s.ports := by unfold State.logEv; dsimp only; split <;> rfl
@[simp] theorem State.logEv_ptp (s : State) (c : EvCode) (u a b : Nat) : (s.logEv c u a b).ptp = s.ptp := by unfold State.logEv; dsimp only; split <;> rfl
@[simp] theorem State.logEv_upd (s : State) (c : EvCode) (u a b : Nat) : (s.logEv c u a b).upd = s.upd := by unfold State.logEv; dsimp only; split <;> rfl
@[simp] theorem State.logEv_sec (s : State) (c : EvCode) (u a b : Nat) : (s.logEv c u a b).sec = s.sec := by unfold State.logEv; dsimp only; split <;> rfl
@[simp] theorem State.logEv_freeCtr (s : State) (c : EvCode) (u a b : Nat) : (s.logEv c u a b).freeCtr = s.freeCtr := by unfold State.logEv; dsimp only; split <;> rfl
@[simp] theorem State.logEv_pending (s : State) (c : EvCode) (u a b : Nat) : (s.logEv c u a b).pending = s.pending := by unfold State.logEv; dsimp only; split <;> rfl
-- Interrupt causes.
@[simp] theorem State.glbInt_part (s : State) (k : Nat) : (s.glbInt k).part = s.part := rfl
@[simp] theorem State.glbInt_ident (s : State) (k : Nat) : (s.glbInt k).ident = s.ident := rfl
@[simp] theorem State.glbInt_stored (s : State) (k : Nat) : (s.glbInt k).stored = s.stored := rfl
@[simp] theorem State.glbInt_sb (s : State) (k : Nat) : (s.glbInt k).sb = s.sb := rfl
@[simp] theorem State.glbInt_mbx (s : State) (k : Nat) : (s.glbInt k).mbx = s.mbx := rfl
@[simp] theorem State.glbInt_tr (s : State) (k : Nat) : (s.glbInt k).tr = s.tr := rfl
@[simp] theorem State.glbInt_cmds (s : State) (k : Nat) : (s.glbInt k).cmds = s.cmds := rfl
@[simp] theorem State.glbInt_kv (s : State) (k : Nat) : (s.glbInt k).kv = s.kv := rfl
@[simp] theorem State.glbInt_land (s : State) (k : Nat) : (s.glbInt k).land = s.land := rfl
@[simp] theorem State.glbInt_prism (s : State) (k : Nat) : (s.glbInt k).prism = s.prism := rfl
@[simp] theorem State.glbInt_jrn (s : State) (k : Nat) : (s.glbInt k).jrn = s.jrn := rfl
@[simp] theorem State.glbInt_flash (s : State) (k : Nat) : (s.glbInt k).flash = s.flash := rfl
@[simp] theorem State.glbInt_dram (s : State) (k : Nat) : (s.glbInt k).dram = s.dram := rfl
@[simp] theorem State.glbInt_dma (s : State) (k : Nat) : (s.glbInt k).dma = s.dma := rfl
@[simp] theorem State.glbInt_mover (s : State) (k : Nat) : (s.glbInt k).mover = s.mover := rfl
@[simp] theorem State.glbInt_pwr (s : State) (k : Nat) : (s.glbInt k).pwr = s.pwr := rfl
@[simp] theorem State.glbInt_hold (s : State) (k : Nat) : (s.glbInt k).hold = s.hold := rfl
@[simp] theorem State.glbInt_thm (s : State) (k : Nat) : (s.glbInt k).thm = s.thm := rfl
@[simp] theorem State.glbInt_mir (s : State) (k : Nat) : (s.glbInt k).mir = s.mir := rfl
@[simp] theorem State.glbInt_ports (s : State) (k : Nat) : (s.glbInt k).ports = s.ports := rfl
@[simp] theorem State.glbInt_ptp (s : State) (k : Nat) : (s.glbInt k).ptp = s.ptp := rfl
@[simp] theorem State.glbInt_upd (s : State) (k : Nat) : (s.glbInt k).upd = s.upd := rfl
@[simp] theorem State.glbInt_sec (s : State) (k : Nat) : (s.glbInt k).sec = s.sec := rfl
@[simp] theorem State.glbInt_evr (s : State) (k : Nat) : (s.glbInt k).evr = s.evr := rfl
@[simp] theorem State.glbInt_freeCtr (s : State) (k : Nat) : (s.glbInt k).freeCtr = s.freeCtr := rfl
@[simp] theorem State.glbInt_pending (s : State) (k : Nat) : (s.glbInt k).pending = s.pending := rfl
@[simp] theorem State.pwrInt_part (s : State) (k : Nat) : (s.pwrInt k).part = s.part := rfl
@[simp] theorem State.pwrInt_ident (s : State) (k : Nat) : (s.pwrInt k).ident = s.ident := rfl
@[simp] theorem State.pwrInt_stored (s : State) (k : Nat) : (s.pwrInt k).stored = s.stored := rfl
@[simp] theorem State.pwrInt_life (s : State) (k : Nat) : (s.pwrInt k).life = s.life := rfl
@[simp] theorem State.pwrInt_sb (s : State) (k : Nat) : (s.pwrInt k).sb = s.sb := rfl
@[simp] theorem State.pwrInt_mbx (s : State) (k : Nat) : (s.pwrInt k).mbx = s.mbx := rfl
@[simp] theorem State.pwrInt_tr (s : State) (k : Nat) : (s.pwrInt k).tr = s.tr := rfl
@[simp] theorem State.pwrInt_cmds (s : State) (k : Nat) : (s.pwrInt k).cmds = s.cmds := rfl
@[simp] theorem State.pwrInt_kv (s : State) (k : Nat) : (s.pwrInt k).kv = s.kv := rfl
@[simp] theorem State.pwrInt_land (s : State) (k : Nat) : (s.pwrInt k).land = s.land := rfl
@[simp] theorem State.pwrInt_prism (s : State) (k : Nat) : (s.pwrInt k).prism = s.prism := rfl
@[simp] theorem State.pwrInt_jrn (s : State) (k : Nat) : (s.pwrInt k).jrn = s.jrn := rfl
@[simp] theorem State.pwrInt_flash (s : State) (k : Nat) : (s.pwrInt k).flash = s.flash := rfl
@[simp] theorem State.pwrInt_dram (s : State) (k : Nat) : (s.pwrInt k).dram = s.dram := rfl
@[simp] theorem State.pwrInt_dma (s : State) (k : Nat) : (s.pwrInt k).dma = s.dma := rfl
@[simp] theorem State.pwrInt_mover (s : State) (k : Nat) : (s.pwrInt k).mover = s.mover := rfl
@[simp] theorem State.pwrInt_hold (s : State) (k : Nat) : (s.pwrInt k).hold = s.hold := rfl
@[simp] theorem State.pwrInt_thm (s : State) (k : Nat) : (s.pwrInt k).thm = s.thm := rfl
@[simp] theorem State.pwrInt_mir (s : State) (k : Nat) : (s.pwrInt k).mir = s.mir := rfl
@[simp] theorem State.pwrInt_ports (s : State) (k : Nat) : (s.pwrInt k).ports = s.ports := rfl
@[simp] theorem State.pwrInt_ptp (s : State) (k : Nat) : (s.pwrInt k).ptp = s.ptp := rfl
@[simp] theorem State.pwrInt_upd (s : State) (k : Nat) : (s.pwrInt k).upd = s.upd := rfl
@[simp] theorem State.pwrInt_sec (s : State) (k : Nat) : (s.pwrInt k).sec = s.sec := rfl
@[simp] theorem State.pwrInt_evr (s : State) (k : Nat) : (s.pwrInt k).evr = s.evr := rfl
@[simp] theorem State.pwrInt_freeCtr (s : State) (k : Nat) : (s.pwrInt k).freeCtr = s.freeCtr := rfl
@[simp] theorem State.pwrInt_pending (s : State) (k : Nat) : (s.pwrInt k).pending = s.pending := rfl
@[simp] theorem State.macInt_part (s : State) (p : Fin 2) (k : Nat) : (s.macInt p k).part = s.part := rfl
@[simp] theorem State.macInt_ident (s : State) (p : Fin 2) (k : Nat) : (s.macInt p k).ident = s.ident := rfl
@[simp] theorem State.macInt_stored (s : State) (p : Fin 2) (k : Nat) : (s.macInt p k).stored = s.stored := rfl
@[simp] theorem State.macInt_life (s : State) (p : Fin 2) (k : Nat) : (s.macInt p k).life = s.life := rfl
@[simp] theorem State.macInt_sb (s : State) (p : Fin 2) (k : Nat) : (s.macInt p k).sb = s.sb := rfl
@[simp] theorem State.macInt_mbx (s : State) (p : Fin 2) (k : Nat) : (s.macInt p k).mbx = s.mbx := rfl
@[simp] theorem State.macInt_tr (s : State) (p : Fin 2) (k : Nat) : (s.macInt p k).tr = s.tr := rfl
@[simp] theorem State.macInt_cmds (s : State) (p : Fin 2) (k : Nat) : (s.macInt p k).cmds = s.cmds := rfl
@[simp] theorem State.macInt_kv (s : State) (p : Fin 2) (k : Nat) : (s.macInt p k).kv = s.kv := rfl
@[simp] theorem State.macInt_land (s : State) (p : Fin 2) (k : Nat) : (s.macInt p k).land = s.land := rfl
@[simp] theorem State.macInt_prism (s : State) (p : Fin 2) (k : Nat) : (s.macInt p k).prism = s.prism := rfl
@[simp] theorem State.macInt_jrn (s : State) (p : Fin 2) (k : Nat) : (s.macInt p k).jrn = s.jrn := rfl
@[simp] theorem State.macInt_flash (s : State) (p : Fin 2) (k : Nat) : (s.macInt p k).flash = s.flash := rfl
@[simp] theorem State.macInt_dram (s : State) (p : Fin 2) (k : Nat) : (s.macInt p k).dram = s.dram := rfl
@[simp] theorem State.macInt_dma (s : State) (p : Fin 2) (k : Nat) : (s.macInt p k).dma = s.dma := rfl
@[simp] theorem State.macInt_mover (s : State) (p : Fin 2) (k : Nat) : (s.macInt p k).mover = s.mover := rfl
@[simp] theorem State.macInt_pwr (s : State) (p : Fin 2) (k : Nat) : (s.macInt p k).pwr = s.pwr := rfl
@[simp] theorem State.macInt_hold (s : State) (p : Fin 2) (k : Nat) : (s.macInt p k).hold = s.hold := rfl
@[simp] theorem State.macInt_thm (s : State) (p : Fin 2) (k : Nat) : (s.macInt p k).thm = s.thm := rfl
@[simp] theorem State.macInt_mir (s : State) (p : Fin 2) (k : Nat) : (s.macInt p k).mir = s.mir := rfl
@[simp] theorem State.macInt_ptp (s : State) (p : Fin 2) (k : Nat) : (s.macInt p k).ptp = s.ptp := rfl
@[simp] theorem State.macInt_upd (s : State) (p : Fin 2) (k : Nat) : (s.macInt p k).upd = s.upd := rfl
@[simp] theorem State.macInt_sec (s : State) (p : Fin 2) (k : Nat) : (s.macInt p k).sec = s.sec := rfl
@[simp] theorem State.macInt_evr (s : State) (p : Fin 2) (k : Nat) : (s.macInt p k).evr = s.evr := rfl
@[simp] theorem State.macInt_freeCtr (s : State) (p : Fin 2) (k : Nat) : (s.macInt p k).freeCtr = s.freeCtr := rfl
@[simp] theorem State.macInt_pending (s : State) (p : Fin 2) (k : Nat) : (s.macInt p k).pending = s.pending := rfl
-- A wake event touches the power states alone.
@[simp] theorem State.wake_part (s : State) : s.wake.part = s.part := by unfold State.wake; dsimp only; repeat (first | rfl | split)
@[simp] theorem State.wake_ident (s : State) : s.wake.ident = s.ident := by unfold State.wake; dsimp only; repeat (first | rfl | split)
@[simp] theorem State.wake_stored (s : State) : s.wake.stored = s.stored := by unfold State.wake; dsimp only; repeat (first | rfl | split)
@[simp] theorem State.wake_life (s : State) : s.wake.life = s.life := by unfold State.wake; dsimp only; repeat (first | rfl | split)
@[simp] theorem State.wake_sb (s : State) : s.wake.sb = s.sb := by unfold State.wake; dsimp only; repeat (first | rfl | split)
@[simp] theorem State.wake_mbx (s : State) : s.wake.mbx = s.mbx := by unfold State.wake; dsimp only; repeat (first | rfl | split)
@[simp] theorem State.wake_tr (s : State) : s.wake.tr = s.tr := by unfold State.wake; dsimp only; repeat (first | rfl | split)
@[simp] theorem State.wake_cmds (s : State) : s.wake.cmds = s.cmds := by unfold State.wake; dsimp only; repeat (first | rfl | split)
@[simp] theorem State.wake_kv (s : State) : s.wake.kv = s.kv := by unfold State.wake; dsimp only; repeat (first | rfl | split)
@[simp] theorem State.wake_land (s : State) : s.wake.land = s.land := by unfold State.wake; dsimp only; repeat (first | rfl | split)
@[simp] theorem State.wake_prism (s : State) : s.wake.prism = s.prism := by unfold State.wake; dsimp only; repeat (first | rfl | split)
@[simp] theorem State.wake_jrn (s : State) : s.wake.jrn = s.jrn := by unfold State.wake; dsimp only; repeat (first | rfl | split)
@[simp] theorem State.wake_flash (s : State) : s.wake.flash = s.flash := by unfold State.wake; dsimp only; repeat (first | rfl | split)
@[simp] theorem State.wake_dram (s : State) : s.wake.dram = s.dram := by unfold State.wake; dsimp only; repeat (first | rfl | split)
@[simp] theorem State.wake_dma (s : State) : s.wake.dma = s.dma := by unfold State.wake; dsimp only; repeat (first | rfl | split)
@[simp] theorem State.wake_mover (s : State) : s.wake.mover = s.mover := by unfold State.wake; dsimp only; repeat (first | rfl | split)
@[simp] theorem State.wake_hold (s : State) : s.wake.hold = s.hold := by unfold State.wake; dsimp only; repeat (first | rfl | split)
@[simp] theorem State.wake_thm (s : State) : s.wake.thm = s.thm := by unfold State.wake; dsimp only; repeat (first | rfl | split)
@[simp] theorem State.wake_mir (s : State) : s.wake.mir = s.mir := by unfold State.wake; dsimp only; repeat (first | rfl | split)
@[simp] theorem State.wake_ports (s : State) : s.wake.ports = s.ports := by unfold State.wake; dsimp only; repeat (first | rfl | split)
@[simp] theorem State.wake_ptp (s : State) : s.wake.ptp = s.ptp := by unfold State.wake; dsimp only; repeat (first | rfl | split)
@[simp] theorem State.wake_upd (s : State) : s.wake.upd = s.upd := by unfold State.wake; dsimp only; repeat (first | rfl | split)
@[simp] theorem State.wake_sec (s : State) : s.wake.sec = s.sec := by unfold State.wake; dsimp only; repeat (first | rfl | split)
@[simp] theorem State.wake_evr (s : State) : s.wake.evr = s.evr := by unfold State.wake; dsimp only; repeat (first | rfl | split)
@[simp] theorem State.wake_freeCtr (s : State) : s.wake.freeCtr = s.freeCtr := by unfold State.wake; dsimp only; repeat (first | rfl | split)
@[simp] theorem State.wake_pending (s : State) : s.wake.pending = s.pending := by unfold State.wake; dsimp only; repeat (first | rfl | split)

end Sys2Proof.Machine
end

