-- ==== Sys2Proof/Laws/Ops.lean ====
section
/-! SUPPORT. What the shared operations that dispatch a command answer: one equation per way in, so that no proof unfolds them. -/

namespace Sys2Proof.Machine

@[simp] theorem Session.takeAck_uid (x : Session) (a : BitVec 32) (n m : Nat) : (x.takeAck a n m).uid = x.uid := by
  unfold Session.takeAck; simp only [apply_ite Session.uid, ite_self]

@[simp] theorem Session.takeAck_st (x : Session) (a : BitVec 32) (n m : Nat) : (x.takeAck a n m).st = x.st := by
  unfold Session.takeAck; simp only [apply_ite Session.st, ite_self]

@[simp] theorem State.setSession_now (s : State) (uid : Nat) (f : Session → Session) : (s.setSession uid f).now = s.now := rfl

/-- A datagram on an open session is handled on the session after its ack field has been taken. -/
theorem State.onSession_open {s : State} {rx : Rx} {dg : Bytes} {typ : Nat} {x : Session} {h : SkiffIn} (o : Safety.OnSession s rx dg typ x h)
    (f : State → Session → SkiffIn → State) :
    s.onSession rx dg typ f = f (s.setSession x.uid fun _ => x.takeAck h.ack s.now s.stored.skiffIdle) (x.takeAck h.ack s.now s.stored.skiffIdle) h := by
  obtain ⟨h0, h1, h2, h3, h4, h5⟩ := o
  unfold State.onSession
  simp [h0, h1, h2, h3, h4, h5]

/-- The front command of a mailbox that has its turn and passes the general checks runs its meaning. -/
theorem State.runFront_front {s : State} {box op : Nat} {c : Cmd} (h : s.frontOf box op = some c) (f : State → Cmd → State) :
    s.runFront box op f = f s c := by
  simp [State.runFront, h]

/-- Without a command in front nothing runs. -/
theorem State.runFront_none {s : State} {box op : Nat} (h : s.frontOf box op = none) (f : State → Cmd → State) : s.runFront box op f = s := by
  simp [State.runFront, h]

/-- The front command of the supervisor's mailbox. -/
theorem State.runSup_front {s : State} {op : Nat} {c : Cmd} (h : s.supFront op = some c) (hc : s.precheck c = none) (f : State → Cmd → State) :
    s.runSup op f = f s c := by
  simp [State.runSup, State.checked, h, hc]

/-- Without a command in front of the supervisor's mailbox nothing runs. -/
theorem State.runSup_none {s : State} {op : Nat} (h : s.supFront op = none) (f : State → Cmd → State) : s.runSup op f = s := by
  simp [State.runSup, h]

/-- A command that fails a check of the ordered list completes with that check's status. -/
theorem State.checked_fail {s : State} {c : Cmd} {st : Nat} (h : s.precheck c = some st) (f : State → Cmd → State) : s.checked c f = s.fail c st := by
  simp [State.checked, h]

/-- A command that passes the ordered checks runs. -/
theorem State.checked_pass {s : State} {c : Cmd} (h : s.precheck c = none) (f : State → Cmd → State) : s.checked c f = f s c := by
  simp [State.checked, h]

/-- The timer a command of the session starts again is all that changes. -/
theorem State.heardFrom_eq (s : State) (src : UpdSrc) :
    s.heardFrom src = s.setUpd fun u => { u with idleS := if u.has src then s.now else u.idleS } := by
  unfold State.heardFrom; cases h : s.upd.has src <;> simp [State.setUpd, h]

@[simp] theorem State.servoStart_life (s : State) : s.servoStart.life = s.life := by unfold State.servoStart; split <;> rfl
@[simp] theorem State.servoStart_sec (s : State) : s.servoStart.sec = s.sec := by unfold State.servoStart; split <;> rfl
@[simp] theorem State.resumeElapsed_life (s : State) : s.resumeElapsed.life = s.life := by unfold State.resumeElapsed; split <;> rfl

@[simp] theorem State.endSession_state (s : State) (r : Nat) : (s.endSession r).upd.state = 0 := rfl
@[simp] theorem State.endSession_result (s : State) (r : Nat) : (s.endSession r).upd.result = r := rfl
@[simp] theorem State.endSession_slot (s : State) (r n : Nat) : (s.endSession r).upd.slot n = s.upd.slot n := rfl
@[simp] theorem State.endSession_target (s : State) (r : Nat) : (s.endSession r).upd.target = s.upd.target := rfl
@[simp] theorem State.endSession_confirmed (s : State) (r : Nat) : (s.endSession r).upd.confirmed = s.upd.confirmed := rfl

/-- A slot changed through `setSlot` is the one named; no other field of the session changes. -/
@[simp] theorem Update.setSlot_slot (u : Update) (n : Nat) (f : Slot → Slot) : (u.setSlot n f).slot n = f (u.slot n) := by
  rcases n with _ | _ | n <;> rfl
@[simp] theorem Update.setSlot_active (u : Update) (n : Nat) (f : Slot → Slot) : (u.setSlot n f).active = u.active := by
  rcases n with _ | _ | n <;> rfl
@[simp] theorem Update.setSlot_target (u : Update) (n : Nat) (f : Slot → Slot) : (u.setSlot n f).target = u.target := by
  rcases n with _ | _ | n <;> rfl

end Sys2Proof.Machine
end

