-- ==== Sys2Proof/Laws/Tokens.lean ====
section
/-! SUPPORT. Every operation that reaches the power arbiter keeps the balance of its token ledger (01 R34, R36). -/

namespace Sys2Proof.Machine

/-- Granted and free tokens make up the budget. -/
def tokOk (s : State) : Prop := s.pwr.granted + s.pwr.free = s.pwr.budget

@[simp] theorem tok_setPwr (s : State) (f : Power → Power) (hf : ∀ p, p.granted + p.free = p.budget → (f p).granted + (f p).free = (f p).budget)
    (h : tokOk (view 268402687 s)) : tokOk (view 268402687 (s.setPwr f)) := hf _ h

@[simp] theorem tok_setLife (s : State) (f : Life → Life) (h : tokOk (view 268402687 s)) : tokOk (view 268402687 (s.setLife f)) := h

@[simp] theorem tok_settleTokens (s : State) : tokOk (view 268402687 s.settleTokens) := by
  show (s.standingNow + s.pwr.heldTokens : Int) + (s.pwr.budget - (s.standingNow + s.pwr.heldTokens : Int)) = s.pwr.budget
  omega

@[simp] theorem tok_runFront (s : State) (cp op : Nat) (f : State → Cmd → State) (h : tokOk (view 268402687 s))
    (hf : ∀ c, tokOk (view 268402687 (f s c))) : tokOk (view 268402687 (s.runFront cp op f)) := by
  unfold State.runFront
  (repeat' split) <;> simp [hf, h]

@[simp] theorem tok_checked (s : State) (c : Cmd) (f : State → Cmd → State) (h : tokOk (view 268402687 s))
    (hf : tokOk (view 268402687 (f s c))) : tokOk (view 268402687 (s.checked c f)) := by
  unfold State.checked
  split
  · simp [h]
  · exact hf

@[simp] theorem tok_runSup (s : State) (op : Nat) (f : State → Cmd → State) (h : tokOk (view 268402687 s))
    (hf : ∀ c, tokOk (view 268402687 (f s c))) : tokOk (view 268402687 (s.runSup op f)) := by
  unfold State.runSup
  split
  · exact tok_checked _ _ _ h (hf _)
  · exact h

@[simp] theorem tok_runCfg (s : State) (sel : Nat → Bool) (f : State → Cmd → State) (h : tokOk (view 268402687 s))
    (hf : ∀ c, tokOk (view 268402687 (f s c))) : tokOk (view 268402687 (s.runCfg sel f)) := by
  unfold State.runCfg
  split
  · split
    · exact tok_checked _ _ _ h (hf _)
    · exact h
  · exact h

@[simp] theorem tok_onSession (s : State) (rx : Rx) (dg : Bytes) (typ : Nat) (f : State → Session → SkiffIn → State) (h : tokOk (view 268402687 s))
    (hf : ∀ t x k, tokOk (view 268402687 t) → tokOk (view 268402687 (f t x k))) : tokOk (view 268402687 (State.onSession s rx dg typ f)) := by
  unfold State.onSession
  (repeat' split) <;> simp [h, hf]

theorem tokOk_of {s t : State} (e : view 268402687 t = view 268402687 s) (h : tokOk (view 268402687 s)) : tokOk (view 268402687 t) := by rw [e]; exact h

@[simp] theorem tok_ite (c : Prop) [Decidable c] (a b : State) (ha : tokOk (view 268402687 a)) (hb : tokOk (view 268402687 b)) : tokOk (view 268402687 (if c then a else b)) := by
  split <;> assumption

@[simp] theorem tok_foldl {α : Type} (f : State → α → State) (hf : ∀ s a, tokOk (view 268402687 s) → tokOk (view 268402687 (f s a))) (l : List α) (s : State)
    (h : tokOk (view 268402687 s)) : tokOk (view 268402687 (l.foldl f s)) := by
  induction l generalizing s with
  | nil => exact h
  | cons a r ih => exact ih _ (hf s a h)


@[simp] theorem tok_pwrInt (s : State) (k : Nat) (h : tokOk (view 268402687 s)) :
    tokOk (view 268402687 (State.pwrInt s k)) := by
  unfold State.pwrInt
  simp [h]

@[simp] theorem tok_wake (s : State) (h : tokOk (view 268402687 s)) :
    tokOk (view 268402687 (State.wake s)) := by
  unfold State.wake
  dsimp only
  (repeat' split) <;> simp (maxDischargeDepth := 12) [h]

@[simp] theorem tok_grantReq (s : State) (r : TokReq) (h : tokOk (view 268402687 s)) :
    tokOk (view 268402687 (State.grantReq s r)) := by
  unfold State.grantReq
  dsimp only
  refine tok_setPwr _ _ (fun p hp => ?_) h
  dsimp only
  split <;> omega

@[simp] theorem tok_examine (n : Nat) (s : State) (h : tokOk (view 268402687 s)) : tokOk (view 268402687 (State.examine n s)) := by
  induction n generalizing s with
  | zero => exact h
  | succ n ih => unfold State.examine; split <;> simp (maxDischargeDepth := 12) [ih, h]

@[simp] theorem tok_arbitrate (s : State) (h : tokOk (view 268402687 s)) :
    tokOk (view 268402687 (State.arbitrate s)) := by
  unfold State.arbitrate
  simp [h]

@[simp] theorem tok_askTokens (s : State) (cls n : Nat) (why : Purpose) (h : tokOk (view 268402687 s)) :
    tokOk (view 268402687 (State.askTokens s cls n why)) := by
  unfold State.askTokens
  dsimp only
  have k : tokOk (view 268402687 (s.wake.setPwr fun p => { p with queue := p.queue ++ [({ id := s.pwr.nextGrant, cls := cls, n := n, why := why } : TokReq)], nextGrant := p.nextGrant + 1 })) :=
    tok_setPwr _ _ (fun _ hp => hp) (tok_wake _ h)
  refine tok_arbitrate _ ?_
  split
  · exact tok_grantReq _ _ k
  · exact k

@[simp] theorem tok_returnGrant (s : State) (id : Nat) (h : tokOk (view 268402687 s)) :
    tokOk (view 268402687 (State.returnGrant s id)) := by
  unfold State.returnGrant
  split
  · exact h
  · refine tok_arbitrate _ (tok_setPwr _ _ (fun p hp => ?_) h)
    dsimp only
    split <;> omega

@[simp] theorem tok_returnFor (s : State) (why : Purpose) (h : tokOk (view 268402687 s)) :
    tokOk (view 268402687 (State.returnFor s why)) := by
  unfold State.returnFor
  dsimp only; (repeat' split) <;> simp [h]

@[simp] theorem tok_under (s : State) (n : Nat) (why : Purpose) (f : State → State) (h : tokOk (view 268402687 s)) (hf : ∀ t, tokOk (view 268402687 t) → tokOk (view 268402687 (f t))) :
    tokOk (view 268402687 (s.under n why f)) := by
  unfold State.under
  exact tok_returnFor _ _ (hf _ (tok_askTokens _ _ _ _ h))
@[simp] theorem tok_budgetChange (s : State) (reason : Nat) (h : tokOk (view 268402687 s)) :
    tokOk (view 268402687 (State.budgetChange s reason)) := by
  unfold State.budgetChange
  simp [h]

@[simp] theorem tok_holdupBudget (s : State) (usable : Nat) (reason : Nat) (h : tokOk (view 268402687 s)) :
    tokOk (view 268402687 (State.holdupBudget s usable reason)) := by
  unfold State.holdupBudget
  simp (maxDischargeDepth := 12) [h]

@[simp] theorem tok_resetEnds (s : State) (h : tokOk (view 268402687 s)) :
    tokOk (view 268402687 (State.resetEnds s)) := by
  unfold State.resetEnds
  simp [h]

@[simp] theorem tok_bankState (s : State) (st : BankSt) (h : tokOk (view 268402687 s)) :
    tokOk (view 268402687 (State.bankState s st)) := by
  unfold State.bankState
  dsimp only; (repeat' split) <;> simp [h]

@[simp] theorem tok_powerSnapshot (s : State) (h : tokOk (view 268402687 s)) :
    tokOk (view 268402687 (State.powerSnapshot s)) := by
  unfold State.powerSnapshot
  simp [h]

@[simp] theorem tok_pumpJournal (s : State) (h : tokOk (view 268402687 s)) :
    tokOk (view 268402687 (State.pumpJournal s)) := by
  unfold State.pumpJournal
  dsimp only; (repeat' split) <;> simp [h]

@[simp] theorem tok_journal (s : State) (r : JRec) (wait : Bool) (h : tokOk (view 268402687 s)) :
    tokOk (view 268402687 (State.journal s r wait)) := by
  unfold State.journal
  (repeat' split) <;> simp [h]

@[simp] theorem tok_journalThen (s : State) (r : JRec) (a : JAct) (wait : Bool) (h : tokOk (view 268402687 s)) :
    tokOk (view 268402687 (State.journalThen s r a wait)) := by
  unfold State.journalThen
  (repeat' split) <;> simp [h]

@[simp] theorem tok_openLane (s : State) (stream : Nat) (h : tokOk (view 268402687 s)) :
    tokOk (view 268402687 (State.openLane s stream).1) := by
  unfold State.openLane
  dsimp only; (repeat' split) <;> simp [h]

@[simp] theorem tok_askPrograms (s : State) (j : Job) (cls : Nat) (h : tokOk (view 268402687 s)) :
    tokOk (view 268402687 (State.askPrograms s j cls)) := by
  unfold State.askPrograms
  refine tok_foldl _ (fun t a h => ?_) _ _ h
  exact tok_askTokens _ _ _ _ h

@[simp] theorem tok_addJob (s : State) (j : Job) (h : tokOk (view 268402687 s)) :
    tokOk (view 268402687 (State.addJob s j)) := by
  unfold State.addJob
  dsimp only; (repeat' split) <;> simp [h]

@[simp] theorem tok_pumpQueued (s : State) (p : Nat) (h : tokOk (view 268402687 s)) :
    tokOk (view 268402687 (State.pumpQueued s p)) := by
  unfold State.pumpQueued
  (repeat' split) <;> simp [h]

@[simp] theorem tok_startUnit (s : State) (g : Segment) (kind : JobKind) (h : tokOk (view 268402687 s)) :
    tokOk (view 268402687 (State.startUnit s g kind)) := by
  unfold State.startUnit
  dsimp only; (repeat' split) <;> simp [h]

@[simp] theorem tok_startSummary (s : State) (g : Segment) (h : tokOk (view 268402687 s)) :
    tokOk (view 268402687 (State.startSummary s g)) := by
  unfold State.startSummary
  dsimp only; (repeat' split) <;> simp [h]

@[simp] theorem tok_pumpSummaries (s : State) (h : tokOk (view 268402687 s)) :
    tokOk (view 268402687 (State.pumpSummaries s)) := by
  unfold State.pumpSummaries
  refine tok_foldl _ (fun t a h => ?_) _ _ h
  split
  · exact h
  · exact tok_startSummary _ _ h

@[simp] theorem tok_drainLane (s : State) (st : Nat) (h : tokOk (view 268402687 s)) :
    tokOk (view 268402687 (State.drainLane s st).1) := by
  unfold State.drainLane
  dsimp only; (repeat' split) <;> simp [h]

@[simp] theorem tok_drainInto (s : State) (q : List LRec) (g : Segment) (h : tokOk (view 268402687 s)) :
    tokOk (view 268402687 (State.drainInto s q g)) := by
  unfold State.drainInto
  simp (maxDischargeDepth := 12) [h]

theorem tok_drainUnit (s t : State) (st : Nat) (e : s.drainUnit st = some t) (h : tokOk (view 268402687 s)) : tokOk (view 268402687 t) := by
  unfold State.drainUnit at e
  dsimp only at e
  split at e
  · cases e
  split at e
  · cases e
  simp only [Option.map_eq_some_iff] at e
  obtain ⟨g, _, rfl⟩ := e
  simp (maxDischargeDepth := 12) [h]

@[simp] theorem tok_drainStream (n : Nat) (s : State) (st : Nat) (h : tokOk (view 268402687 s)) : tokOk (view 268402687 (State.drainStream n s st)) := by
  induction n generalizing s with
  | zero => exact h
  | succ n ih =>
    unfold State.drainStream
    split
    next t e => exact ih _ (tok_drainUnit _ _ _ e h)
    · exact h

@[simp] theorem tok_pumpAllQueued (s : State) (h : tokOk (view 268402687 s)) :
    tokOk (view 268402687 (State.pumpAllQueued s)) := by
  unfold State.pumpAllQueued
  exact tok_foldl _ (fun t a h => tok_pumpQueued _ _ h) _ _ h

@[simp] theorem tok_pumpDrain (s : State) (h : tokOk (view 268402687 s)) :
    tokOk (view 268402687 (State.pumpDrain s)) := by
  unfold State.pumpDrain
  simp (maxDischargeDepth := 12) [h]

@[simp] theorem tok_becomeVisible (s : State) (id : Nat) (loc : Loc) (durableNow : Bool) (h : tokOk (view 268402687 s)) :
    tokOk (view 268402687 (State.becomeVisible s id loc durableNow)) := by
  unfold State.becomeVisible
  simp [h]

@[simp] theorem tok_reclaimKey (s : State) (ks adm : Nat) (key : Bytes) (wait : Bool) (h : tokOk (view 268402687 s)) :
    tokOk (view 268402687 (State.reclaimKey s ks adm key wait)) := by
  unfold State.reclaimKey
  (repeat' split) <;> simp [h]

@[simp] theorem tok_dropSeen (s : State) (ks pos : Nat) (key : Bytes) (h : tokOk (view 268402687 s)) :
    tokOk (view 268402687 (State.dropSeen s ks pos key)) := by
  unfold State.dropSeen
  simp [h]

@[simp] theorem tok_pumpReads (s : State) (adm : Nat) (h : tokOk (view 268402687 s)) :
    tokOk (view 268402687 (State.pumpReads s adm)) := by
  unfold State.pumpReads
  dsimp only
  have g : ∀ (l : List ReadOp) (acc : Nat × State), tokOk (view 268402687 acc.2) → tokOk (view 268402687 (l.foldl (fun (acc : Nat × State) r =>
      (acc.1 - min acc.1 (r.pages - r.issued), (List.range (min acc.1 (r.pages - r.issued))).foldl (fun s _ => s.askTokens 1 4 (.read r.id))
        (acc.2.setFlash fun f => { f with reads := f.reads.map (fun x => if x.id = r.id then { x with issued := x.issued + min acc.1 (r.pages - r.issued) } else x) }))) acc).2) := by
    intro l
    induction l with
    | nil => exact fun _ h => h
    | cons r l ih => exact fun acc h => ih _ (tok_foldl _ (fun _ _ h => tok_askTokens _ _ _ _ h) _ _ (tokOk_of (view_setFlash _ _ (by decide)) h))
  exact g _ _ h

@[simp] theorem tok_keyChecks (s : State) (c : Cmd) (keys : List (Nat × Bytes)) (own : Bool) (h : tokOk (view 268402687 s)) :
    tokOk (view 268402687 (State.keyChecks s c keys own).2) := by
  unfold State.keyChecks
  dsimp only; (repeat' split) <;> simp (maxDischargeDepth := 12) [h]

@[simp] theorem tok_withChecks (s : State) (c : Cmd) (keys : List (Nat × Bytes)) (own : Bool) (f : State → Cmd → State) (h : tokOk (view 268402687 s))
    (hf : ∀ t, tokOk (view 268402687 t) → tokOk (view 268402687 (f t c))) : tokOk (view 268402687 (s.withChecks c keys own f)) := by
  have k := tok_keyChecks s c keys own h
  unfold State.withChecks
  exact tok_ite _ _ _ k (hf _ k)

@[simp] theorem tok_withKey (s : State) (c : Cmd) (f : State → Cmd → State) (h : tokOk (view 268402687 s))
    (hf : ∀ t, tokOk (view 268402687 t) → tokOk (view 268402687 (f t c))) : tokOk (view 268402687 (s.withKey c f)) := by
  unfold State.withKey
  exact tok_ite _ _ _ (hf _ h) (tok_withChecks _ _ _ _ _ h hf)

@[simp] theorem tok_orConflict (s : State) (c : Cmd) (f : State → State) (h : tokOk (view 268402687 s)) (hf : ∀ t, tokOk (view 268402687 t) → tokOk (view 268402687 (f t))) :
    tokOk (view 268402687 (s.orConflict c f)) := by
  unfold State.orConflict
  exact tok_ite _ _ _ (by simp [h]) (hf _ h)

@[simp] theorem tok_putGate (s : State) (c : Cmd) (h : tokOk (view 268402687 s)) :
    tokOk (view 268402687 (State.putGate s c)) := by
  unfold State.putGate
  have h1 : tokOk (view 268402687 (s.dropSeen c.entry.ks c.adm c.key)) := by simp [h]
  dsimp only
  generalize s.dropSeen c.entry.ks c.adm c.key = t at h1
  split
  · simp [h1]
  · refine tok_orConflict _ _ _ h1 fun t h => ?_
    split
    · simp [h]
    · simp [h]
    · simp (maxDischargeDepth := 12) [h]
@[simp] theorem tok_execPut (cp : Fin 8) (s : State) (h : tokOk (view 268402687 s)) :
    tokOk (view 268402687 (outState (execPut cp s) s)) := by
  unfold execPut
  simp only [outState_next]
  exact tok_runFront _ _ _ _ h (fun c => tok_checked _ _ _ h (tok_withKey _ _ _ h (fun t h => tok_putGate _ _ h)))

@[simp] theorem tok_openGate (s : State) (c : Cmd) (h : tokOk (view 268402687 s)) :
    tokOk (view 268402687 (State.openGate s c)) := by
  unfold State.openGate
  dsimp only; (repeat' split) <;> simp [h]

@[simp] theorem tok_putPart (s : State) (c : Cmd) (h : tokOk (view 268402687 s)) :
    tokOk (view 268402687 (State.putPart s c)) := by
  unfold State.putPart
  exact tok_ite _ _ _ (tok_withKey _ _ _ h (fun t h => tok_openGate _ _ h)) (tokOk_of (view_nextPart _ _ (by decide)) h)

@[simp] theorem tok_execPutPart (cp : Fin 8) (s : State) (h : tokOk (view 268402687 s)) :
    tokOk (view 268402687 (outState (execPutPart cp s) s)) := by
  unfold execPutPart
  simp only [outState_next]
  refine tok_runFront _ _ _ _ h (fun c => ?_)
  split
  · exact h
  · exact tok_checked _ _ _ h (by simp (maxDischargeDepth := 12) [h])

@[simp] theorem tok_execPutValueLanded (adm : Nat) (s : State) (h : tokOk (view 268402687 s)) :
    tokOk (view 268402687 (outState (execPutValueLanded adm s) s)) := by
  unfold execPutValueLanded
  simp only [outState_next]
  (repeat' split) <;> simp [h]

@[simp] theorem tok_writeRecord (s : State) (c : Cmd) (kind : RecKind) (upper : Bytes) (h : tokOk (view 268402687 s)) :
    tokOk (view 268402687 (State.writeRecord s c kind upper)) := by
  unfold State.writeRecord
  dsimp only; (repeat' split) <;> simp [h]

@[simp] theorem tok_deleteGate (s : State) (c : Cmd) (h : tokOk (view 268402687 s)) :
    tokOk (view 268402687 (State.deleteGate s c)) := by
  have f1 := view_find s c.entry.ks c.key (m := 268402687) (by decide)
  unfold State.deleteGate
  dsimp only
  generalize s.find c.entry.ks c.key = p at f1 ⊢
  generalize s.lookup c.entry.ks c.key = q
  generalize s.spaceOf c = k
  have h2 := tokOk_of f1 h
  split
  · simp (maxDischargeDepth := 12) [h]
  rcases p with ⟨_ | _, s'⟩ <;> rcases q with _ | _ <;> rcases k with _ | _ <;> dsimp only at h2 ⊢
  all_goals first
    | (simp (maxDischargeDepth := 12) [h, h2]; done)
    | (refine tok_orConflict _ _ _ h2 fun t h => ?_; split <;> simp (maxDischargeDepth := 12) [h])

@[simp] theorem tok_execDelete (cp : Fin 8) (s : State) (h : tokOk (view 268402687 s)) :
    tokOk (view 268402687 (outState (execDelete cp s) s)) := by
  unfold execDelete
  simp only [outState_next]
  exact tok_runFront _ _ _ _ h (fun c => tok_checked _ _ _ h (tok_withKey _ _ _ h (fun t h => tok_deleteGate _ _ h)))

@[simp] theorem tok_discardGate (s : State) (c : Cmd) (h : tokOk (view 268402687 s)) :
    tokOk (view 268402687 (State.discardGate s c)) := by
  unfold State.discardGate
  dsimp only; (repeat' split) <;> simp [h]

@[simp] theorem tok_execDiscardRange (cp : Fin 8) (s : State) (h : tokOk (view 268402687 s)) :
    tokOk (view 268402687 (outState (execDiscardRange cp s) s)) := by
  unfold execDiscardRange
  simp only [outState_next]
  refine tok_runFront _ _ _ _ h (fun c => ?_)
  split
  · exact h
  · exact tok_checked _ _ _ h (by simp (maxDischargeDepth := 12) [h])

@[simp] theorem tok_getKey (s : State) (c : Cmd) (h : tokOk (view 268402687 s)) :
    tokOk (view 268402687 (State.getKey s c)) := by
  unfold State.getKey
  dsimp only
  cases e : (s.find c.entry.ks c.key).1
  · simp (maxDischargeDepth := 12) [h]
  · dsimp only; split <;> simp (maxDischargeDepth := 12) [h]

@[simp] theorem tok_execGet (cp : Fin 8) (s : State) (h : tokOk (view 268402687 s)) :
    tokOk (view 268402687 (outState (execGet cp s) s)) := by
  unfold execGet
  simp only [outState_next]
  exact tok_runFront _ _ _ _ h (fun c => tok_checked _ _ _ h (tok_withChecks _ _ _ _ _ h (fun t h => tok_getKey _ _ h)))

@[simp] theorem tok_existsKey (s : State) (c : Cmd) (h : tokOk (view 268402687 s)) :
    tokOk (view 268402687 (State.existsKey s c)) := by
  unfold State.existsKey
  dsimp only
  cases e : (s.find c.entry.ks c.key).1
  · simp (maxDischargeDepth := 12) [h]
  · dsimp only; split <;> simp (maxDischargeDepth := 12) [h]

@[simp] theorem tok_execExistsKey (cp : Fin 8) (s : State) (h : tokOk (view 268402687 s)) :
    tokOk (view 268402687 (outState (execExistsKey cp s) s)) := by
  unfold execExistsKey
  simp only [outState_next]
  exact tok_runFront _ _ _ _ h (fun c => tok_checked _ _ _ h (tok_withChecks _ _ _ _ _ h (fun t h => tok_existsKey _ _ h)))

@[simp] theorem tok_mgetStart (s : State) (c : Cmd) (gs : List (Got × Option Loc)) (h : tokOk (view 268402687 s)) :
    tokOk (view 268402687 (State.mgetStart s c gs)) := by
  unfold State.mgetStart
  refine tok_foldl _ (fun t a h => by simp (maxDischargeDepth := 12) [h]) _ _ (tok_foldl _ (fun t a h => ?_) _ _ (tokOk_of (view_leave _ _ _ (by decide)) h))
  (repeat' split) <;> simp (maxDischargeDepth := 12) [h]

@[simp] theorem tok_mget (s : State) (c : Cmd) (h : tokOk (view 268402687 s)) :
    tokOk (view 268402687 (State.mget s c)) := by
  have k : tokOk (view 268402687 (s.mgetFind c).1) := tokOk_of (view_mgetFind _ _ (by decide)) h
  unfold State.mget
  split
  · exact tokOk_of (view_fail _ _ _ (by decide)) h
  split
  · exact tokOk_of (view_fail _ _ _ (by decide)) h
  exact tok_ite _ _ _ (tok_pumpReads _ _ (tokOk_of (view_setCmd _ _ _ (by decide)) (tokOk_of (view_takeRefs _ _ (by decide)) (tok_mgetStart _ _ _ k))))
    (tokOk_of (view_answerGets _ _ (by decide)) (tok_mgetStart _ _ _ k))

@[simp] theorem tok_execMget (cp : Fin 8) (s : State) (h : tokOk (view 268402687 s)) :
    tokOk (view 268402687 (outState (execMget cp s) s)) := by
  unfold execMget
  simp only [outState_next]
  exact tok_runFront _ _ _ _ h (fun c => tok_ite _ _ _ h (tok_checked _ _ _ h (tok_withChecks _ _ _ _ _ h (fun t h => tok_mget _ _ h))))

@[simp] theorem tok_readNodes (s : State) (c : Cmd) (due : List (Nat × Nat)) (h : tokOk (view 268402687 s)) :
    tokOk (view 268402687 (State.readNodes s c due)) := by
  unfold State.readNodes
  simp (maxDischargeDepth := 12) [h]

@[simp] theorem tok_listKeys (s : State) (c : Cmd) (h : tokOk (view 268402687 s)) :
    tokOk (view 268402687 (State.listKeys s c)) := by
  unfold State.listKeys
  dsimp only; (repeat' split) <;> simp [h]

@[simp] theorem tok_goOn (s : State) (c : Cmd) (h : tokOk (view 268402687 s)) :
    tokOk (view 268402687 (State.goOn s c)) := by
  unfold State.goOn
  (repeat' split) <;> simp [h]

@[simp] theorem tok_execList (cp : Fin 8) (s : State) (h : tokOk (view 268402687 s)) :
    tokOk (view 268402687 (outState (execList cp s) s)) := by
  unfold execList
  simp only [outState_next]
  simp (maxDischargeDepth := 12) [h]

@[simp] theorem tok_flush (s : State) (c : Cmd) (h : tokOk (view 268402687 s)) :
    tokOk (view 268402687 (State.flush s c)) := by
  unfold State.flush
  dsimp only; (repeat' split) <;> simp [h]

@[simp] theorem tok_execFlush (cp : Fin 8) (s : State) (h : tokOk (view 268402687 s)) :
    tokOk (view 268402687 (outState (execFlush cp s) s)) := by
  unfold execFlush
  simp only [outState_next]
  refine tok_runFront _ _ _ _ h (fun c => tok_checked _ _ _ h ?_)
  exact tok_flush _ _ h

@[simp] theorem tok_releaseHeld (s : State) (c : Cmd) (h : tokOk (view 268402687 s)) :
    tokOk (view 268402687 (State.releaseHeld s c)) := by
  unfold State.releaseHeld
  dsimp only; (repeat' split) <;> simp [h]

@[simp] theorem tok_cancel (s : State) (c : Cmd) (h : tokOk (view 268402687 s)) :
    tokOk (view 268402687 (State.cancel s c)) := by
  unfold State.cancel
  simp [h]

@[simp] theorem tok_decideAbort (s : State) (c : Cmd) (h : tokOk (view 268402687 s)) :
    tokOk (view 268402687 (State.decideAbort s c)) := by
  unfold State.decideAbort
  dsimp only; (repeat' split) <;> simp [h]

@[simp] theorem tok_execAbort (adm : Nat) (s : State) (h : tokOk (view 268402687 s)) :
    tokOk (view 268402687 (outState (execAbort adm s) s)) := by
  unfold execAbort
  simp only [outState_next]
  (repeat' split) <;> simp [h]

@[simp] theorem tok_execWriteWaitResume (adm : Nat) (s : State) (h : tokOk (view 268402687 s)) :
    tokOk (view 268402687 (outState (execWriteWaitResume adm s) s)) := by
  unfold execWriteWaitResume
  simp only [outState_next]
  (repeat' split) <;> simp [h]

@[simp] theorem tok_admitCmd (s : State) (c : Cmd) (h : tokOk (view 268402687 s)) :
    tokOk (view 268402687 (State.admitCmd s c)) := by
  unfold State.admitCmd
  dsimp only; (repeat' split) <;> simp (maxDischargeDepth := 12) [h]

@[simp] theorem tok_cmdNext (s : State) (x : Session) (seq : BitVec 32) (dg : Bytes) (h : tokOk (view 268402687 s)) :
    tokOk (view 268402687 (State.cmdNext s x seq dg).1) := by
  unfold State.cmdNext
  dsimp only; (repeat' split) <;> simp [h]

@[simp] theorem tok_drainHeld (n : Nat) (s : State) (uid : Nat) (h : tokOk (view 268402687 s)) : tokOk (view 268402687 (State.drainHeld n s uid)) := by
  induction n generalizing s with
  | zero => exact h
  | succ n ih =>
    unfold State.drainHeld
    dsimp only
    (repeat' split) <;> simp (maxDischargeDepth := 12) [ih, h]

@[simp] theorem tok_takeCmd (s : State) (rx : Rx) (dg : Bytes) (x : Session) (k : SkiffIn) (h : tokOk (view 268402687 s)) : tokOk (view 268402687 (s.takeCmd rx dg x k)) := by
  have e1 := tok_cmdNext s x k.seq dg h
  have e2 := tokOk_of (view_holdCmd s x.uid k.seq rx dg (m := 268402687) (by decide)) h
  unfold State.takeCmd
  dsimp only
  repeat' split
  all_goals simp (maxDischargeDepth := 12) [h, e1, e2]

@[simp] theorem tok_execCmd (rx : Rx) (dg : Bytes) (s : State) (h : tokOk (view 268402687 s)) :
    tokOk (view 268402687 (outState (execCmd rx dg s) s)) := by
  unfold execCmd
  simp only [outState_next]
  exact tok_onSession _ _ _ _ _ h (fun t x k h => tok_takeCmd _ _ _ _ _ h)

@[simp] theorem tok_execArpNdEchoRequest (rx : Rx) (kind : EchoKind) (len : Nat) (s : State) (h : tokOk (view 268402687 s)) :
    tokOk (view 268402687 (outState (execArpNdEchoRequest rx kind len s) s)) := by
  unfold execArpNdEchoRequest
  simp only [outState_next]
  simp [h]

@[simp] theorem tok_endConnection (s : State) (uid : Nat) (deliver : Bool) (h : tokOk (view 268402687 s)) :
    tokOk (view 268402687 (State.endConnection s uid deliver)) := by
  unfold State.endConnection
  split
  · exact h
  split
  · exact h
  refine tokOk_of (view_settleQp _ _ (by decide)) (tokOk_of (view_discardOf _ _ (by decide)) (tok_ite _ _ _ ?_ (tok_foldl _ (fun t a h => ?_) _ _ ?_)))
  · refine tok_foldl _ (fun t a h => tok_cancel _ _ h) _ _ (tok_ite _ _ _ ?_ ?_) <;> simp (maxDischargeDepth := 12) [h]
  · simp (maxDischargeDepth := 12) [h]
  · refine tok_foldl _ (fun t a h => tok_cancel _ _ h) _ _ (tok_ite _ _ _ ?_ ?_) <;> simp (maxDischargeDepth := 12) [h]

@[simp] theorem tok_haltQp (s : State) (uid slot : Nat) (h : tokOk (view 268402687 s)) :
    tokOk (view 268402687 (State.haltQp s uid slot)) := by
  unfold State.haltQp
  simp [h]

@[simp] theorem tok_execHostDisconnect (qp : Fin 1024) (s : State) (h : tokOk (view 268402687 s)) :
    tokOk (view 268402687 (outState (execHostDisconnect qp s) s)) := by
  unfold execHostDisconnect
  simp only [outState_next]
  (repeat' split) <;> simp [h]

@[simp] theorem tok_execConnectionFailure (qp : Fin 1024) (s : State) (h : tokOk (view 268402687 s)) :
    tokOk (view 268402687 (outState (execConnectionFailure qp s) s)) := by
  unfold execConnectionFailure
  simp only [outState_next]
  (repeat' split) <;> simp [h]

@[simp] theorem tok_execLocalAckTimeout (qp : Fin 1024) (s : State) (h : tokOk (view 268402687 s)) :
    tokOk (view 268402687 (outState (execLocalAckTimeout qp s) s)) := by
  unfold execLocalAckTimeout
  simp only [outState_next]
  (repeat' split) <;> simp [h]

@[simp] theorem tok_failTransfer (s : State) (uid adm : Nat) (h : tokOk (view 268402687 s)) :
    tokOk (view 268402687 (State.failTransfer s uid adm)) := by
  unfold State.failTransfer
  (repeat' split) <;> simp [h]

@[simp] theorem tok_nakTransfer (s : State) (adm : Nat) (h : tokOk (view 268402687 s)) :
    tokOk (view 268402687 (State.nakTransfer s adm)) := by
  unfold State.nakTransfer
  dsimp only; (repeat' split) <;> simp (maxDischargeDepth := 12) [h]

@[simp] theorem tok_execPayloadTransferNak (adm : Nat) (s : State) (h : tokOk (view 268402687 s)) :
    tokOk (view 268402687 (outState (execPayloadTransferNak adm s) s)) := by
  unfold execPayloadTransferNak
  simp only [outState_next]
  simp [h]

@[simp] theorem tok_ringDoorbell (s : State) (q : Qp) (offset : Nat) (data : Bytes) (h : tokOk (view 268402687 s)) :
    tokOk (view 268402687 (State.ringDoorbell s q offset data)) := by
  unfold State.ringDoorbell
  dsimp only; (repeat' split) <;> simp [h]

@[simp] theorem tok_execDoorbell (qp : Fin 1024) (offset : Nat) (data : Bytes) (s : State) (h : tokOk (view 268402687 s)) :
    tokOk (view 268402687 (outState (execDoorbell qp offset data s) s)) := by
  unfold execDoorbell
  simp only [outState_next]
  (repeat' split) <;> simp [h]

@[simp] theorem tok_ringHeld (l : List (Nat × Bytes)) (s : State) (uid : Nat) (h : tokOk (view 268402687 s)) : tokOk (view 268402687 (State.ringHeld l s uid)) := by
  induction l generalizing s with
  | nil => exact h
  | cons a r ih =>
    unfold State.ringHeld
    split
    · exact ih _ (by simp (maxDischargeDepth := 12) [h])
    · exact h

@[simp] theorem tok_admitEntries (s : State) (uid sqHead : Nat) (l : List (Nat × Bytes)) (h : tokOk (view 268402687 s)) : tokOk (view 268402687 (s.admitEntries uid sqHead l)) := by
  induction l generalizing s with
  | nil => exact h
  | cons a r ih =>
    unfold State.admitEntries
    dsimp only
    (repeat' split) <;> simp (maxDischargeDepth := 12) [ih, h]

@[simp] theorem tok_admitFetched (s : State) (uid : Nat) (entries : List Bytes) (h : tokOk (view 268402687 s)) :
    tokOk (view 268402687 (State.admitFetched s uid entries)) := by
  unfold State.admitFetched
  dsimp only; (repeat' split) <;> simp [h]

@[simp] theorem tok_resumeQp (s : State) (q : Qp) (h : tokOk (view 268402687 s)) :
    tokOk (view 268402687 (State.resumeQp s q)) := by
  unfold State.resumeQp
  dsimp only
  have h1 : tokOk (view 268402687 (q.fetched.foldl (fun s l => s.admitFetched q.uid l) (s.setQp q.uid fun q => { q with held := [], fetched := [] }))) :=
    tok_foldl _ (fun t a h => tok_admitFetched _ _ _ h) _ _ (by simp [h])
  simp (maxDischargeDepth := 12) [h1]

@[simp] theorem tok_execEntryFetchResponse (qp : Fin 1024) (entries : List Bytes) (s : State) (h : tokOk (view 268402687 s)) :
    tokOk (view 268402687 (outState (execEntryFetchResponse qp entries s) s)) := by
  unfold execEntryFetchResponse
  simp only [outState_next]
  (repeat' split) <;> simp [h]

@[simp] theorem tok_beginSlice (s : State) (h : tokOk (view 268402687 s)) :
    tokOk (view 268402687 (State.beginSlice s)) := by
  unfold State.beginSlice
  simp (maxDischargeDepth := 12) [h]

@[simp] theorem tok_endSlice (s : State) (x : Slice) (h : tokOk (view 268402687 s)) :
    tokOk (view 268402687 (State.endSlice s x)) := by
  unfold State.endSlice
  simp (maxDischargeDepth := 12) [h]

@[simp] theorem tok_writeAllSlices (s : State) (h : tokOk (view 268402687 s)) :
    tokOk (view 268402687 (State.writeAllSlices s)) := by
  unfold State.writeAllSlices
  simp [h]

@[simp] theorem tok_relocLane (s : State) (h : tokOk (view 268402687 s)) :
    tokOk (view 268402687 (State.relocLane s).1) := by
  unfold State.relocLane
  (repeat' split) <;> simp [h]

theorem tok_relocUnit (s t : State) (e : s.relocUnit = some t) (h : tokOk (view 268402687 s)) : tokOk (view 268402687 t) := by
  have f1 := tok_relocLane s h
  unfold State.relocUnit at e
  dsimp only at e
  generalize s.relocLane = p at f1 e
  rcases p with ⟨u, _ | g⟩ <;> dsimp only at f1 e
  · split at e <;> simp at e
  · split at e
    · simp at e
    · simp only [Option.map_some, Option.some.injEq] at e
      rw [← e]
      split <;> simp [f1]
@[simp] theorem tok_pumpReloc (s : State) (h : tokOk (view 268402687 s)) :
    tokOk (view 268402687 (State.pumpReloc s)) := by
  unfold State.pumpReloc
  split
  · exact h
  split
  · exact h
  next t e =>
    have h1 := tok_relocUnit _ _ e h
    cases e2 : t.relocUnit with
    | none => simpa [e2] using h1
    | some u => simpa [e2] using tok_relocUnit _ _ e2 h1

@[simp] theorem tok_finishCopy (s : State) (h : tokOk (view 268402687 s)) :
    tokOk (view 268402687 (State.finishCopy s)) := by
  unfold State.finishCopy
  dsimp only; (repeat' split) <;> simp [h]

@[simp] theorem tok_programEnded (s : State) (j : Job) (ch : Nat) (ok : Bool) (h : tokOk (view 268402687 s)) :
    tokOk (view 268402687 (State.programEnded s j ch ok)) := by
  unfold State.programEnded
  dsimp only; (repeat' split) <;> simp [h]

@[simp] theorem tok_execProgramUnitDone (ch : Fin 18) (pos : Fin 4) (ok : Bool) (s : State) (h : tokOk (view 268402687 s)) :
    tokOk (view 268402687 (outState (execProgramUnitDone ch pos ok s) s)) := by
  unfold execProgramUnitDone
  simp only [outState_next]
  (repeat' split) <;> simp (maxDischargeDepth := 12) [h]

@[simp] theorem tok_execDrainPartialRowTimer (st : Stream) (s : State) (h : tokOk (view 268402687 s)) :
    tokOk (view 268402687 (outState (execDrainPartialRowTimer st s) s)) := by
  unfold execDrainPartialRowTimer
  simp only [outState_next]
  simp [h]

@[simp] theorem tok_journalJob (s : State) (j : Job) (h : tokOk (view 268402687 s)) :
    tokOk (view 268402687 (State.journalJob s j)) := by
  unfold State.journalJob
  dsimp only; (repeat' split) <;> simp [h]

@[simp] theorem tok_execDrainRowProgrammed (job : Nat) (s : State) (h : tokOk (view 268402687 s)) :
    tokOk (view 268402687 (outState (execDrainRowProgrammed job s) s)) := by
  unfold execDrainRowProgrammed
  simp only [outState_next]
  (repeat' split) <;> simp [h]

@[simp] theorem tok_execGcRowProgrammed (job : Nat) (s : State) (h : tokOk (view 268402687 s)) :
    tokOk (view 268402687 (outState (execGcRowProgrammed job s) s)) := by
  unfold execGcRowProgrammed
  simp only [outState_next]
  (repeat' split) <;> simp (maxDischargeDepth := 12) [h]

@[simp] theorem tok_journalDead (s : State) (j : Job) (i : JobItem) (ks : Nat) (h : tokOk (view 268402687 s)) :
    tokOk (view 268402687 (State.journalDead s j i ks)) := by
  unfold State.journalDead
  simp [h]

@[simp] theorem tok_execMapRecordDurable (jseq : Nat) (s : State) (h : tokOk (view 268402687 s)) :
    tokOk (view 268402687 (outState (execMapRecordDurable jseq s) s)) := by
  unfold execMapRecordDurable
  simp only [outState_next]
  (repeat' split) <;> simp (maxDischargeDepth := 12) [h]

@[simp] theorem tok_execWriteThroughDone (adm : Nat) (s : State) (h : tokOk (view 268402687 s)) :
    tokOk (view 268402687 (outState (execWriteThroughDone adm s) s)) := by
  unfold execWriteThroughDone
  simp only [outState_next]
  (repeat' split) <;> simp [h]

@[simp] theorem tok_execJournalPageTimer (s : State) (h : tokOk (view 268402687 s)) :
    tokOk (view 268402687 (outState (execJournalPageTimer s) s)) := by
  unfold execJournalPageTimer
  simp only [outState_next]
  simp [h]

@[simp] theorem tok_execCheckpointSlice (s : State) (h : tokOk (view 268402687 s)) :
    tokOk (view 268402687 (outState (execCheckpointSlice s) s)) := by
  unfold execCheckpointSlice
  simp only [outState_next]
  (repeat' split) <;> simp [h]

@[simp] theorem tok_execSegmentSeal (seg : Nat) (s : State) (h : tokOk (view 268402687 s)) :
    tokOk (view 268402687 (outState (execSegmentSeal seg s) s)) := by
  unfold execSegmentSeal
  simp only [outState_next]
  (repeat' split) <;> simp [h]

@[simp] theorem tok_execReclaimSweep (range : Nat) (s : State) (h : tokOk (view 268402687 s)) :
    tokOk (view 268402687 (outState (execReclaimSweep range s) s)) := by
  unfold execReclaimSweep
  simp only [outState_next]
  split
  · exact h
  refine tok_ite _ _ _ h (tok_ite _ _ _ (tok_ite _ _ _ h (tok_askTokens _ _ _ _ h)) (tok_returnFor _ _ ?_))
  refine tok_journalThen _ _ _ _ (tok_foldl _ (fun t a h => ?_) _ _ h)
  exact tok_reclaimKey _ _ _ _ _ h

@[simp] theorem tok_loseKey (s : State) (e : IdxEntry) (f : FRec) (reason : Nat) (h : tokOk (view 268402687 s)) :
    tokOk (view 268402687 (State.loseKey s e f reason)) := by
  unfold State.loseKey
  simp [h]

@[simp] theorem tok_pumpGcReads (s : State) (h : tokOk (view 268402687 s)) :
    tokOk (view 268402687 (State.pumpGcReads s)) := by
  unfold State.pumpGcReads
  refine tok_foldl _ (fun t a h => ?_) _ _ h
  dsimp only
  split
  · exact h
  split
  · exact h
  · exact tok_foldl _ (fun t a h => tok_askTokens _ _ _ _ h) _ _ (tokOk_of (view_setFlash _ _ (by decide)) h)

@[simp] theorem tok_returnAll (s : State) (why : Purpose) (h : tokOk (view 268402687 s)) :
    tokOk (view 268402687 (State.returnAll s why)) := by
  unfold State.returnAll
  dsimp only; refine tok_foldl _ (fun t a h => ?_) _ _ ?_ <;> (repeat' split) <;> simp (maxDischargeDepth := 12) [h]

@[simp] theorem tok_readsEnded (s : State) (adm : Nat) (h : tokOk (view 268402687 s)) :
    tokOk (view 268402687 (State.readsEnded s adm)) := by
  unfold State.readsEnded
  (repeat' split) <;> simp [h]

@[simp] theorem tok_pumpErases (s : State) (h : tokOk (view 268402687 s)) :
    tokOk (view 268402687 (State.pumpErases s)) := by
  unfold State.pumpErases
  refine tok_foldl _ (fun t a h => ?_) _ _ h
  exact tok_foldl _ (fun t a h => tok_askTokens _ _ _ _ h) _ _ (by simp (maxDischargeDepth := 12) [h])

@[simp] theorem tok_listSource (s : State) (h : tokOk (view 268402687 s)) :
    tokOk (view 268402687 (State.listSource s)) := by
  unfold State.listSource
  dsimp only; (repeat' split) <;> simp (maxDischargeDepth := 12) [h]

@[simp] theorem tok_readGiven (s : State) (r : ReadOp) (h : tokOk (view 268402687 s)) :
    tokOk (view 268402687 (State.readGiven s r)) := by
  unfold State.readGiven
  dsimp only; (repeat' split) <;> simp (maxDischargeDepth := 12) [h]

@[simp] theorem tok_readLost (s : State) (r : ReadOp) (h : tokOk (view 268402687 s)) :
    tokOk (view 268402687 (State.readLost s r)) := by
  unfold State.readLost
  (repeat' split) <;> simp [h]

@[simp] theorem tok_readsLost (s : State) (loc : Loc) (h : tokOk (view 268402687 s)) :
    tokOk (view 268402687 (State.readsLost s loc)) := by
  unfold State.readsLost
  split
  · exact tok_foldl _ (fun t a h => tok_readGiven _ _ h) _ _ h
  · exact h

@[simp] theorem tok_readEnded (s : State) (r : ReadOp) (h : tokOk (view 268402687 s)) :
    tokOk (view 268402687 (State.readEnded s r)) := by
  unfold State.readEnded
  dsimp only; (repeat' split) <;> simp (maxDischargeDepth := 12) [h]

@[simp] theorem tok_pageEnded (s : State) (r : ReadOp) (o : ReadOutcome) (h : tokOk (view 268402687 s)) :
    tokOk (view 268402687 (State.pageEnded s r o)) := by
  unfold State.pageEnded
  dsimp only; (repeat' split) <;> simp [h]

@[simp] theorem tok_failPrograms (s : State) (ch pos : Nat) (h : tokOk (view 268402687 s)) :
    tokOk (view 268402687 (State.failPrograms s ch pos)) := by
  unfold State.failPrograms
  refine tok_foldl _ (fun t a h => ?_) _ _ h
  split
  · simp [h]
  · exact tok_programEnded _ _ _ _ h

@[simp] theorem tok_retireDie (s : State) (ch pos : Nat) (h : tokOk (view 268402687 s)) :
    tokOk (view 268402687 (State.retireDie s ch pos)) := by
  unfold State.retireDie
  dsimp only; (repeat' split) <;> simp [h]

@[simp] theorem tok_retireChannel (s : State) (ch : Nat) (h : tokOk (view 268402687 s)) :
    tokOk (view 268402687 (State.retireChannel s ch)) := by
  unfold State.retireChannel
  split
  · exact h
  refine tokOk_of (view_reviewMedia _ (by decide)) (tokOk_of (view_endRebuild _ (by decide)) (tokOk_of (view_startRebuild _ _ (by decide)) (tok_foldl _ (fun t a h => ?_) _ _ ?_)))
  · exact tok_failPrograms _ _ _ h
  · simp (maxDischargeDepth := 12) [h]

@[simp] theorem tok_retireBlock (s : State) (ch pos slot cause : Nat) (h : tokOk (view 268402687 s)) :
    tokOk (view 268402687 (State.retireBlock s ch pos slot cause)) := by
  unfold State.retireBlock
  dsimp only; (repeat' split) <;> simp [h]

@[simp] theorem tok_retireMeta (s : State) (ch pos block cause : Nat) (h : tokOk (view 268402687 s)) :
    tokOk (view 268402687 (State.retireMeta s ch pos block cause)) := by
  unfold State.retireMeta
  simp [h]

@[simp] theorem tok_execDieResetRetry (ch : Fin 18) (pos : Fin 4) (ok : Bool) (s : State) (h : tokOk (view 268402687 s)) :
    tokOk (view 268402687 (outState (execDieResetRetry ch pos ok s) s)) := by
  unfold execDieResetRetry
  simp only [outState_next]
  (repeat' split) <;> simp [h]

@[simp] theorem tok_execChannelRetrain (ch : Fin 18) (ok : Bool) (s : State) (h : tokOk (view 268402687 s)) :
    tokOk (view 268402687 (outState (execChannelRetrain ch ok s) s)) := by
  unfold execChannelRetrain
  simp only [outState_next]
  (repeat' split) <;> simp [h]

@[simp] theorem tok_setAside (s : State) (h : tokOk (view 268402687 s)) :
    tokOk (view 268402687 (State.setAside s)) := by
  unfold State.setAside
  refine tok_pumpErases _ (tokOk_of (view_setFlash _ _ (by decide)) (tok_foldl _ (fun t a h => ?_) _ _ h))
  exact tok_returnAll _ _ (tok_returnAll _ _ (tokOk_of (view_dropRead _ _ (by decide)) h))

@[simp] theorem tok_gcAfresh (s : State) (h : tokOk (view 268402687 s)) :
    tokOk (view 268402687 (State.gcAfresh s)) := by
  unfold State.gcAfresh
  dsimp only; (repeat' split) <;> simp [h]

@[simp] theorem tok_startCopy (s : State) (g : Segment) (why : Nat) (h : tokOk (view 268402687 s)) :
    tokOk (view 268402687 (State.startCopy s g why)) := by
  unfold State.startCopy
  simp [h]

@[simp] theorem tok_execGcSourceStart (s : State) (h : tokOk (view 268402687 s)) :
    tokOk (view 268402687 (outState (execGcSourceStart s) s)) := by
  unfold execGcSourceStart
  simp only [outState_next]
  (repeat' split) <;> simp [h]

@[simp] theorem tok_beginCopy (s : State) (h : tokOk (view 268402687 s)) :
    tokOk (view 268402687 (State.beginCopy s)) := by
  unfold State.beginCopy
  dsimp only; (repeat' split) <;> simp [h]

@[simp] theorem tok_execCopyDone (seg : Nat) (s : State) (h : tokOk (view 268402687 s)) :
    tokOk (view 268402687 (outState (execCopyDone seg s) s)) := by
  unfold execCopyDone
  simp only [outState_next]
  split
  · exact tok_ite _ _ _ h (by simp (maxDischargeDepth := 12) [h])
  · exact h

@[simp] theorem tok_execEraseDone (seg : Nat) (failed : List (Fin 18)) (s : State) (h : tokOk (view 268402687 s)) :
    tokOk (view 268402687 (outState (execEraseDone seg failed s) s)) := by
  unfold execEraseDone
  simp only [outState_next]
  split
  · split
    · exact h
    · refine tokOk_of (view_reviewWear _ (by decide)) (tokOk_of (view_endRebuild _ (by decide)) (tok_journal _ _ _ (tokOk_of (view_freeSeg _ _ (by decide)) (tok_foldl _ (fun t a h => ?_) _ _ ?_))))
      · simp (maxDischargeDepth := 12) [h]
      · exact tokOk_of (view_setFlash _ _ (by decide)) (tok_foldl _ (fun t a h => tok_returnFor _ _ h) _ _ h)
  · exact h

@[simp] theorem tok_scrubSeg (s : State) (g : Segment) (ch pos : Nat) (o : ReadOutcome) (highErrors : Bool) (h : tokOk (view 268402687 s)) :
    tokOk (view 268402687 (State.scrubSeg s g ch pos o highErrors)) := by
  have r : ∀ t : State, tokOk (view 268402687 t) → tokOk (view 268402687 (t.markRefresh g.seg)) := fun t h => tokOk_of (view_markRefresh _ _ (by decide)) h
  have k : ∀ t : State, tokOk (view 268402687 t) → tokOk (view 268402687 (if highErrors then t.markRefresh g.seg else t)) := fun t h => tok_ite _ _ _ (r _ h) h
  have e : ∀ t : State, tokOk (view 268402687 t) → tokOk (view 268402687 ((t.readMarks g.seg ch pos o).recalibrate ch pos (segSlot g.seg))) := fun t h => by simp (maxDischargeDepth := 12) [h]
  have f : tokOk (view 268402687 (s.countRead g.seg ch (17 + readsOf o))) := by simp [h]
  unfold State.scrubSeg
  refine tok_ite _ _ _ (k _ (e _ f)) (tok_foldl _ (fun t a h => ?_) _ _ (r _ (k _ (e _ f))))
  split
  · exact tok_readEnded _ _ (tokOk_of (view_setFlash _ _ (by decide)) h)
  · exact h

@[simp] theorem tok_execScrubBlock (ch : Fin 18) (pos : Fin 4) (slot : Nat) (o : ReadOutcome) (highErrors : Bool) (s : State) (h : tokOk (view 268402687 s)) :
    tokOk (view 268402687 (outState (execScrubBlock ch pos slot o highErrors s) s)) := by
  unfold execScrubBlock
  simp only [outState_next]
  split
  · exact h
  refine tok_ite _ _ _ (tok_ite _ _ _ h (tok_askTokens _ _ _ _ h)) ?_
  have h1 : ∀ f : Flash → Flash, tokOk (view 268402687 (((s.suspendDie ch.val pos.val).returnFor (.scrub ch.val pos.val slot)).setFlash f)) := fun f => tokOk_of (view_setFlash _ _ (by decide)) (tok_returnFor _ _ (by simp [h]))
  split
  · split
    · exact tok_scrubSeg _ _ _ _ _ _ (h1 _)
    · exact h1 _
  · split
    · exact tok_retireMeta _ _ _ _ _ (h1 _)
    · exact tokOk_of (view_recalibrate _ _ _ _ (by decide)) (h1 _)

@[simp] theorem tok_runAct (s : State) (a : JAct) (h : tokOk (view 268402687 s)) :
    tokOk (view 268402687 (State.runAct s a)) := by
  unfold State.runAct
  dsimp only; (repeat' split) <;> simp [h]

@[simp] theorem tok_runActs (s : State) (h : tokOk (view 268402687 s)) :
    tokOk (view 268402687 (State.runActs s)) := by
  unfold State.runActs
  dsimp only; refine tok_foldl _ (fun t a h => ?_) _ _ ?_ <;> (repeat' split) <;> simp (maxDischargeDepth := 12) [h]

@[simp] theorem tok_execJournalPageProgrammed (s : State) (h : tokOk (view 268402687 s)) :
    tokOk (view 268402687 (outState (execJournalPageProgrammed s) s)) := by
  unfold execJournalPageProgrammed
  simp only [outState_next]
  simp (maxDischargeDepth := 12) [h]

@[simp] theorem tok_writeKeys (s : State) (h : tokOk (view 268402687 s)) :
    tokOk (view 268402687 (State.writeKeys s)) := by
  unfold State.writeKeys
  simp [h]

@[simp] theorem tok_mirrorRead (s : State) (ks : Nat) (key : Bytes) (loc : Loc) (h : tokOk (view 268402687 s)) :
    tokOk (view 268402687 (State.mirrorRead s ks key loc).2) := by
  unfold State.mirrorRead
  (repeat' split) <;> simp [h]

@[simp] theorem tok_itemRead (s : State) (i : MSync) (h : tokOk (view 268402687 s)) :
    tokOk (view 268402687 (State.itemRead s i).2) := by
  unfold State.itemRead
  (repeat' split) <;> simp [h]

@[simp] theorem tok_pumpSync (n : Nat) (s : State) (h : tokOk (view 268402687 s)) : tokOk (view 268402687 (State.pumpSync n s)) := by
  induction n generalizing s with
  | zero => exact h
  | succ n ih =>
    unfold State.pumpSync
    split
    · exact h
    split
    · exact h
    rename_i i _ _ _
    have f1 := tok_itemRead s i h
    dsimp only
    split <;> simp (maxDischargeDepth := 12) [ih, f1]

@[simp] theorem tok_internal (s : State) (lseqs : List Nat) (e : Entry) (payload : Bytes) (stamp : Nat) (h : tokOk (view 268402687 s)) :
    tokOk (view 268402687 (State.internal s lseqs e payload stamp)) := by
  unfold State.internal
  simp [h]

@[simp] theorem tok_applyKey (s : State) (lseqs : List Nat) (m : MirrorMsg) (op : Nat) (key tail : Bytes) (h : tokOk (view 268402687 s)) :
    tokOk (view 268402687 (State.applyKey s lseqs m op key tail)) := by
  unfold State.applyKey
  dsimp only; (repeat' split) <;> simp [h]

theorem tok_applyPart (s t : State) (r : MRecv) (e : s.applyPart r = some t) (h : tokOk (view 268402687 s)) : tokOk (view 268402687 t) := by
  unfold State.applyPart at e
  dsimp only at e
  generalize (if fieldAt r.msg.body 0 4 = 0 then [] else _ : Bytes) = v at e
  split at e
  · rw [← Option.some.inj e]; simp (maxDischargeDepth := 12) [h]
  split at e
  · rw [← Option.some.inj e]; simp (maxDischargeDepth := 12) [h]
  split at e
  · cases e
  · rw [← Option.some.inj e]; simp (maxDischargeDepth := 12) [h]

@[simp] theorem tok_applyCfg (s : State) (r : MRecv) (h : tokOk (view 268402687 s)) :
    tokOk (view 268402687 (State.applyCfg s r)) := by
  unfold State.applyCfg
  dsimp only
  split
  · simp [h]
  split
  · simp (maxDischargeDepth := 12) [h]
  split
  · simp (maxDischargeDepth := 12) [h]
  split
  · simp (maxDischargeDepth := 12) [h]
  split
  · simp (maxDischargeDepth := 12) [h]
  split
  · simp (maxDischargeDepth := 12) [h]
  · next k _ _ _ =>
    have h1 : tokOk (view 268402687 (if k.seeding = true then (s.keysOf r.msg.ks.toNat).foldl (fun s b => s.reclaimKey r.msg.ks.toNat s.mbx.admNext b false) s else s)) :=
      tok_ite _ _ _ (tok_foldl _ (fun t a h => by simp [h]) _ _ h) h
    simp (maxDischargeDepth := 12) [h1]

@[simp] theorem tok_endFull (s : State) (ks : Nat) (h : tokOk (view 268402687 s)) :
    tokOk (view 268402687 (State.endFull s ks)) := by
  unfold State.endFull
  split
  · exact h
  · refine tokOk_of (view_logEv _ _ _ _ _ (by decide)) (tokOk_of (view_setMir _ _ (by decide)) (tok_foldl _ (fun t a h => ?_) _ _ h))
    simp (maxDischargeDepth := 12) [h]

@[simp] theorem tok_applyMark (s : State) (r : MRecv) (h : tokOk (view 268402687 s)) :
    tokOk (view 268402687 (State.applyMark s r)) := by
  unfold State.applyMark
  dsimp only; (repeat' split) <;> simp [h]

@[simp] theorem tok_readRepaired (s : State) (r : ReadOp) (f : FRec) (h : tokOk (view 268402687 s)) :
    tokOk (view 268402687 (State.readRepaired s r f)) := by
  unfold State.readRepaired
  (repeat' split) <;> simp (maxDischargeDepth := 12) [h]

@[simp] theorem tok_repaired (s : State) (r : ReadOp) (val : Bytes) (h : tokOk (view 268402687 s)) :
    tokOk (view 268402687 (State.repaired s r val)) := by
  unfold State.repaired
  dsimp only; (repeat' split) <;> simp (maxDischargeDepth := 12) [h]

@[simp] theorem tok_takeRepair (s : State) (r : MRecv) (h : tokOk (view 268402687 s)) :
    tokOk (view 268402687 (State.takeRepair s r)) := by
  unfold State.takeRepair
  have g : ∀ (l : List ReadOp) (v : Bytes) (t : State), tokOk (view 268402687 t) → tokOk (view 268402687 (l.foldl (fun s x => if s.repairable r.msg.ks.toNat r.msg.key then s.repaired x v else s.readLost x) t)) := by
    intro l v t h
    refine tok_foldl _ (fun t a h => ?_) _ _ h
    split
    · exact tok_repaired _ _ _ h
    · exact tok_readLost _ _ h
  refine tok_ite _ _ _ (tok_foldl _ (fun t a h => tok_readLost _ _ h) _ _ h) (tok_ite _ _ _ (g _ _ _ (tokOk_of (view_setMir _ _ (by decide)) h)) (tokOk_of (view_setMir _ _ (by decide)) h))

@[simp] theorem tok_applyOther (s : State) (r : MRecv) (h : tokOk (view 268402687 s)) :
    tokOk (view 268402687 (State.applyOther s r)) := by
  unfold State.applyOther
  (repeat' split) <;> simp [h]

@[simp] theorem tok_repairRead (s : State) (r : MRecv) (h : tokOk (view 268402687 s)) :
    tokOk (view 268402687 (State.repairRead s r)) := by
  unfold State.repairRead
  cases s.repairLoc r <;> simp (maxDischargeDepth := 12) [h]

@[simp] theorem tok_askRepair (s : State) (h : tokOk (view 268402687 s)) :
    tokOk (view 268402687 (State.askRepair s)) := by
  unfold State.askRepair
  split
  · exact tok_ite _ _ _ (by simp (maxDischargeDepth := 12) [h]) h
  · exact h

theorem tok_applyNext (s t : State) (e : s.applyNext = some t) (h : tokOk (view 268402687 s)) : tokOk (view 268402687 t) := by
  unfold State.applyNext at e
  split at e
  · cases e
  split at e
  · split at e
    · cases e
    split at e
    · exact tok_applyPart _ _ _ e h
    split at e <;> (rw [← Option.some.inj e]; simp (maxDischargeDepth := 12) [h])
  · split at e
    · split at e
      · cases e
      · rw [← Option.some.inj e]; simp (maxDischargeDepth := 12) [h]
    · cases e

@[simp] theorem tok_applyAll (n : Nat) (s : State) (h : tokOk (view 268402687 s)) : tokOk (view 268402687 (State.applyAll n s)) := by
  induction n generalizing s with
  | zero => exact h
  | succ n ih =>
    unfold State.applyAll
    split
    next t e => exact ih _ (tok_applyNext _ _ e h)
    · exact tok_askRepair _ h

@[simp] theorem tok_mirrorTurn (s : State) (h : tokOk (view 268402687 s)) :
    tokOk (view 268402687 (State.mirrorTurn s)) := by
  unfold State.mirrorTurn
  exact tok_ite _ _ _ h (by simp (maxDischargeDepth := 12) [h])

@[simp] theorem tok_mirrorNext (s : State) (n typ : Nat) (m : MirrorMsg) (h : tokOk (view 268402687 s)) :
    tokOk (view 268402687 (State.mirrorNext s n typ m)) := by
  unfold State.mirrorNext
  simp [h]

@[simp] theorem tok_mirrorReceive (s : State) (typ : Nat) (m : MirrorMsg) (h : tokOk (view 268402687 s)) :
    tokOk (view 268402687 (State.mirrorReceive s typ m)) := by
  unfold State.mirrorReceive
  dsimp only; (repeat' split) <;> simp [h]

theorem tok_rebuildPage (s t : State) (r : ReadOp) (g : Segment) (byte ch : Nat) (e : s.rebuildPage r g byte ch = some t) (h : tokOk (view 268402687 s)) : tokOk (view 268402687 t) := by
  unfold State.rebuildPage at e
  dsimp only at e
  split at e
  · obtain rfl := Option.some.inj e
    split
    · exact h
    · exact tok_foldl _ (fun t a h => tok_askTokens _ _ _ _ h) _ _ h
  · split at e
    · obtain rfl := Option.some.inj e
      exact h
    · simp at e
@[simp] theorem tok_rowRead (s : State) (r : ReadOp) (g : Segment) (byte ch : Nat) (h : tokOk (view 268402687 s)) :
    tokOk (view 268402687 (State.rowRead s r g byte ch)) := by
  unfold State.rowRead
  simp (maxDischargeDepth := 12) [h]

@[simp] theorem tok_execPageReadDone (read : Nat) (o : ReadOutcome) (s : State) (h : tokOk (view 268402687 s)) :
    tokOk (view 268402687 (outState (execPageReadDone read o s) s)) := by
  unfold execPageReadDone
  simp only [outState_next]
  split
  · split
    · simp [h]
    split
    · exact h
    split
    · exact h
    split
    · next t e =>
        split at e
        · exact tok_rebuildPage _ _ _ _ _ _ e h
        · simp at e
    · (repeat' split) <;> simp (maxDischargeDepth := 12) [h]
  · exact h

@[simp] theorem tok_execMirrorHelloAck (rx : Rx) (body : Bytes) (s : State) (h : tokOk (view 268402687 s)) :
    tokOk (view 268402687 (outState (execMirrorHelloAck rx body s) s)) := by
  unfold execMirrorHelloAck
  simp only [outState_next]
  (repeat' split) <;> simp [h]

@[simp] theorem tok_execMirrorPut (m : MirrorMsg) (s : State) (h : tokOk (view 268402687 s)) :
    tokOk (view 268402687 (outState (execMirrorPut m s) s)) := by
  unfold execMirrorPut
  simp only [outState_next]
  simp [h]

@[simp] theorem tok_execMirrorDelete (m : MirrorMsg) (s : State) (h : tokOk (view 268402687 s)) :
    tokOk (view 268402687 (outState (execMirrorDelete m s) s)) := by
  unfold execMirrorDelete
  simp only [outState_next]
  simp [h]

@[simp] theorem tok_execMirrorRange (m : MirrorMsg) (s : State) (h : tokOk (view 268402687 s)) :
    tokOk (view 268402687 (outState (execMirrorRange m s) s)) := by
  unfold execMirrorRange
  simp only [outState_next]
  simp [h]

@[simp] theorem tok_execMirrorAck (m : MirrorMsg) (s : State) (h : tokOk (view 268402687 s)) :
    tokOk (view 268402687 (outState (execMirrorAck m s) s)) := by
  unfold execMirrorAck
  simp only [outState_next]
  simp [h]

@[simp] theorem tok_execHeartbeat (m : MirrorMsg) (s : State) (h : tokOk (view 268402687 s)) :
    tokOk (view 268402687 (outState (execHeartbeat m s) s)) := by
  unfold execHeartbeat
  simp only [outState_next]
  simp [h]

@[simp] theorem tok_execRepairReq (m : MirrorMsg) (s : State) (h : tokOk (view 268402687 s)) :
    tokOk (view 268402687 (outState (execRepairReq m s) s)) := by
  unfold execRepairReq
  simp only [outState_next]
  simp [h]

@[simp] theorem tok_execRepairRsp (m : MirrorMsg) (s : State) (h : tokOk (view 268402687 s)) :
    tokOk (view 268402687 (outState (execRepairRsp m s) s)) := by
  unfold execRepairRsp
  simp only [outState_next]
  simp [h]

@[simp] theorem tok_execKsCfg (m : MirrorMsg) (s : State) (h : tokOk (view 268402687 s)) :
    tokOk (view 268402687 (outState (execKsCfg m s) s)) := by
  unfold execKsCfg
  simp only [outState_next]
  simp [h]

@[simp] theorem tok_execSyncMark (m : MirrorMsg) (s : State) (h : tokOk (view 268402687 s)) :
    tokOk (view 268402687 (outState (execSyncMark m s) s)) := by
  unfold execSyncMark
  simp only [outState_next]
  simp [h]

@[simp] theorem tok_execRefuse (m : MirrorMsg) (s : State) (h : tokOk (view 268402687 s)) :
    tokOk (view 268402687 (outState (execRefuse m s) s)) := by
  unfold execRefuse
  simp only [outState_next]
  simp [h]

@[simp] theorem tok_execMirrorClose (m : MirrorMsg) (s : State) (h : tokOk (view 268402687 s)) :
    tokOk (view 268402687 (outState (execMirrorClose m s) s)) := by
  unfold execMirrorClose
  simp only [outState_next]
  simp [h]

@[simp] theorem tok_execHeartbeatSend (s : State) (h : tokOk (view 268402687 s)) :
    tokOk (view 268402687 (outState (execHeartbeatSend s) s)) := by
  unfold execHeartbeatSend
  simp only [outState_next]
  (repeat' split) <;> simp [h]

@[simp] theorem tok_execRepairTimeout (read : Nat) (s : State) (h : tokOk (view 268402687 s)) :
    tokOk (view 268402687 (outState (execRepairTimeout read s) s)) := by
  unfold execRepairTimeout
  simp only [outState_next]
  (repeat' split) <;> simp [h]

@[simp] theorem tok_execRefusedProbe (ks : Fin 64) (s : State) (h : tokOk (view 268402687 s)) :
    tokOk (view 268402687 (outState (execRefusedProbe ks s) s)) := by
  unfold execRefusedProbe
  simp only [outState_next]
  (repeat' split) <;> simp [h]

@[simp] theorem tok_execDeltaResyncStart (s : State) (h : tokOk (view 268402687 s)) :
    tokOk (view 268402687 (outState (execDeltaResyncStart s) s)) := by
  unfold execDeltaResyncStart
  simp only [outState_next]
  split
  · exact h
  refine tok_mirrorTurn _ (tok_foldl _ (fun t a h => ?_) _ _ (tok_foldl _ (fun t a h => ?_) _ _ (tokOk_of (view_setMir _ _ (by decide)) h)))
  · (repeat' split) <;> simp (maxDischargeDepth := 12) [h]
  · simp (maxDischargeDepth := 12) [h]

@[simp] theorem tok_resyncCmd (s : State) (c : Cmd) (h : tokOk (view 268402687 s)) :
    tokOk (view 268402687 (State.resyncCmd s c)) := by
  unfold State.resyncCmd
  dsimp only; (repeat' split) <;> simp (maxDischargeDepth := 12) [h]

@[simp] theorem tok_execResync (s : State) (h : tokOk (view 268402687 s)) :
    tokOk (view 268402687 (outState (execResync s) s)) := by
  unfold execResync
  simp only [outState_next]
  simp [h]

@[simp] theorem tok_copyEvents (s : State) (h : tokOk (view 268402687 s)) :
    tokOk (view 268402687 (State.copyEvents s)) := by
  unfold State.copyEvents
  dsimp only; (repeat' split) <;> simp [h]

@[simp] theorem tok_finalCopy (s : State) (h : tokOk (view 268402687 s)) :
    tokOk (view 268402687 (State.finalCopy s)) := by
  unfold State.finalCopy
  simp [h]

@[simp] theorem tok_execEvrFlashCopy (s : State) (h : tokOk (view 268402687 s)) :
    tokOk (view 268402687 (outState (execEvrFlashCopy s) s)) := by
  unfold execEvrFlashCopy
  simp only [outState_next]
  (repeat' split) <;> simp [h]

@[simp] theorem tok_execEvrMemFault (flashRing : Bool) (bank : Nat) (s : State) (h : tokOk (view 268402687 s)) :
    tokOk (view 268402687 (outState (execEvrMemFault flashRing bank s) s)) := by
  unfold execEvrMemFault
  simp only [outState_next]
  (repeat' split) <;> simp [h]

@[simp] theorem tok_setPhyGrant (s : State) (p : Fin 2) (n : Nat) (h : tokOk (view 268402687 s)) :
    tokOk (view 268402687 (State.setPhyGrant s p n)) := by
  unfold State.setPhyGrant
  simp [h]

@[simp] theorem tok_train (s : State) (p : Fin 2) (h : tokOk (view 268402687 s)) :
    tokOk (view 268402687 (State.train s p)) := by
  unfold State.train
  simp [h]

@[simp] theorem tok_retrain (s : State) (h : tokOk (view 268402687 s)) :
    tokOk (view 268402687 (State.retrain s)) := by
  unfold State.retrain
  dsimp only; (repeat' split) <;> simp [h]

@[simp] theorem tok_raisePort (s : State) (p : Fin 2) (h : tokOk (view 268402687 s)) :
    tokOk (view 268402687 (State.raisePort s p)) := by
  unfold State.raisePort
  simp [h]

@[simp] theorem tok_dropLink (s : State) (p : Fin 2) (h : tokOk (view 268402687 s)) :
    tokOk (view 268402687 (State.dropLink s p)) := by
  unfold State.dropLink
  dsimp only; (repeat' split) <;> simp [h]

@[simp] theorem tok_startNego (s : State) (p : Fin 2) (cause : Nat) (cap : Option Nat) (h : tokOk (view 268402687 s)) :
    tokOk (view 268402687 (State.startNego s p cause cap)) := by
  unfold State.startNego
  simp [h]

@[simp] theorem tok_endNego (s : State) (p : Fin 2) (h : tokOk (view 268402687 s)) :
    tokOk (view 268402687 (State.endNego s p)) := by
  unfold State.endNego
  dsimp only; (repeat' split) <;> simp [h]

@[simp] theorem tok_execLinkUp (port : Fin 2) (l : LinkInfo) (s : State) (h : tokOk (view 268402687 s)) :
    tokOk (view 268402687 (outState (execLinkUp port l s) s)) := by
  unfold execLinkUp
  simp only [outState_next]
  simp (maxDischargeDepth := 12) [h]

@[simp] theorem tok_stopTraining (s : State) (p : Fin 2) (h : tokOk (view 268402687 s)) :
    tokOk (view 268402687 (State.stopTraining s p)) := by
  unfold State.stopTraining
  (repeat' split) <;> simp [h]

@[simp] theorem tok_execLinkDown (port : Fin 2) (s : State) (h : tokOk (view 268402687 s)) :
    tokOk (view 268402687 (outState (execLinkDown port s) s)) := by
  unfold execLinkDown
  simp only [outState_next]
  simp (maxDischargeDepth := 12) [h]

@[simp] theorem tok_execTrainingFailure (port : Fin 2) (rate : Fin 4) (s : State) (h : tokOk (view 268402687 s)) :
    tokOk (view 268402687 (outState (execTrainingFailure port rate s) s)) := by
  unfold execTrainingFailure
  simp only [outState_next]
  (repeat' split) <;> simp [h]

@[simp] theorem tok_portReset (s : State) (p : Fin 2) (h : tokOk (view 268402687 s)) :
    tokOk (view 268402687 (State.portReset s p)) := by
  unfold State.portReset
  have r : ∀ (t : State) (c : Prop) [Decidable c], tokOk (view 268402687 t) → tokOk (view 268402687 (if c then t.resetEnds else t)) := fun t c _ h => tok_ite _ _ _ (by simp (maxDischargeDepth := 12) [h]) h
  exact r _ _ (tok_foldl _ (fun t a h => tok_endConnection _ _ _ h) _ _ (tokOk_of (view_setPtp _ _ (by decide)) (tokOk_of (view_setPort _ _ _ (by decide)) (tok_dropLink _ _ h))))

@[simp] theorem tok_retirePort (s : State) (p : Fin 2) (h : tokOk (view 268402687 s)) :
    tokOk (view 268402687 (State.retirePort s p)) := by
  unfold State.retirePort
  simp [h]

@[simp] theorem tok_execPortReset (port : Fin 2) (selfTestOk : Bool) (s : State) (h : tokOk (view 268402687 s)) :
    tokOk (view 268402687 (outState (execPortReset port selfTestOk s) s)) := by
  unfold execPortReset
  simp only [outState_next]
  split
  · exact h
  have k : tokOk (view 268402687 ((s.portReset port).setPort port fun q => { q with resetFails := if selfTestOk then 0 else q.resetFails + 1 })) :=
    tokOk_of (view_setPort _ _ _ (by decide)) (tok_portReset _ _ h)
  have j : ∀ t : State, tokOk (view 268402687 t) → tokOk (view 268402687 ((if selfTestOk then t.train port else t).markSvcPort port)) := fun t h => by
    refine tokOk_of (view_markSvcPort _ _ (by decide)) (tok_ite _ _ _ ?_ h)
    simp (maxDischargeDepth := 12) [h]
  exact tok_ite _ _ _ (tok_retirePort _ _ (j _ k)) (j _ k)

@[simp] theorem tok_execMacnFcCfgWrite (port : Fin 2) (v : Word) (s : State) (h : tokOk (view 268402687 s)) :
    tokOk (view 268402687 (outState (execMacnFcCfgWrite port v s) s)) := by
  unfold execMacnFcCfgWrite
  simp only [outState_next]
  simp (maxDischargeDepth := 12) [h]

@[simp] theorem tok_execRenegotiate (port : Fin 2) (s : State) (h : tokOk (view 268402687 s)) :
    tokOk (view 268402687 (outState (execRenegotiate port s) s)) := by
  unfold execRenegotiate
  simp only [outState_next]
  simp [h]

@[simp] theorem tok_execTrafficSample (s0 s1 : TrafficSample) (s : State) (h : tokOk (view 268402687 s)) :
    tokOk (view 268402687 (outState (execTrafficSample s0 s1 s) s)) := by
  unfold execTrafficSample
  simp only [outState_next]
  (repeat' split) <;> simp [h]

@[simp] theorem tok_execFrameReceived (port : Fin 2) (f : RxFrame) (s : State) (h : tokOk (view 268402687 s)) :
    tokOk (view 268402687 (outState (execFrameReceived port f s) s)) := by
  unfold execFrameReceived
  simp only [outState_next]
  have p : ∀ (t : State) (f : Port → Port), tokOk (view 268402687 t) → tokOk (view 268402687 (t.setPort port f)) := fun t f h => tokOk_of (view_setPort _ _ _ (by decide)) h
  refine tok_ite _ _ _ h ?_
  have h1 : tokOk (view 268402687 (if f.symbolErr then (s.activity port).setPort port fun q => q.count 15 1 else s.activity port)) := by
    refine tok_ite _ _ _ (p _ _ ?_) ?_ <;> simp [h]
  generalize (if f.symbolErr then (s.activity port).setPort port fun q => q.count 15 1 else s.activity port) = t at h1
  iterate 5 refine tok_ite _ _ _ (by first | exact h1 | exact p _ _ h1) ?_
  have w : tokOk (view 268402687 (if f.dst = (t.setPort port fun q => q.goodRx f).macOf port then (t.setPort port fun q => q.goodRx f).wake else t.setPort port fun q => q.goodRx f)) := by
    refine tok_ite _ _ _ ?_ ?_ <;> simp [h1]
  generalize (if f.dst = (t.setPort port fun q => q.goodRx f).macOf port then (t.setPort port fun q => q.goodRx f).wake else t.setPort port fun q => q.goodRx f) = u at w
  iterate 4 refine tok_ite _ _ _ (by first | exact w | exact p _ _ w) ?_
  refine tok_ite _ _ _ (tokOk_of (view_setTr _ _ (by decide)) w) ?_
  simp (maxDischargeDepth := 12) [w]

@[simp] theorem tok_closeTable (s : State) (h : tokOk (view 268402687 s)) :
    tokOk (view 268402687 (State.closeTable s)) := by
  unfold State.closeTable
  (repeat' split) <;> simp [h]

@[simp] theorem tok_portsDown (s : State) (h : tokOk (view 268402687 s)) :
    tokOk (view 268402687 (State.portsDown s)) := by
  unfold State.portsDown
  simp [h]

@[simp] theorem tok_stopUngranted (s : State) (h : tokOk (view 268402687 s)) :
    tokOk (view 268402687 (State.stopUngranted s)) := by
  unfold State.stopUngranted
  simp [h]

@[simp] theorem tok_beginSequence (s : State) (mark : Life → Life) (hc : ∀ l, (mark l).clock = l.clock) (h : tokOk (view 268402687 s)) : tokOk (view 268402687 (s.beginSequence mark)) := by
  unfold State.beginSequence
  simp (maxDischargeDepth := 12) [h, hc]

@[simp] theorem tok_flushPages (s : State) (h : tokOk (view 268402687 s)) :
    tokOk (view 268402687 (State.flushPages s)) := by
  unfold State.flushPages
  simp (maxDischargeDepth := 12) [h]

@[simp] theorem tok_closeJournal (s : State) (h : tokOk (view 268402687 s)) :
    tokOk (view 268402687 (State.closeJournal s)) := by
  unfold State.closeJournal
  simp (maxDischargeDepth := 12) [h]

@[simp] theorem tok_startInstant (s : State) (cause : Nat) (maint : Bool) (slot : Option Nat) (h : tokOk (view 268402687 s)) :
    tokOk (view 268402687 (State.startInstant s cause maint slot)) := by
  unfold State.startInstant
  simp [h]

@[simp] theorem tok_fullReset (s : State) (r : FullReset) (ended : Bool) (h : tokOk (view 268402687 s)) :
    tokOk (view 268402687 (State.fullReset s r ended)) := by
  unfold State.fullReset
  dsimp only; (repeat' split) <;> simp (maxDischargeDepth := 12) [h]

@[simp] theorem tok_requestFull (s : State) (r : FullReset) (h : tokOk (view 268402687 s)) :
    tokOk (view 268402687 (State.requestFull s r)) := by
  unfold State.requestFull
  (repeat' split) <;> simp [h]

@[simp] theorem tok_startCharge (s : State) (h : tokOk (view 268402687 s)) :
    tokOk (view 268402687 (State.startCharge s)) := by
  unfold State.startCharge
  (repeat' split) <;> simp [h]

@[simp] theorem tok_stopCharge (s : State) (h : tokOk (view 268402687 s)) :
    tokOk (view 268402687 (State.stopCharge s)) := by
  unfold State.stopCharge
  simp [h]

@[simp] theorem tok_closeAllShort (s : State) (h : tokOk (view 268402687 s)) :
    tokOk (view 268402687 (State.closeAllShort s)) := by
  unfold State.closeAllShort
  refine tok_pumpSummaries _ (tok_foldl _ (fun t a h => ?_) _ _ h)
  exact tokOk_of (view_closeShort _ _ (by decide)) h

@[simp] theorem tok_cancelAll (s : State) (h : tokOk (view 268402687 s)) :
    tokOk (view 268402687 (State.cancelAll s)) := by
  unfold State.cancelAll
  refine tok_foldl _ (fun t a h => ?_) _ _ (tok_foldl _ (fun t a h => ?_) _ _ (tok_foldl _ (fun t a h => ?_) _ _ h))
  · split
    · exact tok_cancel _ _ h
    · exact h
  · simp (maxDischargeDepth := 12) [h]
  · split
    · exact tok_checked _ _ _ h (by simp (maxDischargeDepth := 12) [h])
    · exact h

@[simp] theorem tok_dropUnits (s : State) (h : tokOk (view 268402687 s)) :
    tokOk (view 268402687 (State.dropUnits s)) := by
  unfold State.dropUnits
  dsimp only; refine tok_foldl _ (fun t a h => ?_) _ _ ?_ <;> (repeat' split) <;> simp (maxDischargeDepth := 12) [h]

@[simp] theorem tok_dropSlice (s : State) (h : tokOk (view 268402687 s)) :
    tokOk (view 268402687 (State.dropSlice s)) := by
  unfold State.dropSlice
  dsimp only; (repeat' split) <;> simp [h]

@[simp] theorem tok_beginService (s : State) (sv : SvcReset) (h : tokOk (view 268402687 s)) :
    tokOk (view 268402687 (State.beginService s sv)) := by
  unfold State.beginService
  simp [h]

@[simp] theorem tok_fwdBlock (s : State) (i : Nat) (h : tokOk (view 268402687 s)) :
    tokOk (view 268402687 (State.fwdBlock s i)) := by
  unfold State.fwdBlock
  simp (maxDischargeDepth := 12) [h]

@[simp] theorem tok_fwdPump (s : State) (h : tokOk (view 268402687 s)) :
    tokOk (view 268402687 (State.fwdPump s)) := by
  unfold State.fwdPump
  refine tok_ite _ _ _ h (tok_ite _ _ _ (by simp (maxDischargeDepth := 12) [h]) (tok_foldl _ (fun t a h => ?_) _ _ h))
  simp (maxDischargeDepth := 12) [h]

@[simp] theorem tok_askVerify (s : State) (h : tokOk (view 268402687 s)) :
    tokOk (view 268402687 (State.askVerify s)) := by
  unfold State.askVerify
  simp [h]

@[simp] theorem tok_beginActivation (s : State) (adm : Option Nat) (h : tokOk (view 268402687 s)) :
    tokOk (view 268402687 (State.beginActivation s adm)) := by
  unfold State.beginActivation
  dsimp only
  split
  · exact tok_requestFull _ _ (tokOk_of (view_setUpd _ _ (by decide)) h)
  · split
    · rw [view_leave _ _ _ (by decide), view_setUpd _ _ (by decide)]; exact h
    · rw [view_setUpd _ _ (by decide)]; exact h

@[simp] theorem tok_activate (s : State) (c : Cmd) (h : tokOk (view 268402687 s)) :
    tokOk (view 268402687 (State.activate s c)) := by
  unfold State.activate
  simp [h]

@[simp] theorem tok_fallback (s : State) (cause : Nat) (h : tokOk (view 268402687 s)) :
    tokOk (view 268402687 (State.fallback s cause)) := by
  unfold State.fallback
  dsimp only; (repeat' split) <;> simp [h]

@[simp] theorem tok_blockComplete (s : State) (c : Cmd) (src : UpdSrc) (i : Nat) (data : Bytes) (h : tokOk (view 268402687 s)) :
    tokOk (view 268402687 (State.blockComplete s c src i data)) := by
  unfold State.blockComplete
  simp (maxDischargeDepth := 12) [h]

@[simp] theorem tok_block (s : State) (c : Cmd) (h : tokOk (view 268402687 s)) :
    tokOk (view 268402687 (State.block s c)) := by
  unfold State.block
  dsimp only; (repeat' split) <;> simp [h]

@[simp] theorem tok_execUpdBlock (s : State) (h : tokOk (view 268402687 s)) :
    tokOk (view 268402687 (outState (execUpdBlock s) s)) := by
  unfold execUpdBlock
  simp only [outState_next]
  simp [h]

@[simp] theorem tok_activateCmd (s : State) (c : Cmd) (h : tokOk (view 268402687 s)) :
    tokOk (view 268402687 (State.activateCmd s c)) := by
  unfold State.activateCmd
  dsimp only; (repeat' split) <;> simp [h]

@[simp] theorem tok_execUpdActivate (s : State) (h : tokOk (view 268402687 s)) :
    tokOk (view 268402687 (outState (execUpdActivate s) s)) := by
  unfold execUpdActivate
  simp only [outState_next]
  simp [h]

@[simp] theorem tok_decideWaiting (s : State) (h : tokOk (view 268402687 s)) :
    tokOk (view 268402687 (State.decideWaiting s)) := by
  unfold State.decideWaiting
  dsimp only; refine tok_foldl _ (fun t a h => ?_) _ _ ?_ <;> (repeat' split) <;> simp (maxDischargeDepth := 12) [h]

@[simp] theorem tok_verified (s : State) (badBlocks : List Nat) (h : tokOk (view 268402687 s)) :
    tokOk (view 268402687 (State.verified s badBlocks)) := by
  unfold State.verified
  dsimp only; (repeat' split) <;> simp [h]

@[simp] theorem tok_execUpdVerificationDone (badBlocks : List Nat) (s : State) (h : tokOk (view 268402687 s)) :
    tokOk (view 268402687 (outState (execUpdVerificationDone badBlocks s) s)) := by
  unfold execUpdVerificationDone
  simp only [outState_next]
  (repeat' split) <;> simp [h]

@[simp] theorem tok_execCfForwardResponse (a : FwdAnswer) (s : State) (h : tokOk (view 268402687 s)) :
    tokOk (view 268402687 (outState (execCfForwardResponse a s) s)) := by
  unfold execCfForwardResponse
  simp only [outState_next]
  (repeat' split) <;> simp [h]

@[simp] theorem tok_execSelfActivation (s : State) (h : tokOk (view 268402687 s)) :
    tokOk (view 268402687 (outState (execSelfActivation s) s)) := by
  unfold execSelfActivation
  simp only [outState_next]
  (repeat' split) <;> simp [h]

@[simp] theorem tok_stepEffect (s : State) (step slot : Nat) (h : tokOk (view 268402687 s)) :
    tokOk (view 268402687 (State.stepEffect s step slot)) := by
  unfold State.stepEffect
  dsimp only; (repeat' split) <;> simp [h]

@[simp] theorem tok_execActivationStepDone (e : StepEnd) (s : State) (h : tokOk (view 268402687 s)) :
    tokOk (view 268402687 (outState (execActivationStepDone e s) s)) := by
  unfold execActivationStepDone
  simp only [outState_next]
  (repeat' split) <;> simp [h]

@[simp] theorem tok_watchSelfTest (s : State) (h : tokOk (view 268402687 s)) :
    tokOk (view 268402687 (State.watchSelfTest s)) := by
  unfold State.watchSelfTest
  dsimp only
  split
  · exact tok_fallback _ _ h
  · exact h

@[simp] theorem tok_execConfirmTimeout (s : State) (h : tokOk (view 268402687 s)) :
    tokOk (view 268402687 (outState (execConfirmTimeout s) s)) := by
  unfold execConfirmTimeout
  simp only [outState_next]
  simp [h]

@[simp] theorem tok_enterPs (s : State) (n : Fin 5) (h : tokOk (view 268402687 s)) :
    tokOk (view 268402687 (State.enterPs s n)) := by
  unfold State.enterPs
  simp [h]

@[simp] theorem tok_execPsIdleExpiry (ps : Fin 5) (s : State) (h : tokOk (view 268402687 s)) :
    tokOk (view 268402687 (outState (execPsIdleExpiry ps s) s)) := by
  unfold execPsIdleExpiry
  simp only [outState_next]
  simp [h]

@[simp] theorem tok_execWakeEvent (w : WakeSource) (s : State) (h : tokOk (view 268402687 s)) :
    tokOk (view 268402687 (outState (execWakeEvent w s) s)) := by
  unfold execWakeEvent
  simp only [outState_next]
  (repeat' split) <;> simp [h]

@[simp] theorem tok_ps4EntryPort (s : State) (p : Fin 2) (h : tokOk (view 268402687 s)) :
    tokOk (view 268402687 (State.ps4EntryPort s p)) := by
  unfold State.ps4EntryPort
  refine tok_ite _ _ _ ?_ h
  have k := tok_foldl (fun (s : State) (x : Qp) => s.endConnection x.uid false) (fun t a h => tok_endConnection _ _ _ h)
  simp (maxDischargeDepth := 12) [h, k]

@[simp] theorem tok_ps4Entry (s : State) (h : tokOk (view 268402687 s)) :
    tokOk (view 268402687 (State.ps4Entry s)) := by
  unfold State.ps4Entry
  exact tok_ps4EntryPort _ _ (tok_ps4EntryPort _ _ h)

@[simp] theorem tok_ps4ExitPort (s : State) (p : Fin 2) (h : tokOk (view 268402687 s)) :
    tokOk (view 268402687 (State.ps4ExitPort s p)) := by
  unfold State.ps4ExitPort
  simp [h]

@[simp] theorem tok_ps4Exit (s : State) (h : tokOk (view 268402687 s)) :
    tokOk (view 268402687 (State.ps4Exit s)) := by
  unfold State.ps4Exit
  dsimp only; (repeat' split) <;> simp [h]

@[simp] theorem tok_enterPs0 (s : State) (h : tokOk (view 268402687 s)) :
    tokOk (view 268402687 (State.enterPs0 s)) := by
  unfold State.enterPs0
  simp (maxDischargeDepth := 12) [h]

@[simp] theorem tok_execPowerStateTransitionDone (s : State) (h : tokOk (view 268402687 s)) :
    tokOk (view 268402687 (outState (execPowerStateTransitionDone s) s)) := by
  unfold execPowerStateTransitionDone
  simp only [outState_next]
  simp (maxDischargeDepth := 12) [h]

@[simp] theorem tok_reviewClass (s : State) (h : tokOk (view 268402687 s)) :
    tokOk (view 268402687 (State.reviewClass s)) := by
  unfold State.reviewClass
  simp [h]

@[simp] theorem tok_evalIlimit (s : State) (h : tokOk (view 268402687 s)) :
    tokOk (view 268402687 (State.evalIlimit s)) := by
  unfold State.evalIlimit
  dsimp only; (repeat' split) <;> simp [h]

@[simp] theorem tok_execPwrclsChange (pads : Fin 8) (s : State) (h : tokOk (view 268402687 s)) :
    tokOk (view 268402687 (outState (execPwrclsChange pads s) s)) := by
  unfold execPwrclsChange
  simp only [outState_next]
  (repeat' split) <;> simp [h]

@[simp] theorem tok_execIlimitEvaluation (sample : InputSample) (s : State) (h : tokOk (view 268402687 s)) :
    tokOk (view 268402687 (outState (execIlimitEvaluation sample s) s)) := by
  unfold execIlimitEvaluation
  simp only [outState_next]
  (repeat' split) <;> simp [h]

@[simp] theorem tok_execIlimitClamp (vin10mV : Nat) (s : State) (h : tokOk (view 268402687 s)) :
    tokOk (view 268402687 (outState (execIlimitClamp vin10mV s) s)) := by
  unfold execIlimitClamp
  simp only [outState_next]
  (repeat' split) <;> simp [h]

@[simp] theorem tok_execPwrClassWrite (v : Word) (s : State) (h : tokOk (view 268402687 s)) :
    tokOk (view 268402687 (outState (execPwrClassWrite v s) s)) := by
  unfold execPwrClassWrite
  simp only [outState_next]
  (repeat' split) <;> simp [h]

@[simp] theorem tok_execPwrIlimitWrite (v : Word) (s : State) (h : tokOk (view 268402687 s)) :
    tokOk (view 268402687 (outState (execPwrIlimitWrite v s) s)) := by
  unfold execPwrIlimitWrite
  simp only [outState_next]
  (repeat' split) <;> simp [h]

@[simp] theorem tok_execTokenRequest (cls : Fin 4) (tokens : Nat) (s : State) (h : tokOk (view 268402687 s)) :
    tokOk (view 268402687 (outState (execTokenRequest cls tokens s) s)) := by
  unfold execTokenRequest
  simp only [outState_next]
  (repeat' split) <;> simp [h]

@[simp] theorem tok_execTokenReturn (grant : Nat) (s : State) (h : tokOk (view 268402687 s)) :
    tokOk (view 268402687 (outState (execTokenReturn grant s) s)) := by
  unfold execTokenReturn
  simp only [outState_next]
  simp [h]

@[simp] theorem tok_execPwrCtrlSnapshot (s : State) (h : tokOk (view 268402687 s)) :
    tokOk (view 268402687 (outState (execPwrCtrlSnapshot s) s)) := by
  unfold execPwrCtrlSnapshot
  simp only [outState_next]
  simp [h]

@[simp] theorem tok_publish (s : State) (v reason : Nat) (h : tokOk (view 268402687 s)) :
    tokOk (view 268402687 (State.publish s v reason)) := by
  unfold State.publish
  (repeat' split) <;> simp [h]

@[simp] theorem tok_startMetering (s : State) (h : tokOk (view 268402687 s)) :
    tokOk (view 268402687 (State.startMetering s)) := by
  unfold State.startMetering
  simp [h]

@[simp] theorem tok_startMeasure (s : State) (h : tokOk (view 268402687 s)) :
    tokOk (view 268402687 (State.startMeasure s)) := by
  unfold State.startMeasure
  (repeat' split) <;> simp [h]

@[simp] theorem tok_tryMeasure (s : State) (h : tokOk (view 268402687 s)) :
    tokOk (view 268402687 (State.tryMeasure s)) := by
  unfold State.tryMeasure
  dsimp only; (repeat' split) <;> simp [h]

@[simp] theorem tok_wantMeasure (s : State) (h : tokOk (view 268402687 s)) :
    tokOk (view 268402687 (State.wantMeasure s)) := by
  unfold State.wantMeasure
  dsimp only; (repeat' split) <;> simp [h]

@[simp] theorem tok_bankFails (s : State) (st : BankSt) (h : tokOk (view 268402687 s)) :
    tokOk (view 268402687 (State.bankFails s st)) := by
  unfold State.bankFails
  simp (maxDischargeDepth := 12) [h]

@[simp] theorem tok_charged (s : State) (h : tokOk (view 268402687 s)) :
    tokOk (view 268402687 (State.charged s)) := by
  unfold State.charged
  simp (maxDischargeDepth := 12) [h]

@[simp] theorem tok_execHoldVoltageStep (v10mV : Nat) (s : State) (h : tokOk (view 268402687 s)) :
    tokOk (view 268402687 (outState (execHoldVoltageStep v10mV s) s)) := by
  unfold execHoldVoltageStep
  simp only [outState_next]
  simp (maxDischargeDepth := 12) [h]

@[simp] theorem tok_execHoldVoltageFall (v10mV fell10mVIn1s : Nat) (s : State) (h : tokOk (view 268402687 s)) :
    tokOk (view 268402687 (outState (execHoldVoltageFall v10mV fell10mVIn1s s) s)) := by
  unfold execHoldVoltageFall
  simp only [outState_next]
  simp (maxDischargeDepth := 12) [h]

@[simp] theorem tok_execHoldAbsentTimeout (rise10mV : Nat) (s : State) (h : tokOk (view 268402687 s)) :
    tokOk (view 268402687 (outState (execHoldAbsentTimeout rise10mV s) s)) := by
  unfold execHoldAbsentTimeout
  simp only [outState_next]
  simp [h]

@[simp] theorem tok_execCapacitanceMeasurementDue (s : State) (h : tokOk (view 268402687 s)) :
    tokOk (view 268402687 (outState (execCapacitanceMeasurementDue s) s)) := by
  unfold execCapacitanceMeasurementDue
  simp only [outState_next]
  simp [h]

@[simp] theorem tok_execPwrCtrlMeasure (s : State) (h : tokOk (view 268402687 s)) :
    tokOk (view 268402687 (outState (execPwrCtrlMeasure s) s)) := by
  unfold execPwrCtrlMeasure
  simp only [outState_next]
  simp [h]

@[simp] theorem tok_execCapacitanceMeasurementDone (uF ms_ : Nat) (s : State) (h : tokOk (view 268402687 s)) :
    tokOk (view 268402687 (outState (execCapacitanceMeasurementDone uF ms_ s) s)) := by
  unfold execCapacitanceMeasurementDone
  rw [outState_next]
  extract_lets metered
  refine tok_ite _ _ _ h ?_
  extract_lets
  rename_i at35 c first old s1 s2 s3 s4 s5
  have h1 : tokOk (view 268402687 s1) := tok_returnFor _ _ (tokOk_of (view_setHold _ _ (by decide)) h)
  clear_value s1
  have h2 : tokOk (view 268402687 s2) := by simp [s2, h1]
  clear_value s2
  have h3 : tokOk (view 268402687 s3) := tok_ite _ _ _ (by simp [h2]) h2
  clear_value s3
  have h4 : tokOk (view 268402687 s4) := by
    refine tok_ite _ _ _ ?_ (tok_ite _ _ _ ?_ (tok_ite _ _ _ (tok_ite _ _ _ ?_ ?_) ?_)) <;> simp [h3]
  clear_value s4
  have h5 : tokOk (view 268402687 s5) := by simp [s5, h4]
  exact tok_ite _ _ _ (by simp [h5]) h5

@[simp] theorem tok_execMeasurementRetry (s : State) (h : tokOk (view 268402687 s)) :
    tokOk (view 268402687 (outState (execMeasurementRetry s) s)) := by
  unfold execMeasurementRetry
  simp only [outState_next]
  simp [h]

@[simp] theorem tok_execBankRetry (s : State) (h : tokOk (view 268402687 s)) :
    tokOk (view 268402687 (outState (execBankRetry s) s)) := by
  unfold execBankRetry
  simp only [outState_next]
  (repeat' split) <;> simp [h]

@[simp] theorem tok_execHoldupChargeTimeout (s : State) (h : tokOk (view 268402687 s)) :
    tokOk (view 268402687 (outState (execHoldupChargeTimeout s) s)) := by
  unfold execHoldupChargeTimeout
  simp only [outState_next]
  simp [h]

@[simp] theorem tok_powerOff (s : State) (journalClosed : Bool) (h : tokOk (view 268402687 s)) :
    tokOk (view 268402687 (State.powerOff s journalClosed)) := by
  unfold State.powerOff
  dsimp only; (repeat' split) <;> simp (maxDischargeDepth := 12) [h]

@[simp] theorem tok_trip (s : State) (thermal : Bool) (h : tokOk (view 268402687 s)) :
    tokOk (view 268402687 (State.trip s thermal)) := by
  unfold State.trip
  dsimp only; (repeat' split) <;> simp [h]

@[simp] theorem tok_execUnderVoltageTrip (s : State) (h : tokOk (view 268402687 s)) :
    tokOk (view 268402687 (outState (execUnderVoltageTrip s) s)) := by
  unfold execUnderVoltageTrip
  simp only [outState_next]
  simp [h]

@[simp] theorem tok_execThermalTrip (s : State) (h : tokOk (view 268402687 s)) :
    tokOk (view 268402687 (outState (execThermalTrip s) s)) := by
  unfold execThermalTrip
  simp only [outState_next]
  (repeat' split) <;> simp [h]

@[simp] theorem tok_execHoldupDrainEnd (s : State) (h : tokOk (view 268402687 s)) :
    tokOk (view 268402687 (outState (execHoldupDrainEnd s) s)) := by
  unfold execHoldupDrainEnd
  simp only [outState_next]
  (repeat' split) <;> simp [h]

@[simp] theorem tok_execHoldAt12v (s : State) (h : tokOk (view 268402687 s)) :
    tokOk (view 268402687 (outState (execHoldAt12v s) s)) := by
  unfold execHoldAt12v
  simp only [outState_next]
  (repeat' split) <;> simp (maxDischargeDepth := 12) [h]

@[simp] theorem tok_execRestartQualification (straps : BitVec 4) (s : State) (h : tokOk (view 268402687 s)) :
    tokOk (view 268402687 (outState (execRestartQualification straps s) s)) := by
  unfold execRestartQualification
  simp only [outState_next]
  (repeat' split) <;> simp [h]

@[simp] theorem tok_thermalWarn (s : State) (h : tokOk (view 268402687 s)) :
    tokOk (view 268402687 (State.thermalWarn s)) := by
  unfold State.thermalWarn
  simp (maxDischargeDepth := 12) [h]

@[simp] theorem tok_thermalPause (s : State) (h : tokOk (view 268402687 s)) :
    tokOk (view 268402687 (State.thermalPause s)) := by
  unfold State.thermalPause
  simp (maxDischargeDepth := 12) [h]

@[simp] theorem tok_thermalDerate (s : State) (h : tokOk (view 268402687 s)) :
    tokOk (view 268402687 (State.thermalDerate s)) := by
  unfold State.thermalDerate
  (repeat' split) <;> simp [h]

@[simp] theorem tok_execThermalSample (ctrl16 : Int) (dies16 : List Int) (s : State) (h : tokOk (view 268402687 s)) :
    tokOk (view 268402687 (outState (execThermalSample ctrl16 dies16 s) s)) := by
  unfold execThermalSample
  simp only [outState_next]
  simp (maxDischargeDepth := 12) [h]

@[simp] theorem tok_execResetPin (s : State) (h : tokOk (view 268402687 s)) :
    tokOk (view 268402687 (outState (execResetPin s) s)) := by
  unfold execResetPin
  simp only [outState_next]
  simp [h]

@[simp] theorem tok_execSideBandSoftReset (v : Word) (s : State) (h : tokOk (view 268402687 s)) :
    tokOk (view 268402687 (outState (execSideBandSoftReset v s) s)) := by
  unfold execSideBandSoftReset
  simp only [outState_next]
  simp [h]

@[simp] theorem tok_execResetCloseDone (ended : Bool) (s : State) (h : tokOk (view 268402687 s)) :
    tokOk (view 268402687 (outState (execResetCloseDone ended s) s)) := by
  unfold execResetCloseDone
  simp only [outState_next]
  (repeat' split) <;> simp [h]

@[simp] theorem tok_execResetRelease (straps : BitVec 4) (s : State) (h : tokOk (view 268402687 s)) :
    tokOk (view 268402687 (outState (execResetRelease straps s) s)) := by
  unfold execResetRelease
  simp only [outState_next]
  (repeat' split) <;> simp [h]

@[simp] theorem tok_execReferenceLoss (s : State) (h : tokOk (view 268402687 s)) :
    tokOk (view 268402687 (outState (execReferenceLoss s) s)) := by
  unfold execReferenceLoss
  simp only [outState_next]
  (repeat' split) <;> simp [h]

@[simp] theorem tok_startService (s : State) (sv : SvcReset) (h : tokOk (view 268402687 s)) :
    tokOk (view 268402687 (State.startService s sv)) := by
  unfold State.startService
  simp (maxDischargeDepth := 12) [h]

@[simp] theorem tok_watchdog (s : State) (unit : Nat) (h : tokOk (view 268402687 s)) :
    tokOk (view 268402687 (State.watchdog s unit)) := by
  unfold State.watchdog
  dsimp only; (repeat' split) <;> simp [h]

@[simp] theorem tok_execCpWatchdog (cp : Fin 8) (s : State) (h : tokOk (view 268402687 s)) :
    tokOk (view 268402687 (outState (execCpWatchdog cp s) s)) := by
  unfold execCpWatchdog
  simp only [outState_next]
  simp [h]

@[simp] theorem tok_execEngineWatchdog (e : Engine) (s : State) (h : tokOk (view 268402687 s)) :
    tokOk (view 268402687 (outState (execEngineWatchdog e s) s)) := by
  unfold execEngineWatchdog
  simp only [outState_next]
  simp [h]

@[simp] theorem tok_execSupLockstepFailure (sup : Fin 2) (s : State) (h : tokOk (view 268402687 s)) :
    tokOk (view 268402687 (outState (execSupLockstepFailure sup s) s)) := by
  unfold execSupLockstepFailure
  simp only [outState_next]
  (repeat' split) <;> simp [h]

@[simp] theorem tok_resetPort (s : State) (p : Fin 2) (h : tokOk (view 268402687 s)) :
    tokOk (view 268402687 (State.resetPort s p)) := by
  unfold State.resetPort
  dsimp only; (repeat' split) <;> simp [h]

@[simp] theorem tok_execLedgerFault (l : LedgerId) (s : State) (h : tokOk (view 268402687 s)) :
    tokOk (view 268402687 (outState (execLedgerFault l s) s)) := by
  unfold execLedgerFault
  simp only [outState_next]
  simp (maxDischargeDepth := 12) [h]

@[simp] theorem tok_resumePosting (s : State) (h : tokOk (view 268402687 s)) :
    tokOk (view 268402687 (State.resumePosting s)) := by
  unfold State.resumePosting
  exact tok_pumpErases _ (tok_pumpDrain _ (tok_foldl _ (fun t a h => tok_resumeQp _ _ h) _ _ (tok_foldl _ (fun t a h => tok_drainHeld _ _ _ h) _ _ h)))

@[simp] theorem tok_changeIndex (s : State) (h : tokOk (view 268402687 s)) :
    tokOk (view 268402687 (State.changeIndex s)) := by
  unfold State.changeIndex
  simp [h]

@[simp] theorem tok_execServiceResetEnd (s : State) (h : tokOk (view 268402687 s)) :
    tokOk (view 268402687 (outState (execServiceResetEnd s) s)) := by
  unfold execServiceResetEnd
  simp only [outState_next]
  (repeat' split) <;> simp (maxDischargeDepth := 12) [h]

@[simp] theorem tok_execServiceResetTimeout (s : State) (h : tokOk (view 268402687 s)) :
    tokOk (view 268402687 (outState (execServiceResetTimeout s) s)) := by
  unfold execServiceResetTimeout
  simp only [outState_next]
  (repeat' split) <;> simp [h]

@[simp] theorem tok_retireDram (s : State) (ch : Nat) (h : tokOk (view 268402687 s)) :
    tokOk (view 268402687 (State.retireDram s ch)) := by
  unfold State.retireDram
  dsimp only; (repeat' split) <;> simp [h]

@[simp] theorem tok_retireBank (s : State) (ch bank : Nat) (h : tokOk (view 268402687 s)) :
    tokOk (view 268402687 (State.retireBank s ch bank)) := by
  unfold State.retireBank
  dsimp only; (repeat' split) <;> simp [h]

@[simp] theorem tok_failRow (s : State) (ch bank row : Nat) (h : tokOk (view 268402687 s)) :
    tokOk (view 268402687 (State.failRow s ch bank row)) := by
  unfold State.failRow
  dsimp only; (repeat' split) <;> simp [h]

@[simp] theorem tok_execDramError (ch : Fin 4) (e : DramErr) (s : State) (h : tokOk (view 268402687 s)) :
    tokOk (view 268402687 (outState (execDramError ch e s) s)) := by
  unfold execDramError
  simp only [outState_next]
  (repeat' split) <;> simp [h]

@[simp] theorem tok_supStart (s : State) (h : tokOk (view 268402687 s)) :
    tokOk (view 268402687 (State.supStart s)) := by
  unfold State.supStart
  simp (maxDischargeDepth := 12) [h]

@[simp] theorem tok_trainPort (s : State) (p : Fin 2) (h : tokOk (view 268402687 s)) :
    tokOk (view 268402687 (State.trainPort s p)) := by
  unfold State.trainPort
  simp [h]

@[simp] theorem tok_execStartUpPhaseDone (verified : List Bool) (s : State) (h : tokOk (view 268402687 s)) :
    tokOk (view 268402687 (outState (execStartUpPhaseDone verified s) s)) := by
  unfold execStartUpPhaseDone
  simp only [outState_next]
  (repeat' split) <;> simp (maxDischargeDepth := 12) [h]

@[simp] theorem tok_ksCreate (s : State) (c : Cmd) (h : tokOk (view 268402687 s)) :
    tokOk (view 268402687 (State.ksCreate s c)) := by
  unfold State.ksCreate
  dsimp only; (repeat' split) <;> simp [h]

@[simp] theorem tok_execKsCreate (s : State) (h : tokOk (view 268402687 s)) :
    tokOk (view 268402687 (outState (execKsCreate s) s)) := by
  unfold execKsCreate
  simp only [outState_next]
  simp [h]

@[simp] theorem tok_execKsDeleteTakesEffect (adm : Nat) (s : State) (h : tokOk (view 268402687 s)) :
    tokOk (view 268402687 (outState (execKsDeleteTakesEffect adm s) s)) := by
  unfold execKsDeleteTakesEffect
  simp only [outState_next]
  (repeat' split) <;> simp [h]

@[simp] theorem tok_destroyAll (s : State) (h : tokOk (view 268402687 s)) :
    tokOk (view 268402687 (State.destroyAll s)) := by
  unfold State.destroyAll
  refine tokOk_of (view_measureSecurity _ (by decide)) (tokOk_of (view_setMir _ _ (by decide)) (tokOk_of (view_setSec _ _ (by decide)) (tokOk_of (view_setMover _ _ (by decide)) (tokOk_of (view_setDram _ _ (by decide))
    (tok_foldl _ (fun t a h => tok_returnGrant _ _ h) _ _ (tok_setPwr _ _ (fun _ h => h) (tokOk_of (view_setFlash _ _ (by decide)) (tokOk_of (view_setLand _ _ (by decide))
      (tokOk_of (view_setJrn _ _ (by decide)) (tokOk_of (view_setPrism _ _ (by decide)) (tokOk_of (view_setKv _ _ (by decide)) (tokOk_of (view_foldl _ _ (fun s a => view_discardAsm _ _ (by decide)) _ _) h))))))))))))

@[simp] theorem tok_askMedium (s : State) (h : tokOk (view 268402687 s)) :
    tokOk (view 268402687 (State.askMedium s)) := by
  unfold State.askMedium
  simp [h]

@[simp] theorem tok_trySanitize (s : State) (h : tokOk (view 268402687 s)) :
    tokOk (view 268402687 (State.trySanitize s)) := by
  unfold State.trySanitize
  simp (maxDischargeDepth := 12) [h]

@[simp] theorem tok_sanitizeCmd (s : State) (c : Cmd) (h : tokOk (view 268402687 s)) :
    tokOk (view 268402687 (State.sanitizeCmd s c)) := by
  unfold State.sanitizeCmd
  simp [h]

@[simp] theorem tok_execFormat (s : State) (h : tokOk (view 268402687 s)) :
    tokOk (view 268402687 (outState (execFormat s) s)) := by
  unfold execFormat
  simp only [outState_next]
  simp [h]

@[simp] theorem tok_execSanitize (s : State) (h : tokOk (view 268402687 s)) :
    tokOk (view 268402687 (outState (execSanitize s) s)) := by
  unfold execSanitize
  simp only [outState_next]
  simp [h]

@[simp] theorem tok_formatted (s : State) (h : tokOk (view 268402687 s)) :
    tokOk (view 268402687 (State.formatted s)) := by
  unfold State.formatted
  have r := view_retireBlock
  dsimp only
  refine tok_pumpErases _ (tokOk_of (view_reviewSpace _ (by decide)) (tokOk_of (view_reviewWear _ (by decide)) (tokOk_of (view_measureSecurity _ (by decide)) (tok_ite _ _ _ ?_ (tokOk_of (view_roBit _ _ _ (by decide)) (tokOk_of (view_setKv _ _ (by decide)) (tokOk_of (view_setStored _ _ (by decide)) ?_)))))))
  all_goals
    refine tokOk_of (view_roBit _ _ _ (by decide)) (tokOk_of (view_setHold _ _ (by decide)) (tokOk_of (view_setFlash _ _ (by decide)) (tok_ite _ _ _ ?_ (tok_foldl _ (fun t a h => tok_foldl _ (fun t a h => tok_retireBlock _ _ _ _ _ h) _ _ h) _ _ ?_)))) <;> refine tok_writeKeys _ ?_ <;> simp (maxDischargeDepth := 12) [h]

@[simp] theorem tok_execSanitizeDone (s : State) (h : tokOk (view 268402687 s)) :
    tokOk (view 268402687 (outState (execSanitizeDone s) s)) := by
  unfold execSanitizeDone
  simp only [outState_next]
  (repeat' split) <;> simp [h]

@[simp] theorem tok_pumpSign (s : State) (h : tokOk (view 268402687 s)) :
    tokOk (view 268402687 (State.pumpSign s)) := by
  unfold State.pumpSign
  dsimp only; (repeat' split) <;> simp [h]

@[simp] theorem tok_attestCmd (s : State) (c : Cmd) (h : tokOk (view 268402687 s)) :
    tokOk (view 268402687 (State.attestCmd s c)) := by
  unfold State.attestCmd
  dsimp only; (repeat' split) <;> simp [h]

@[simp] theorem tok_execAttest (s : State) (h : tokOk (view 268402687 s)) :
    tokOk (view 268402687 (outState (execAttest s) s)) := by
  unfold execAttest
  simp only [outState_next]
  simp [h]

@[simp] theorem tok_execAttestSigningDone (s : State) (h : tokOk (view 268402687 s)) :
    tokOk (view 268402687 (outState (execAttestSigningDone s) s)) := by
  unfold execAttestSigningDone
  simp only [outState_next]
  (repeat' split) <;> simp (maxDischargeDepth := 12) [h]

@[simp] theorem tok_execAttestBusyTimeout (adm : Nat) (s : State) (h : tokOk (view 268402687 s)) :
    tokOk (view 268402687 (outState (execAttestBusyTimeout adm s) s)) := by
  unfold execAttestBusyTimeout
  simp only [outState_next]
  (repeat' split) <;> simp (maxDischargeDepth := 12) [h]

@[simp] theorem tok_endBound (s : State) (p : Fin 2) (addr : Bytes) (h : tokOk (view 268402687 s)) :
    tokOk (view 268402687 (State.endBound s p addr)) := by
  unfold State.endBound
  dsimp only; refine tok_foldl _ (fun t a h => ?_) _ _ ?_ <;> (repeat' split) <;> simp (maxDischargeDepth := 12) [h]

@[simp] theorem tok_putFeature (s : State) (f ks pos v0 v1 : Nat) (h : tokOk (view 268402687 s)) :
    tokOk (view 268402687 (State.putFeature s f ks pos v0 v1)) := by
  unfold State.putFeature
  dsimp only; (repeat' split) <;> simp (maxDischargeDepth := 12) [h]

@[simp] theorem tok_setFeatureCmd (s : State) (c : Cmd) (h : tokOk (view 268402687 s)) :
    tokOk (view 268402687 (State.setFeatureCmd s c)) := by
  unfold State.setFeatureCmd
  dsimp only; (repeat' split) <;> simp [h]

@[simp] theorem tok_execSetFeature (s : State) (h : tokOk (view 268402687 s)) :
    tokOk (view 268402687 (outState (execSetFeature s) s)) := by
  unfold execSetFeature
  simp only [outState_next]
  simp [h]

@[simp] theorem tok_serviceDmaError (s : State) (ch : Fin 16) (err : Nat) (h : tokOk (view 268402687 s)) :
    tokOk (view 268402687 (State.serviceDmaError s ch err)) := by
  unfold State.serviceDmaError
  dsimp only; (repeat' split) <;> simp [h]

@[simp] theorem tok_execDmaError (ch : Fin 16) (err : Fin 8) (written : Nat) (s : State) (h : tokOk (view 268402687 s)) :
    tokOk (view 268402687 (outState (execDmaError ch err written s) s)) := by
  unfold execDmaError
  simp only [outState_next]
  (repeat' split) <;> simp [h]

@[simp] theorem tok_execMbx31Doorbell (s : State) (h : tokOk (view 268402687 s)) :
    tokOk (view 268402687 (outState (execMbx31Doorbell s) s)) := by
  unfold execMbx31Doorbell
  simp only [outState_next]
  (repeat' split) <;> simp [h]

@[simp] theorem tok_execMbx31Cancel (s : State) (h : tokOk (view 268402687 s)) :
    tokOk (view 268402687 (outState (execMbx31Cancel s) s)) := by
  unfold execMbx31Cancel
  simp only [outState_next]
  (repeat' split) <;> simp [h]

@[simp] theorem tok_writeGlb (s : State) (a : Nat) (v : Word) (h : tokOk (view 268402687 s)) :
    tokOk (view 268402687 (State.writeGlb s a v)) := by
  unfold State.writeGlb
  (repeat' split) <;> simp [h]

@[simp] theorem tok_writeMbx (s : State) (a : Nat) (v : Word) (h : tokOk (view 268402687 s)) :
    tokOk (view 268402687 (State.writeMbx s a v)) := by
  unfold State.writeMbx
  dsimp only; (repeat' split) <;> simp [h]

@[simp] theorem tok_writePwr (s : State) (a : Nat) (v : Word) (h : tokOk (view 268402687 s)) :
    tokOk (view 268402687 (State.writePwr s a v)) := by
  unfold State.writePwr
  dsimp only; (repeat' split) <;> simp [h]

@[simp] theorem tok_writeMac (s : State) (p : Fin 2) (a : Nat) (v : Word) (h : tokOk (view 268402687 s)) :
    tokOk (view 268402687 (State.writeMac s p a v)) := by
  unfold State.writeMac
  dsimp only
  (repeat' split) <;> first | exact h | (simp (maxDischargeDepth := 12) [h]; done) | (simp (maxDischargeDepth := 12) [h]; done)

@[simp] theorem tok_writeReg (s : State) (addr : Nat) (v : Word) (h : tokOk (view 268402687 s)) :
    tokOk (view 268402687 (State.writeReg s addr v)) := by
  unfold State.writeReg
  dsimp only; (repeat' split) <;> simp [h]

@[simp] theorem tok_execRegisterWrite (addr : Nat) (v : Word) (s : State) (h : tokOk (view 268402687 s)) :
    tokOk (view 268402687 (outState (execRegisterWrite addr v s) s)) := by
  unfold execRegisterWrite
  simp only [outState_next]
  simp [h]

@[simp] theorem tok_sbTouch (s : State) (addr : Nat) (h : tokOk (view 268402687 s)) :
    tokOk (view 268402687 (State.sbTouch s addr)) := by
  unfold State.sbTouch
  simp [h]

@[simp] theorem tok_post (s : State) (addr : Nat) (v : Word) (h : tokOk (view 268402687 s)) :
    tokOk (view 268402687 (State.post s addr v)) := by
  unfold State.post
  dsimp only; (repeat' split) <;> simp [h]

@[simp] theorem tok_applyPosted (n : Nat) (s : State) (h : tokOk (view 268402687 s)) : tokOk (view 268402687 (State.applyPosted n s)) := by
  induction n generalizing s with
  | zero => exact h
  | succ n ih =>
    unfold State.applyPosted
    (repeat' split)
    · exact h
    · exact ih _ (by simp (maxDischargeDepth := 12) [h])
    · exact h

@[simp] theorem tok_execPostedWriteApply (s : State) (h : tokOk (view 268402687 s)) :
    tokOk (view 268402687 (outState (execPostedWriteApply s) s)) := by
  unfold execPostedWriteApply
  simp only [outState_next]
  simp [h]

@[simp] theorem tok_postWords (n : Nat) (s : State) (a : Nat) (b : Bytes) (h : tokOk (view 268402687 s)) : tokOk (view 268402687 (State.postWords n s a b)) := by
  induction n generalizing s a b with
  | zero => exact h
  | succ n ih =>
    unfold State.postWords
    (repeat' split)
    · exact h
    · exact ih _ _ _ (by simp (maxDischargeDepth := 12) [h])
    

@[simp] theorem tok_sideRead (s : State) (addr words : Nat) (slow : Bool) (h : tokOk (view 268402687 s)) :
    tokOk (view 268402687 (State.sideRead s addr words slow)) := by
  unfold State.sideRead
  dsimp only; (repeat' split) <;> simp [h]

@[simp] theorem tok_execSpiWrite (addr : Nat) (data : Bytes) (s : State) (h : tokOk (view 268402687 s)) :
    tokOk (view 268402687 (outState (execSpiWrite addr data s) s)) := by
  unfold execSpiWrite
  simp only [outState_next]
  simp [h]

@[simp] theorem tok_execSpiRead (addr : Nat) (words : Nat) (waitBytes : Nat) (s : State) (h : tokOk (view 268402687 s)) :
    tokOk (view 268402687 (outState (execSpiRead addr words waitBytes s) s)) := by
  unfold execSpiRead
  simp only [outState_next]
  (repeat' split) <;> simp [h]

@[simp] theorem tok_execI2cWrite (dev : BitVec 7) (addr : Nat) (data : Bytes) (s : State) (h : tokOk (view 268402687 s)) :
    tokOk (view 268402687 (outState (execI2cWrite dev addr data s) s)) := by
  unfold execI2cWrite
  simp only [outState_next]
  simp [h]

@[simp] theorem tok_execI2cRead (dev : BitVec 7) (addr : Nat) (words : Nat) (s : State) (h : tokOk (view 268402687 s)) :
    tokOk (view 268402687 (outState (execI2cRead dev addr words s) s)) := by
  unfold execI2cRead
  simp only [outState_next]
  (repeat' split) <;> simp [h]

@[simp] theorem tok_tickIdle (s : State) (h : tokOk (view 268402687 s)) :
    tokOk (view 268402687 (State.tickIdle s)) := by
  unfold State.tickIdle
  dsimp only; (repeat' split) <;> simp (maxDischargeDepth := 12) [h]

@[simp] theorem tok_tickTable (s : State) (h : tokOk (view 268402687 s)) :
    tokOk (view 268402687 (State.tickTable s)) := by
  unfold State.tickTable
  (repeat' split) <;> simp [h]

@[simp] theorem tok_tickUnits (s : State) (h : tokOk (view 268402687 s)) :
    tokOk (view 268402687 (State.tickUnits s)) := by
  unfold State.tickUnits
  simp (maxDischargeDepth := 12) [h]

@[simp] theorem tok_tick (s : State) (h : tokOk (view 268402687 s)) :
    tokOk (view 268402687 (State.tick s)) := by
  unfold State.tick
  split
  · exact h
  refine tok_ite _ _ _ (tok_setLife _ _ h) (tok_tickIdle _ (tokOk_of (view_tickDma _ (by decide)) (tok_tickUnits _ (tokOk_of (view_tickStamps _ (by decide)) (tokOk_of (view_tickPort _ _ (by decide)) (tokOk_of (view_tickPort _ _ (by decide)) (tokOk_of (view_tickPtp _ (by decide)) (tok_setLife _ _ h))))))))

end Sys2Proof.Machine
end

