-- ==== Sys2Proof/Machine/Layouts.lean ====
section
/-! DEFINITION. The byte layouts in which flash, DRAM and journal hold what State holds as data: records and their headers (07 R243, R244), keys
and metadata pages (12 R394, R395), segment summaries (07 R245), locators and buckets (05 R169, R170), journal headers and record types (07 R255, R256), rows with their parity
(07 R241, R242). No command shows these bytes; they are read off the state. -/

namespace Sys2Proof.Machine

-- Records (R243, R244).

/-- Type code of a record (R243). -/
def RecKind.code : RecKind → Nat
  | .value => 1
  | .tombstone => 2
  | .range => 3
  | .internal => 4

/-- Type code of a filler record (R243). -/
def fillerCode : Nat := 5

/-- The part of a record's body behind its key: the value, or the upper bound of a range (R243). -/
def FRec.content (r : FRec) : Bytes := if r.kind = .range then r.upper else r.val

/-- The value_len field (R243). -/
def FRec.lenField (r : FRec) : Nat :=
  match r.kind with
  | .value | .internal => r.len
  | .range => r.upper.length
  | .tombstone => 0

/-- A record's body in plaintext: key and content, each padded with zeros to a multiple of 16 (R244). -/
def FRec.plain (r : FRec) : Bytes :=
  let n := if r.kind = .internal then r.len else r.content.length
  fit (alignTo 16 r.key.length) r.key ++ fit (alignTo 16 n) r.content

/-- A record's body as it is stored: encrypted with the key space's key from its tweak on (R244). -/
def FRec.stored (r : FRec) : Bytes := xtsBody (fit 64 (Config.drawnKey r.keyId)) r.tweak r.plain

/-- A header before its CRC: bytes 0-59 (R243). -/
def headerHead (type ks keyLen epoch len adm digest crc tweak : Nat) : Bytes :=
  le 2 0xA7C3 ++ le 1 type ++ le 1 ks ++ le 1 keyLen ++ le 1 0 ++ le 2 epoch ++ le 4 len ++ le 6 adm ++ le 2 0 ++ le 8 digest ++ le 4 crc ++
    le 8 tweak ++ le 20 0

/-- A header with the CRC over its first 60 bytes (R243). -/
def withCrc (h : Bytes) : Bytes := h ++ le 4 (crc32c h).toNat

/-- The 64-byte header of a record (R243). -/
def FRec.header (r : FRec) : Bytes :=
  withCrc (headerHead r.kind.code r.ks r.key.length r.epoch.toNat r.lenField (r.adm % 2 ^ 48) r.digest.toNat (crc32c r.stored).toNat r.tweak)

/-- A record as it lies on flash (R243, R244). -/
def FRec.bytes (r : FRec) : Bytes := r.header ++ r.stored

/-- A filler record of a span: type 5, without key and value; its body holds the fixed pattern and is not encrypted (R242-R244). -/
def fillerBytes (epoch span : Nat) : Bytes :=
  let body := (List.range (span - 64)).map Config.filler
  withCrc (headerHead fillerCode 0 0 epoch 0 0 0 (crc32c body).toNat 0) ++ body

-- Keys and metadata pages at rest (12 R394, R395, R397).

/-- The key-wrapping key (R394): derived anew from the root secret and the media salt at each start, and stored nowhere. -/
def State.kwk (s : State) : Bytes := hmac (fit 32 Config.rootSecret) (ascii "polune-kwk" ++ fit 32 (Config.mediaSalt s.sec.salt))

/-- The key table on flash: each slot's key wrapped by the KWK (R394, R397). The key-space keys and the metadata key take 72 bytes, the digest key
24. -/
def State.keyTableBytes (s : State) : List (Nat × Bytes) :=
  s.sec.keyTable.map fun x => (x.1, keyWrap s.kwk (if x.1 = 65 then le 16 x.2 else fit 64 (Config.drawnKey x.2)))

/-- A metadata page that holds key bytes as it is stored: encrypted under the metadata key (R395). -/
def State.metaStored (s : State) (place : Nat) (page : Bytes) : Bytes := xtsBody (fit 64 (Config.drawnKey s.sec.metaKey)) (Config.metaUnit place) page

-- Segment summaries (R245).

/-- Offset in its page of a byte of the data order, in 16-byte units. -/
def Segment.unitIn (g : Segment) (byte : Nat) : Nat := (byte - (g.setAt byte).1) % 16384 / 16

/-- The 16-byte summary entry of a record (R245). -/
def Segment.entryOf (g : Segment) (r : FRec) : Bytes :=
  let p := g.pageAt r.off
  le 8 r.digest.toNat ++ le 4 (g.unitIn r.off + 2 ^ 10 * p.1 + 2 ^ 15 * p.2 + 2 ^ 27 * r.kind.code) ++ le 2 (ceilDiv r.span 512) ++ le 1 r.ks ++ le 1 0

/-- The entries of a segment's summary, in record order (R245). -/
def Segment.summary (g : Segment) : Bytes := g.recs.flatMap g.entryOf

/-- What the 64-byte trailer of a summary gives (R245; the places of its fields are not given). -/
structure Trailer where
  entries : Nat
  firstRow : Nat
  sealedAt : Nat
  crc : BitVec 32
  deriving DecidableEq, Repr

/-- The trailer of a segment's summary (R245). -/
def Segment.trailer (g : Segment) : Trailer :=
  { entries := g.recs.length, firstRow := g.summaryRow, sealedAt := g.sealedAt, crc := crc32c g.summary }

-- Rows (R241, R242).

/-- A channel's part in a row. -/
inductive PageRole where
  | data (d : Nat)
  | parity
  | filler
  | absent
  deriving DecidableEq, Repr

/-- What a channel's page of a row holds, over the channels `l` (R241). -/
def pageRole (seg row : Nat) (l : List Nat) (ch : Nat) : PageRole :=
  if !l.contains ch then .absent
  else if parityChan seg row l = ch then .parity
  else match (List.range (dataPages l.length)).find? fun d => dataChan seg row d l == ch with
    | some d => .data d
    | none => .filler

/-- The parity page of a row: the bytewise XOR of its data pages (R242). -/
def parityPage (pages : List Bytes) : Bytes := pages.foldl (fun p d => p.zipWith (fun a b => a ^^^ b) d) (List.replicate 16384 0)

-- Locators and buckets (R169, R170).

/-- The 64 bits of a locator (R170). `alt` says that the entry sits in its second-choice bucket. -/
def State.locBits (s : State) (alt : Bool) : Loc → Nat
  | .landing _ c n => 2 ^ 62 + c * 2 ^ 44 + n * 2 ^ 31 + b2n alt
  | .flash seg off n =>
    let g := (s.seg? seg).getD { seg := seg, stream := 0, chans := 0 }
    let p := g.pageAt off
    2 * 2 ^ 62 + seg * 2 ^ 46 + p.2 * 2 ^ 34 + p.1 * 2 ^ 29 + g.unitIn off * 2 ^ 19 + n * 2 ^ 3 + b2n alt
  | .lost i => 3 * 2 ^ 62 + i * 2 ^ 42 + b2n alt

/-- The entry in a slot of a bucket. -/
def Prism.slotAt (p : Prism) (b i : Nat) : Option IdxEntry := p.entries.find? fun e => e.place == .bucket b i

/-- The 64 bytes of a bucket (R169): which entries are valid, the hints, then tag and locator of each entry. -/
def State.bucketBytes (s : State) (b : Nat) : Bytes :=
  let slots := (List.range 5).map fun i => s.prism.slotAt b i
  let valid := (List.range 5).foldl (fun n i => n + b2n (slots.getD i none).isSome * 2 ^ i) 0
  le 4 (valid + 32 * b2n (s.prism.stashHint s.idxBits b) + 64 * b2n (s.prism.spillHint s.idxBits b)) ++
    slots.flatMap fun x => match x with
      | some e => le 4 e.tag.toNat ++ le 8 (s.locBits (e.b1 != b) e.loc)
      | none => le 12 0

-- The journal (R255, R256).

/-- Type code of a journal record (R256). -/
def JRec.code : JRec → Nat
  | .mapSet .. => 0x01
  | .mapDead .. => 0x02
  | .mapDelete .. => 0x03
  | .mapMove .. => 0x04
  | .mapLost .. => 0x05
  | .mapReclaim .. => 0x06
  | .rangeDiscard .. => 0x07
  | .rangeDone .. => 0x08
  | .ckptBegin .. => 0x10
  | .ckptDone .. => 0x11
  | .segOpen .. => 0x20
  | .segSeal .. => 0x21
  | .segCopyBegin .. => 0x22
  | .copyDone .. => 0x23
  | .eraseIntent _ => 0x24
  | .eraseDone .. => 0x25
  | .blockRetire .. => 0x30
  | .dieRetire .. => 0x31
  | .channelRetire _ => 0x32
  | .jrnlClose _ => 0x7F

/-- Bytes 0-11 of a journal record's header: type, length, jseq (R255). -/
def State.journalHead (s : State) (r : Nat × JRec) : Bytes := le 1 r.2.code ++ le 1 0 ++ le 2 (s.jSize r.2) ++ le 8 r.1

/-- A key as a journal record names it: its digest, and in an ordered key space the key itself (R193). -/
def State.journalKey (s : State) (ks : Nat) (key : Bytes) : Bytes :=
  le 8 (s.digest ks key) ++ if s.orderedKs ks then le 1 key.length ++ key else []

/-- The contents of a journal record behind its header (R193, R256), in the manual's order and in the widths of log 16. -/
def State.journalBody (s : State) : JRec → Bytes
  | .mapSet ks k loc len adm ep => le 1 ks ++ s.journalKey ks k ++ le 8 (s.locBits false loc) ++ le 4 len ++ le 6 adm ++ le 2 ep.toNat
  | .mapDead ks loc => le 1 ks ++ le 8 (s.locBits false loc)
  | .mapDelete ks k adm => le 1 ks ++ s.journalKey ks k ++ le 6 adm
  | .mapMove ks k old new => le 1 ks ++ s.journalKey ks k ++ le 8 (s.locBits false old) ++ le 8 (s.locBits false new)
  | .mapLost ks k i len adm ep => le 1 ks ++ s.journalKey ks k ++ le 4 i ++ le 4 len ++ le 6 adm ++ le 2 ep.toNat
  | .mapReclaim ks k => le 1 ks ++ s.journalKey ks k
  | .rangeDiscard _ ks lo hi adm ep => le 1 ks ++ le 2 ep.toNat ++ le 6 adm ++ le 1 lo.length ++ le 1 hi.length ++ lo ++ hi
  | .rangeDone id ks => le 1 ks ++ le 8 id
  | .ckptBegin k pos => le 1 k ++ le 8 pos
  | .ckptDone k dir st ks =>
    le 1 k ++ le 8 dir ++ le 2 st.length ++ st.flatMap (fun e => le 4 e.1.toNat ++ le 4 0 ++ le 8 (s.locBits false e.2)) ++
      ks.flatMap fun x => le 1 x.1 ++ le 8 x.2
  | .segOpen seg stream pslc ch => le 2 seg ++ le 1 stream ++ le 1 (b2n pslc) ++ le 4 ch.toNat
  | .segSeal seg last first short => le 2 seg ++ le 2 last ++ le 2 first ++ le 1 (b2n short)
  | .segCopyBegin seg why => le 2 seg ++ le 1 why
  | .copyDone seg moved dead => le 2 seg ++ le 4 moved ++ le 4 dead
  | .eraseIntent seg => le 2 seg
  | .eraseDone seg l => le 2 seg ++ l.flatMap fun n => le 4 n
  | .blockRetire ch pos _ block cause new => le 1 ch ++ le 1 pos ++ le 2 block ++ le 1 cause ++ le 2 (new.getD 0xFFFF)
  | .dieRetire ch pos => le 1 ch ++ le 1 pos
  | .channelRetire ch => le 1 ch
  | .jrnlClose last => le 8 last

/-- A journal record as it is written: its CRC-32C runs over the record with the CRC's own field zero (R255). -/
def State.journalBytes (s : State) (r : Nat × JRec) : Bytes :=
  let body := fit (s.jSize r.2 - 16) (s.journalBody r.2)
  s.journalHead r ++ le 4 (crc32c (s.journalHead r ++ le 4 0 ++ body)).toNat ++ body

/-- Whether bytes that a copy holds pass for a journal record (R255). -/
def goodRecord (b : Bytes) : Bool := decide (16 ≤ b.length) && fieldAt b 12 4 == (crc32c (slice b 0 12 ++ le 4 0 ++ b.drop 16)).toNat

end Sys2Proof.Machine
end

