-- ==== Sys2Proof/Machine/Pads.lean ====
section
/-! DEFINITION. The output pads as the state drives them (16 R474, R476, R477; 15 R463; 06 R227; 10 R330, R356). -/

namespace Sys2Proof.Machine

/-- What an output pad does. -/
inductive PadDrive where
  | highZ | low | high
  deriving DecidableEq, Repr

/-- A level that is driven. -/
def PadDrive.level (b : Bool) : PadDrive := if b then .high else .low

/-- Start-up phase 1, a full reset and its close, the hold-up sequence: the second row of R476. A service reset and a port reset are not among
them. -/
def State.padsQuiet (s : State) : Bool := !s.life.mainOn || s.life.phase == 0 || s.life.phase == 1 || s.life.phase == 12 || s.life.resetLow

/-- PWRGOOD (R476, R477): high while both PLLs are locked and no reset, close or hold-up sequence runs. -/
def State.pwrGood (s : State) : PadDrive := if !s.life.aonOn then .highZ else .level (!s.padsQuiet && s.life.lockOk)

/-- A push-pull output (type O). -/
def State.outPad (s : State) (v : Bool) : PadDrive := if !s.life.aonOn then .highZ else .level (!s.padsQuiet && v)

/-- PPS_OUT (R356, R476). -/
def State.ppsOutPad (s : State) : PadDrive := s.outPad s.ptp.ppsOut

/-- SB_MISO is driven in an SPI frame only, and in no condition of the second row (R457, R476); the bit it sends is not held. -/
def State.misoDriven (s : State) : Bool := s.life.aonOn && !s.padsQuiet && s.sb.spiBusy

/-- An open-drain output (types D and L): low while it is asserted. -/
def openDrain (b : Bool) : PadDrive := if b then .low else .highZ

/-- ALERT# (R463, R476): outside service for boot_fail only. -/
def State.alertPad (s : State) : PadDrive :=
  openDrain (s.life.aonOn && (if s.padsQuiet then s.life.intStatus.getLsbD 0 else s.alert))

/-- TEMP_ALERT# (R227, R476). -/
def State.tempAlertPad (s : State) : PadDrive := openDrain (s.life.aonOn && s.thm.warn)

/-- The LED pads of a port, LEDn0 with `low` false (R330, R474, R476): low while the LED is lit; a blinking one is lit in the first half of
every 500 ms of the clock (the phase is the model's choice, log 88). -/
def State.ledPad (s : State) (p : Fin 2) (low : Bool) : PadDrive := openDrain (!s.padsQuiet && (s.led p low == .lit || (s.led p low == .blinking && s.now / (250 * ms) % 2 == 0)))

end Sys2Proof.Machine
end

