-- ==== Sys2Proof/WellFormed.lean ====
section
/-! DEFINITION. Which commands can reach the block: operands within the field widths and sizes that the spec gives their protocol units. Every command
of the syntax is executed; these checks say which ones a bus, a network or a pad can deliver. -/

namespace Sys2Proof

/-- A register or side-band address: 32 bits (00 R16, 15 R456). -/
def addrFits (a : Nat) : Bool := decide (a < 2 ^ 32)

/-- A UDP endpoint and the addresses of a received datagram: 16-byte addresses, 16-bit ports, 6-bit DSCP (04 R126, R134). -/
def Rx.wf (r : Rx) : Bool :=
  r.hostAddr.length == 16 && r.localAddr.length == 16 && decide (r.hostUdp < 65536) && decide (r.localUdp < 65536) && decide (r.dscp < 64)

/-- A datagram: at most what a UDP length field can say (04 R128). -/
def dgFits (dg : Bytes) : Bool := decide (dg.length ≤ 65507)

/-- A fragment: 16-byte source and destination, 13-bit offset in units of 8, at most 65,535 bytes in all (04 R127). -/
def Fragment.wf (f : Fragment) : Bool :=
  f.srcAddr.length == 16 && f.dstAddr.length == 16 && decide (f.dstUdp < 65536) && decide (f.offset % 8 = 0) && decide (f.offset + f.data.length ≤ 65535)

/-- Header fields of a Mirror message: 32-bit link sequences, a key of at most 240 bytes (09 R298, 02 R46). -/
def MirrorMsg.wf (m : MirrorMsg) : Bool :=
  decide (m.lseq < 2 ^ 32) && decide (m.lack < 2 ^ 32) && decide (m.lapplied < 2 ^ 32) && decide (m.key.length ≤ 240)

/-- A pause frame: PFC carries one quanta field for each priority (10 R343). -/
def PauseFrame.wf : PauseFrame → Bool
  | .link _ => true
  | .pfc _ q => q.length == 8

/-- A fetched submission entry: 64 bytes, with the key bytes behind it (04 R154; log 12). -/
def entryFits (e : Bytes) : Bool := decide (64 ≤ e.length) && decide (e.length ≤ 64 + 240 + 240)

/-- What a frame carries: a router's address is 16 bytes (04 R126), a UDP port 16 bits. -/
def RxProto.wf : RxProto → Bool
  | .udp d => decide (d < 65536)
  | .routerAdv r => r.length == 16
  | _ => true

/-- A received frame: two tags at most are told apart, 48-bit addresses, a length of 1 byte or more (10 R336, R337). -/
def RxFrame.wf (f : RxFrame) : Bool := decide (1 ≤ f.len) && decide (f.tags.length ≤ 2) && f.proto.wf

/-- Whether a command can reach the block. -/
def Instr.wf : Instr → Bool
  | .hello rx dg | .cmd rx dg | .ack rx dg | .keepalive rx dg | .close rx dg => rx.wf && dgFits dg
  | .ipFragment f => f.wf
  | .reassemblyTimeout _ a _ => a.length == 16
  | .arpNdEchoRequest rx _ _ => rx.wf
  | .connectionReq rx priv => rx.wf && decide (priv.length ≤ 196)
  | .doorbell _ off d => decide (off < 4096) && decide (d.length ≤ 4096)
  | .entryFetchResponse _ l => l.all entryFits
  | .mirrorHello rx b | .mirrorHelloAck rx b => rx.wf && dgFits b
  | .mirrorPut m | .mirrorDelete m | .mirrorRange m | .mirrorAck m | .heartbeat m | .repairReq m | .repairRsp m | .ksCfg m | .syncMark m | .refuse m
  | .mirrorClose m => m.wf
  | .pauseFrameReceived _ f => f.wf
  | .frameReceived _ f => f.wf
  | .registerWrite a _ => addrFits a
  | .spiWrite a _ | .spiRead a _ _ | .i2cWrite _ a _ | .i2cRead _ a _ => addrFits a
  | .clkMeasDone k => decide (k < 2 ^ 31)
  | .thermalSample _ d => decide (d.length ≤ 72)
  | .startUpPhaseDone v => v.length == 3
  | .updVerificationDone l => l.all fun i => decide (i ≤ 1022)
  | .authRefusalEnd a => a.length == 16
  | _ => true

end Sys2Proof
end

