-- ==== Sys2Proof/Tests/Slice0.lean ====
section
/-! SUPPORT. The tests: ill-formed terms that WellFormed refuses, the digests against their published values, the examples of the spec, one step each of many commands, and for every statement that has hypotheses a concrete state and operands that meet them all. -/

open Sys2Proof Sys2Proof.Machine

namespace Sys2Proof.Tests

set_option Elab.async false

/-- The machine of the tests: reset, in service, main island on, 10,000 s after the start. -/
def serve : State := State.reset.setLife fun l => { l with phase := 9, clock := 10000000000000, lockOk := true }

/-- `n` zero bytes. -/
def z (n : Nat) : Bytes := List.replicate n 0

/-- Argument bytes, filled up to 24. -/
def a24 (b : Bytes) : Bytes := fit 24 b

/-- The key of the tests and its value. -/
def key : Bytes := [0x6B, 0x65, 0x79, 0x2D, 0x6F, 0x6E, 0x65, 0x21]
def val : Bytes := [1, 2, 3, 4, 5, 6, 7, 8]

/-- An entry of key space 0. -/
def ent (op : Nat) (args : Bytes) (reqLen respLen keyLen : Nat) : Entry :=
  { opcode := op, tag := 7, ks := 0, keyLen := keyLen, reqLen := reqLen, respLen := respLen, args := a24 args }

/-- A command from the side-band mailbox admitted in a state. -/
def adm (s : State) (e : Entry) (p : Bytes) : State := s.admitCmd (newCmd .mbx 1 false e p 16320)

/-- The oldest command of a state, and its home CP. -/
def hd (s : State) : Cmd := s.cmds.headD (newCmd .mbx 1 false {} [] 0)
def cpOf (s : State) : Fin 8 := Fin.ofNat 8 (hd s).home

/-- Key space 0 at reset. -/
def ks0 : KeySpace := State.reset.kv.spaces.headD { ks := 0, ordered := false, limits := [], policy := [], durable := [], keyId := 0 }

/-- The machine holding one key, visible in the Landing. -/
def rec1 : LRec := { id := 0, kind := .value, ks := 0, key := key, adm := 0, epoch := 1, len := 8, val := val, cells := [0], st := .visible, src := .mbx }
def holds : State :=
  let s := serve.setLand fun l => { l with recs := [rec1], nextRec := 1 }
  ((s.setKey 0 0 key 8 (.landing 0 0 1)).1).setMbx fun m => { m with admNext := 5 }

def ie0 : IdxEntry := { tag := 0, b1 := 0, place := .stash, loc := .lost 0 }
def asm0 : Assembly := { id := 0, src := .mbx, ks := 0, key := key, total := 16, got := 8, rec_ := 0, lastPart := 0, openAdm := 0 }

-- Commands at the front of a CP's mailbox.
def wPut : State := adm serve (ent 0x01 (le 4 8) 16 0 8) (key ++ val)
def wDel : State := adm holds (ent 0x03 [] 8 0 8) key
def wDisc : State := adm serve (ent 0x05 [] 8 0 8) key
def wPart : State := adm serve (ent 0x08 (le 4 0 ++ le 4 16) 16 0 8) (key ++ val)
def wAsm : State :=
  serve.setKv (fun k => { k with assemblies := [asm0], nextAsm := 1 })
    |>.setLand fun l => { l with recs := [{ rec1 with st := .filling, len := 16, cells := [], wt := true, staging := 16 }], nextRec := 1 }
def wPart2 : State := adm (wAsm.setKv fun k => { k with assemblies := k.assemblies.map fun a => { a with lastPart := 10000000000000, total := 24 } })
  (ent 0x08 (le 4 8 ++ le 4 24) 16 0 8) (key ++ val)
def wFill : State :=
  (wPut.setLand fun l => { l with recs := [{ rec1 with st := .filling, val := [], cells := [] }], nextRec := 1 }).setCmds fun l =>
    l.map fun c => { c with st := .filling, rec_ := some 0 }
def wHeld (t : Nat) : State := { wDel with cmds := wDel.cmds.map fun c => { c with st := .waiting t } }
def wWait (op : Nat) : State :=
  { wDel with cmds := wDel.cmds.map fun c => { c with st := .waiting 9999900000000, entry := { c.entry with opcode := op } } }
def wGet : State := adm holds (ent 0x02 [] 8 64 8) key
def wGetNo : State := adm serve (ent 0x02 [] 8 64 8) key
def wEx : State := adm holds (ent 0x04 [] 8 0 8) key
def wExNo : State := adm serve (ent 0x04 [] 8 0 8) key
def wMget : State := adm serve (ent 0x07 (le 2 1) 16 64 0) (le 4 8 ++ le 4 8 ++ key)
def wList : State := adm (serve.setSpaces (fun _ => true) fun k => { k with ordered := true }) (ent 0x06 (le 2 5) 0 4096 0) []
def wFlush : State := adm serve (ent 0x09 [] 0 0 0) []
def wFlush2 : State := adm holds (ent 0x09 [] 0 0 0) []
def wAbort : State := adm (adm serve { ent 0x09 [] 0 0 0 with tag := 9 } []) (ent 0x0A (le 2 9) 0 0 0) []
def wAbort2 : State := wAbort.setCmd 0 fun c => { c with st := .durableWait }

-- Commands at the front of the supervisor's mailbox.
def sup (op : Nat) (args : Bytes) (reqLen respLen : Nat) : State := adm serve (ent op args reqLen respLen 0) (z reqLen)
def ks5 : KeySpace := { ks0 with ks := 5, keyId := 1 }
def has5 : State := serve.setKv fun k => { k with spaces := k.spaces ++ [ks5] }
def wCreate : State := adm serve { ent 0x10 [] 0 0 0 with ks := 5 } []
def wKsDel : State := adm has5 { ent 0x11 [] 0 0 0 with ks := 5 } []
def wDeleting : State :=
  let s := adm (has5.setMbx fun m => { m with admNext := 5 }) { ent 0x11 [] 0 0 0 with ks := 5 } []
  (s.setCmds fun l => l.map fun c => { c with st := .deleting }).setSpaces (fun k => k.ks == 5) fun k => { k with deletedAt := some 5 }
def wLimit : State := sup 0x12 ([1] ++ z 7 ++ le 8 5000) 0 0
def wCap (n : Nat) : State := adm serve { ent 0x12 ([1] ++ z 7 ++ le 8 n) 0 0 0 with ks := 0xFF } []
def wFormat : State := sup 0x18 [] 0 0
def wSan : State := sup 0x19 [3] 0 0
def wSanEnd : State := wSan.setSec fun x => { x with san := { x.san with state := 1, stage := 1, adm := some 0, runFrom := some 0 } }
def wSigning : State :=
  let s := sup 0x38 [] 32 16000
  (s.setCmds fun l => l.map fun c => { c with st := .signing }).setSec fun x => { x with signGrant := some 3 }
def wSignWait : State := { sup 0x38 [] 32 16000 with cmds := (sup 0x38 [] 32 16000).cmds.map fun c => { c with st := .signWait 9999900000000 }, sec := { (sup 0x38 [] 32 16000).sec with signGrant := some 3 } }
def wCfg (act : Nat) (body : Bytes) : State := adm serve (ent 0x40 (le 1 act) 128 0 0) (fit 128 ([1, 0] ++ body))
def pair0 : Pairing := { port := 0, alt := none, addr := List.replicate 16 9, udp := 5000, secret := List.replicate 32 1, rank := 0 }
def wUnpair : State := (wCfg 2 []).setMir fun m => { m with pairing := some pair0 }
def wPolicy : State :=
  (adm (serve.setSpaces (fun _ => true) fun k => { k with policy := [(0, .async)] }) (ent 0x40 [3] 128 0 0) (fit 128 ([1, 0] ++ z 54 ++ [2]))).setMir fun m =>
    { m with state := 2, pairing := some pair0 }
def wResync : State := (wCfg 5 (z 55 ++ [1])).setMir fun m => { m with state := 2, pairing := some pair0 }
def wPair : State := wCfg 1 ([0, 0xFF] ++ List.replicate 16 9 ++ le 2 5000)

theorem hCert : (hd (sup 0x39 [] 0 2048)).entry.arg 44 4 = 0 := by decide +kernel

-- Skiff.
def rx0 : Rx := { port := 0, hostAddr := List.replicate 16 2, hostUdp := 4000, localAddr := linkLocal State.reset.ident.mac0, localUdp := 47180, pcp := 0, dscp := 0 }
/-- A Skiff datagram: type, session, sequence number, ack, cookie, body. -/
def dgOf (typ sid seq ack cookie : Nat) (body : Bytes) : Bytes :=
  [0xF1, 0xC5, 1] ++ le 1 typ ++ le 2 sid ++ z 2 ++ le 4 seq ++ le 4 ack ++ z 4 ++ le 4 cookie ++ z 8 ++ body
def skiffOf (typ sid seq ack cookie : Nat) : SkiffIn :=
  { typ := typ, sid := sid, flags := 0, seq := BitVec.ofNat 32 seq, ack := BitVec.ofNat 32 ack, cookie := BitVec.ofNat 32 cookie }
def sess0 : Session :=
  { uid := 0, sid := 5, rx := rx0, cookie := 77, nonce := 99, role := 1, credKind := 0, reqWindow := 8, window0 := 8, maxDgram := 8704, initialSeq := 10,
    nextExpected := 10, hostAck := 10, lastRx := 0, credits := { granted := 8, inUse := 8 } }
def withSess (x : Session) : State := serve.setTr fun t => { t with sessions := [x], nextUid := 1 }
def helloBody : Bytes := le 2 8 ++ le 2 8704 ++ z 8 ++ le 4 99 ++ z 48
/-- The link-local address of P0 (R126). -/
def here : Bytes := linkLocal State.reset.ident.mac0
def frag0 : Fragment := { port := 0, srcAddr := List.replicate 16 2, dstAddr := here, dstUdp := 47180, ident := 1, offset := 0, more := true, data := z 64 }
def linked : State := serve.setPort 0 fun q => { q with link := true, rate := 3 }

-- Ferry.
def req0 : Bytes := [1, 0, 0, 0] ++ le 2 16 ++ le 2 16 ++ le 8 4096 ++ z 8 ++ le 8 8192 ++ le 2 8 ++ z 54
def qp0 : Qp :=
  { uid := 0, qp := 3, rx := rx0, role := 0, credKind := 0, notifyMode := 2, sqEntries := 16, cqEntries := 16, sqAddr := 4096, sqRkey := 0, cqRkey := 0,
    cqAddr := 8192, reqCredits := 8, notifyCount := 1, notifyUs := 10, dbRkey := 0, reads := [1], unNotified := 1 }
def cpl0 : Completion := { adm := 0, tag := 7, status := 0 }
def withQp (q : Qp) : State := serve.setTr fun t => { t with qps := [q], nextUid := 1 }
def ferryCmd : Cmd := { newCmd (.ferry 0) 0 false (ent 0x05 [] 8 0 0) [] 0 with payload := none }
def withFerry : State := (withQp qp0).setCmds fun _ => [ferryCmd]

-- Firmware update.
def img : Bytes :=
  [0xF3, 0xC5, 1, 0, 7, 0, 0, 0] ++ z 16 ++ List.replicate 8 0xFF ++ le 2 0 ++ le 2 5 ++ le 2 1 ++ z 2 ++ le 4 8242 ++ le 4 8242 ++ z 16 ++
    ((List.range 16).flatMap fun i => le 1 (i + 1) ++ [1, 0, 255] ++ z 4) ++ z 4416
def wOffer : State := adm serve (ent 0x30 [] 4608 256 0) img
def wBlock : State :=
  (sup 0x31 [] 50 0).setUpd fun u => { u with state := 1, header := img, sources := [{ kind := 4, port := 0, number := 0, addr := 0 }] }
def wActivate : State := (sup 0x32 [] 0 0).setUpd fun u => { u with state := 3, slotB := { header := img } }
def wConfirm : State := (sup 0x33 [] 0 0).setUpd fun u => { u with state := 5 }
def wSelf : State := serve.setUpd fun u =>
  { u with state := 3, slotB := { header := img }, sources := [{ kind := 3, port := 0, number := 0, addr := 0 }], fwd := { state := 3, value0 := 16 } }
def wStep (n : Nat) : State := serve.setUpd fun u => { u with state := 4, step := n }
def wTested : State := (serve.setUpd fun u => { u with state := 5 }).setJrn fun j => { j with pagesDurable := 1 }

-- Flash.
def frec0 : FRec := { off := 0, span := 64, kind := .value, ks := 0, key := key, epoch := 1, adm := 0, len := 8, val := val, digest := 0, tweak := 0, keyId := 0, src := .mbx }
def item0 : JobItem := { rec_ := frec0, land := some 0, jseq := some 4 }
def job0 : Job := { id := 0, kind := .drain, stream := 0, seg := 0, pos := 0, chans := [0], all := [0] }
def seg0 : Segment := { seg := 0, stream := 0, chans := 0x3FFFF }
def die0 : Die := { ch := 0, pos := 0, credit := 181440000 }
def read0 : ReadOp := { id := 0, why := .gc, seg := 0, off := 0, ks := 0, key := key, pages := 1, issued := 1 }
def range0 : Range := { id := 0, ks := 0, lo := [], hi := [], adm := 3, epoch := 1 }
def grant (w : Purpose) : Grant := { id := 0, cls := 1, n := 6, why := w }
def grant0 : Grant := grant (.read 0)
def grants (w : Purpose) (s : State) : State := s.setPwr fun p => { p with grants := [grant w], nextGrant := 1 }
def withJob (j : Job) : State := grants (.program 0 0) (serve.setFlash fun f => { f with jobs := [j] })
def wDurable : State :=
  ((withJob { job0 with items := [item0] }).setLand fun l => { l with recs := [rec1], nextRec := 1 }).setJrn fun j => { j with jseqNext := 10 }
def wDurableWt : State := wDurable.setLand fun l => { l with recs := [{ rec1 with wt := true }] }
def wFlying : State := grants .journal (serve.setJrn fun j => { j with flying := [(1, .rangeDone 0 0)], jseqNext := 2 })
def withSeg (g : Segment) : State := serve.setFlash fun f => { f with segs := [g] }
def wRead : State := grants (.read 0) ((withSeg seg0).setFlash fun f => { f with reads := [read0], nextRead := 1 })
def wRetrain : State := serve.setFlash fun f => { f with channels := List.replicate 18 { retrains := 2 } }
def wGc : State := withSeg { seg0 with st := .sealed, refresh := true }
def wErase : State := grants (.erase 0 0) (withSeg { seg0 with st := .erasing, chans := 1, eraseAsked := true })
def wScrub : State := withSeg seg0

/-- A digest is never the empty string, which stands for the digest of a shipped image. -/
theorem sha256_ne_nil (b : Bytes) : ([] : Bytes) ≠ sha256 b := by
  intro h
  have hl : (sha256 b).length = 0 := by rw [← h]; rfl
  unfold sha256 at hl
  simp [be, le] at hl

theorem not_running {s : State} {b : Bytes} (h : s.runningSlot.hash = []) : s.runningSlot.hash ≠ sha256 b := by
  rw [h]; exact sha256_ne_nil b

def wOfferC : Cmd := (wOffer.supFront 0x30).get (by decide +kernel)

-- Power, hold-up, resets, data mover.
def life (f : Life → Life) : State := serve.setLife f
def hold (f : Holdup → Holdup) : State := serve.setHold f
def fr0 : FullReset := { cause := 3 }
def svc0 : SvcReset := { cause := 4, since := 0 }
def desc0 : Desc := { len := 2, dst := 64 }
def dmaWith (c : DmaCh) : State := (life fun l => { l with phase := 10 }).setDma fun d => { d with ch := modAt d.ch 0 fun _ => c }
def dch0 : DmaCh := { st := .running, active := some desc0, dst := 64, remain := 2 }
def dchDrain : DmaCh := { dch0 with draining := true, stopping := true }
def dchBad : DmaCh := { dch0 with active := some { desc0 with src := 0xFFFFFFFFFFFF }, src := 0xFFFFFFFFFFFF }

-- Mirror.
def rxM : Rx := { port := 0, hostAddr := List.replicate 16 9, hostUdp := 5000, localAddr := linkLocal State.reset.ident.mac0, localUdp := 47181, pcp := 0, dscp := 0 }
def mirror (f : Mirror → Mirror) : State := serve.setMir fun m => f { m with pairing := some pair0, state := 2 }
def wHello (st : Nat) : State := mirror fun m => { m with state := st, helloSent := some 0, nonce := z 16 }
def ackBody : Bytes := z 49 ++ helloProof pair0.secret (z 16) (z 16) (fit 24 State.reset.ident.serial) (z 24)
def msg0 : MirrorMsg := { lseq := 1, lack := 1, lapplied := 1, stamp := 0, ks := 0, flags := 0, key := key, body := z 16 }
def wRepair : State := serve.setFlash fun f => { f with reads := [{ read0 with peerSince := some 0 }] }
def ksRefused : KeySpace := { ks0 with policy := [(0, .async)], ksState := 8 }
def wProbe : State :=
  (mirror fun m => { m with log := [{ ks := 0, key := key, stamp := 0 }] }).setSpaces (fun _ => true) fun k => { k with policy := [(0, .async)], ksState := 8 }

-- Ports.
def port (f : Port → Port) : State := linked.setPort 0 f
def sample0 : TrafficSample := { rxBps := 0, txBps := 0, starved := false }
def frame0 : RxFrame := { len := 64, dst := 0xFFFFFFFFFFFF, tags := [], fcsOk := true, symbolErr := false, ipErr := false, proto := .udp 47180 }
def fcOn (v : BitVec 19) : State := linked.setStored fun c => { c with ports := modAt c.ports 0 fun x => { x with fc := v } }
def gadm0 : GateList := { cycle := 400, len := 1, entries := (0xFF, 400) :: List.replicate 255 (0, 0) }
def class0 : TxClass := { pausedUntil := some 20000000000000 }
def ptpMsg0 : PtpMsg := { port := 0, sent := false, msgType := 0, domain := 0, seqId := 1, transport := 0, oneStep := true, offset := some 5 }
def ptp (f : Ptp → Ptp) : State := serve.setPtp f
def ts0 : TsEntry := .stamp 0 0 1 2 3
def evRec0 : EvRec := { seq := 1, code := 0x0303, sev := 2, src := uPower, up := 0, wall := 0, p0 := 5, p1 := 0 }
def evr (f : Recorder → Recorder) : State := serve.setEvr fun r => f { r with on := true }
def side (f : SideBand → SideBand) : State := serve.setSb f
def mbx31 (f : Mailbox → Mailbox) : State := serve.setMbx f
def wBad : State := adm serve { ent 0x02 [] 8 64 8 with rsv6 := 1 } key
def wBadSup : State := serve.admitCmd (newCmd .mbx 0 false { ent 0x10 [] 0 0 0 with ks := 5 } [] 16320)
def wEvr (lo : Word) : State := evr fun r => { r with cursorLo := lo, next := 9, ring := [evRec0] }

-- More of the key space.
def tl (s : State) : Cmd := s.cmds.getLastD (hd s)
/-- An ABORT of `tag` behind a command of opcode `op` with tag 9. -/
def wAbortT (tag op : Nat) : State := adm (adm serve { ent op (le 2 3) 0 0 0 with tag := 9 } []) (ent 0x0A (le 2 tag) 0 0 0) []
/-- The machine holding one key on flash, its header cached. -/
def flashed : State :=
  let s := serve.setFlash fun f => { f with segs := [{ seg := 0, stream := 0, chans := 0x3FFFF, recs := [{ off := 0, span := 128, kind := .value, ks := 0, key := key, epoch := 1, adm := 0, len := 8, val := val, digest := 0, tweak := 0, keyId := 0, src := .mbx }] }] }
  ((s.setKey 0 0 key 8 (.flash 0 0 1)).1).setMbx fun m => { m with admNext := 5 }
def wGetF : State := adm flashed (ent 0x02 [] 8 64 8) key
def wExF : State := adm flashed (ent 0x04 [] 8 0 8) key
def wMgetP (off room : Nat) (s : State) : State := adm s (ent 0x07 (le 2 1) 16 room 0) (le 4 off ++ le 4 8 ++ key)
def wListP (ordered : Bool) (room : Nat) (s : State) : State :=
  adm (s.setSpaces (fun _ => true) fun k => { k with ordered := ordered }) (ent 0x06 (le 2 5) 0 room 0) []
def wListN : State :=
  wListP true 4096 (((serve.setFlash fun f => { f with segs := flashed.flash.segs }).setSpaces (fun _ => true) fun k => { k with tree := [{ key := key, len := 8, lost := false }] }).setPrism fun p =>
    { p with nodes := [{ id := 0, ks := 0, level := 0, leaves := [{ key := key, len := 8, lost := false }], place := some (0, 0) }] })
theorem listN : wListN.listShown (hd wListN) (wListN.kv.spaces.headD ks0) = [{ key := key, len := 8, lost := false }] := by
  have l : wListN.lookup (hd wListN).entry.ks key = none := by decide +kernel
  have t : (wListN.kv.spaces.headD ks0).tree.zipIdx = [({ key := key, len := 8, lost := false }, 0)] := by decide +kernel
  have a : (hd wListN).key.isEmpty = true := by decide +kernel
  have b : ((hd wListN).entry.tailOf ((hd wListN).payload.getD []) ((hd wListN).entry.arg 42 1)).isEmpty = true := by decide +kernel
  unfold State.listShown
  rw [t]
  simp [l, a, b]
def wStash : State :=
  (wWait 1).setPrism fun p => { p with entries := (List.range 4096).map fun i => { tag := 0, b1 := i + 1, place := .stash, loc := .lost i } }
def wLimitD : State := adm serve { ent 0x12 ([1] ++ z 7 ++ le 8 5000) 0 0 0 with durability := 2 } []

-- Ports that are up, payload reads, the update session.
def up (s : State) : State := s.setPort 0 fun q => { q with link := true, rate := 3 }
def withPay : State := (withQp { qp0 with payReads := [0] }).setCmds fun _ => [ferryCmd]
def wOfferS (room : Nat) (s : State) : State := adm s (ent 0x30 [] 4608 room 0) img
def src0 : UpdSrc := serve.srcOf (hd wOffer)
def wRuns : State := serve.setUpd fun u => { u with slotA := { u.slotA with hash := sha256 img } }
def noHash (s : State) : State := s.setUpd fun u => { u with slotA := { u.slotA with hash := [] } }
def wSame : State := (noHash serve).setUpd fun u => { u with state := 1, header := img }
def wOther : State := (noHash serve).setUpd fun u => { u with state := 3, header := [1], sources := [src0] }
def wOther2 : State := (noHash serve).setUpd fun u => { u with state := 3, header := [1] }
/-- An image for another variant. -/
def wOfferBad : State := adm (noHash serve) (ent 0x30 [] 4608 128 0) (img.take 4 ++ [0] ++ img.drop 5)
def wBlk (args : Bytes) (held : List Nat) : State :=
  let s := sup 0x31 args 50 0
  s.setUpd fun u => { u with state := 1, header := img, held := held, sources := [s.srcOf (hd s)] }
def wBlk2 : State :=
  let s := sup 0x31 (le 4 0 ++ le 4 8192) 50 0
  s.setUpd fun u => { u with state := 1, header := img, sources := [s.srcOf (hd s)], partials := [{ index := 0, owner := s.srcOf (hd s), data := z 8192, at_ := 0 }] }
def wAct (n : Nat) : State := (sup 0x32 [] 0 0).setUpd fun u => { u with state := n }
def wActNo : State := wAct 3

/-- The command at the front of the supervisor's mailbox. -/
def frontC (s : State) (op : Nat) : Cmd := (s.supFront op).getD (hd s)
theorem frontC_eq {s : State} {op : Nat} (h : (s.supFront op).isSome = true) : s.supFront op = some (frontC s op) := by
  unfold frontC
  cases h' : s.supFront op with
  | none => rw [h'] at h; cases h
  | some c => rfl
theorem one_ne_img : sha256 [1] ≠ sha256 img := by decide +kernel
theorem one_ne {b : Bytes} (h : b = img) : sha256 [1] ≠ sha256 b := h ▸ one_ne_img

-- The array.
def wDurableGone : State := wDurable.setJrn fun j => { j with log := [(4, .mapSet 0 key (.flash 0 0 1) 8 0 1)] }
def wSlice : State := grants .checkpoint (serve.setJrn fun j => { j with writing := some { slice := 0, beginJseq := 0, rows := [], ranges := [] }, jseqNext := 1 })
def slice0 : Slice := { slice := 0, beginJseq := 0, rows := [], ranges := [] }
def wReadOff : State := wRead.setFlash fun f => { f with dies := [] }
def wCopied : State := withSeg { seg0 with st := .copied }
def txf0 : TxFrame := { msg := .delayReq 0 0, len := 64, cells := 1, pcp := 0 }
/-- A doorbell with a length that does not fit its entry. -/
def wMis : State := mbx31 fun m => { m with reqLen := 65, reqBuf := writeCells [] 0 [0x20] }
def eMis : Entry := parseEntry ([0x20] ++ z 63)
def wMisTaken : State :=
  (wMis.setMbx fun m => { m with mbxState := 1, cancelled := false, cancelLate := false, cancelPending := false, tag := eMis.tag, cmds := m.cmds.admitOne }).admitCmd
    (newCmd .mbx 1 false eMis [] 16320)

-- States of the row reads, the held copy, probes and the clock.
def segRow : Segment := { seg0 with chans := 3 }
def wRow : State :=
  ((withSeg segRow).setFlash fun f => { f with reads := [read0], nextRead := 1 }).setPwr fun p =>
    { p with grants := [grant (.read 0), { grant (.rebuild 0) with id := 1 }], nextGrant := 2 }
def wRowSpent : State :=
  wRow.setFlash (fun f => { f with jobs := [{ job0 with chans := [0, 1], all := [0, 1] }], dies := f.dies.map fun d => { d with suspends := 4 } })
    |>.setPwr fun p => { p with grants := { grant (.program 0 1) with id := 2 } :: p.grants }
def wSpillRead : State := grants (.read 0) (serve.setFlash fun f => { f with reads := [{ read0 with seg := spillSeg }], nextRead := 1 })
theorem getD_eq {o : Option State} {d : State} (h : o.isSome = true) : o = some (o.getD d) := by
  cases o with
  | none => cases h
  | some x => rfl
/-- A copy for space held by the write pause while a segment waits for its refresh. -/
def wGcHeld : State :=
  (serve.setFlash fun f => { f with segs := [{ seg0 with st := .sealed, refresh := true }, { seg0 with seg := 1, st := .copying 1 }], copy := some { seg := 1 } }).setThm fun t =>
    { t with writePause := true }
def wProbeF : State :=
  (flashed.setMir fun m => { m with pairing := some pair0, state := 2, log := [{ ks := 0, key := key, stamp := 0 }] }).setSpaces (fun _ => true) fun k =>
    { k with policy := [(0, .async)], ksState := 8 }
/-- Every timestamp queue is full. -/
def wTsFull : State := ptp fun t => { t with q := t.q.map fun _ => { entries := List.replicate 64 ts0 } }
def wMaster : State := linked.setPtp fun t =>
  { t with cfg := 3, masters := [{ port := 0, sender := 1, data := { prio1 := 128, clockClass := 6, accuracy := 0x21, variance := 0, prio2 := 128, gm := 1, steps := 0 },
                                   logInterval := 0, last := 10000000000000, prev := some 9999000000000 }] }

theorem witness_EmptyQueueTicksAndNoWordSpells_0 :
    ∃ (s : State), s.pending = [] :=
  ⟨State.reset, by decide +kernel⟩

theorem witness_WritesPastTheirChecks_0 :
    ∃ (cp : Fin 8) (s : State) (c : Cmd) (k : KeySpace), 
    let u := ((s.keyChecks c [(c.entry.ks, c.key)] true).2).dropSeen c.entry.ks c.adm c.key
    (s.frontOf cp.val 0x01 = some c) ∧ (s.precheck c = none) ∧ (roRefuses (s.roAt c.adm) 0x01 = false) ∧ ((s.keyChecks c [(c.entry.ks, c.key)] true).1 = false) ∧ (u.spaceOf c = some k) ∧ (u.stale c = false) ∧ (u.valueGate c k c.entry.valueLen = .go) :=
  ⟨cpOf wPut, wPut, hd wPut, ks0, by dsimp only; decide +kernel⟩

theorem witness_WritesPastTheirChecks_1 :
    ∃ (cp : Fin 8) (s : State) (c : Cmd) (k : KeySpace) (e : IdxEntry), 
    let u := (s.keyChecks c [(c.entry.ks, c.key)] true).2
    (s.frontOf cp.val 0x03 = some c) ∧ (s.precheck c = none) ∧ (roRefuses (s.roAt c.adm) c.entry.opcode = false) ∧ ((s.keyChecks c [(c.entry.ks, c.key)] true).1 = false) ∧ (roRefuses (u.roAt c.adm) c.entry.opcode = false) ∧ (u.lookup c.entry.ks c.key = some e) ∧ ((u.find c.entry.ks c.key).1.isSome = true) ∧ (u.spaceOf c = some k) ∧ ((u.find c.entry.ks c.key).2.stale c = false) ∧ ((u.find c.entry.ks c.key).2.pauseGate k c false false = false) ∧ ((u.find c.entry.ks c.key).2.roomGate 1 0 = true) :=
  ⟨cpOf wDel, wDel, hd wDel, wDel.kv.spaces.headD ks0, (wDel.lookup 0 key).getD ie0, by dsimp only; decide +kernel⟩

theorem witness_WritesPastTheirChecks_2 :
    ∃ (cp : Fin 8) (s : State) (c : Cmd) (k : KeySpace), (s.frontOf cp.val 0x05 = some c) ∧ (s.precheck c = none) ∧ (c.payload.isSome = true) ∧ (roRefuses (s.roAt c.adm) c.entry.opcode = false) ∧ (s.spaceOf c = some k) ∧ (s.pauseGate k c false false = false) ∧ (s.rangesHeld < 1024) ∧ (s.roomGate 1 0 = true) :=
  ⟨cpOf wDisc, wDisc, hd wDisc, ks0, by decide +kernel⟩

theorem witness_WritesPastTheirChecks_3 :
    ∃ (cp : Fin 8) (s : State) (c : Cmd) (k : KeySpace), 
    let u := ((s.keyChecks c [(c.entry.ks, c.key)] true).2).dropSeen c.entry.ks c.adm c.key
    (s.frontOf cp.val 0x08 = some c) ∧ (s.precheck c = none) ∧ (c.payload.isSome = true) ∧ (c.entry.opens = true) ∧ (c.entry.isFinal = false) ∧ (roRefuses (s.roAt c.adm) c.entry.opcode = false) ∧ ((s.keyChecks c [(c.entry.ks, c.key)] true).1 = false) ∧ (u.spaceOf c = some k) ∧ (u.valueGate c k c.entry.valueLen = .go) ∧ (u.asmRoom c = true) ∧ (u.asmOf c = none) :=
  ⟨cpOf wPart, wPart, hd wPart, ks0, by dsimp only; decide +kernel⟩

theorem witness_WritesPastTheirChecks_4 :
    ∃ (cp : Fin 8) (s : State) (c : Cmd) (a : Assembly), (s.frontOf cp.val 0x08 = some c) ∧ (s.precheck c = none) ∧ (c.payload.isSome = true) ∧ (c.entry.opens = false) ∧ (c.entry.isFinal = false) ∧ (roRefuses (s.roAt c.adm) c.entry.opcode = false) ∧ (s.asmOf c = some a) ∧ (a.total = c.entry.arg 44 4) ∧ (a.got = c.entry.arg 40 4) ∧ (a.got + c.entry.partLen ≤ a.total) :=
  ⟨cpOf wPart2, wPart2, hd wPart2, wPart2.kv.assemblies.headD asm0, by decide +kernel⟩

theorem witness_WritesInProgressMoveOn_0 :
    ∃ (adm : Nat) (id : Nat) (s : State) (c : Cmd) (p : Bytes) (r : LRec), 
    let t := (s.moved adm).setRec id fun r => { r with val := r.val ++ c.entry.tailOf p (c.entry.arg 40 4), st := .valid, adm := c.adm, epoch := s.life.bootEpoch, visAt := s.now }
    (s.running = true) ∧ (s.cmd? adm = some c) ∧ (c.st = .filling) ∧ (c.rec_ = some id) ∧ (c.payload = some p) ∧ (c.entry.opcode = 0x01) ∧ (t.rec? id = some r) ∧ (r.wt = false) :=
  ⟨0, 0, wFill, hd wFill, key ++ val, { rec1 with st := .valid, epoch := 1, visAt := 10000000000000, cells := [] }, by dsimp only; decide +kernel⟩

theorem witness_WritesInProgressMoveOn_1 :
    (∃ (adm : Nat) (s : State) (c : Cmd), 
    let full := (c.entry.opcode = 0x01 ∨ c.entry.opcode = 0x08) ∧ s.stashFull = true ∧ s.lookup c.entry.ks c.key = none
    (s.running = true) ∧ (s.cmd? adm = some c) ∧ (s.waitedOut c = true) ∧ (c.src ≠ .mirror) ∧ (full)) ∧
    (∃ (adm : Nat) (s : State) (c : Cmd), 
    let full := (c.entry.opcode = 0x01 ∨ c.entry.opcode = 0x08) ∧ s.stashFull = true ∧ s.lookup c.entry.ks c.key = none
    (s.running = true) ∧ (s.cmd? adm = some c) ∧ (s.waitedOut c = true) ∧ (c.src ≠ .mirror) ∧ (¬ full)) :=
  ⟨⟨5, wStash, hd wStash, by dsimp only; decide +kernel⟩,
   ⟨5, wHeld 0, hd (wHeld 0), by dsimp only; decide +kernel⟩⟩

theorem witness_WritesInProgressMoveOn_2 :
    (∃ (adm : Nat) (t : Nat) (s : State) (c : Cmd), (s.running = true) ∧ (s.cmd? adm = some c) ∧ (c.st = .waiting t) ∧ (c.entry.opcode = 0x01)) ∧
    (∃ (adm : Nat) (t : Nat) (s : State) (c : Cmd), (s.running = true) ∧ (s.cmd? adm = some c) ∧ (c.st = .waiting t) ∧ (c.entry.opcode = 0x08)) ∧
    (∃ (adm : Nat) (t : Nat) (s : State) (c : Cmd), (s.running = true) ∧ (s.cmd? adm = some c) ∧ (c.st = .waiting t) ∧ (c.entry.opcode = 0x03)) ∧
    (∃ (adm : Nat) (t : Nat) (s : State) (c : Cmd), (s.running = true) ∧ (s.cmd? adm = some c) ∧ (c.st = .waiting t) ∧ (c.entry.opcode = 0x05)) :=
  ⟨⟨5, 9999900000000, wWait 1, hd (wWait 1), by decide +kernel⟩,
   ⟨5, 9999900000000, wWait 8, hd (wWait 8), by decide +kernel⟩,
   ⟨5, 9999900000000, wWait 3, hd (wWait 3), by decide +kernel⟩,
   ⟨5, 9999900000000, wWait 5, hd (wWait 5), by decide +kernel⟩⟩

theorem witness_WritesInProgressMoveOn_3 :
    ∃ (asm : Nat) (s : State) (a : Assembly), ((s.kv.assemblies.find? fun x => x.id == asm) = some a) ∧ (s.past a.lastPart (30 * oneSec) = true) ∧ (s.asmOpen a = true) :=
  ⟨0, wAsm, asm0, by decide +kernel⟩

theorem witness_GetAndExistsAnswer_0 :
    ∃ (cp : Fin 8) (s : State) (c : Cmd) (x : IdxEntry) (len : Nat) (adm : Nat) (ep : BitVec 16), 
    let u := (s.keyChecks c [(c.entry.ks, c.key)] false).2
    let t := (u.find c.entry.ks c.key).2
    (s.frontOf cp.val 0x02 = some c) ∧ (s.precheck c = none) ∧ ((s.keyChecks c [(c.entry.ks, c.key)] false).1 = false) ∧ ((u.find c.entry.ks c.key).1 = some x) ∧ (t.infoAt x.loc = some (len, adm, ep)) ∧ (x.loc.isLost = false) ∧ (c.entry.arg 48 6 = 0) ∧ (c.entry.arg 40 4 ≤ len) ∧ (t.servedAtOnce x.loc false = true) :=
  ⟨cpOf wGet, wGet, hd wGet, ((wGet.find 0 key).1).getD ie0, 8, 0, 1, by dsimp only; decide +kernel⟩

theorem witness_GetAndExistsAnswer_1 :
    ∃ (cp : Fin 8) (s : State) (c : Cmd), 
    let u := (s.keyChecks c [(c.entry.ks, c.key)] false).2
    (s.frontOf cp.val 0x02 = some c) ∧ (s.precheck c = none) ∧ ((s.keyChecks c [(c.entry.ks, c.key)] false).1 = false) ∧ ((u.find c.entry.ks c.key).1 = none) :=
  ⟨cpOf wGetNo, wGetNo, hd wGetNo, by dsimp only; decide +kernel⟩

theorem witness_GetAndExistsAnswer_2 :
    ∃ (cp : Fin 8) (s : State) (c : Cmd) (x : IdxEntry) (len : Nat) (adm : Nat) (ep : BitVec 16), 
    let u := (s.keyChecks c [(c.entry.ks, c.key)] false).2
    let t := (u.find c.entry.ks c.key).2
    (s.frontOf cp.val 0x02 = some c) ∧ (s.precheck c = none) ∧ ((s.keyChecks c [(c.entry.ks, c.key)] false).1 = false) ∧ ((u.find c.entry.ks c.key).1 = some x) ∧ (t.infoAt x.loc = some (len, adm, ep)) ∧ (x.loc.isLost = false) ∧ (c.entry.arg 48 6 = 0) ∧ (c.entry.arg 40 4 ≤ len) ∧ (t.servedAtOnce x.loc false = false) :=
  ⟨cpOf wGetF, wGetF, hd wGetF, ((wGetF.find 0 key).1).getD ie0, 8, 0, 1, by dsimp only; decide +kernel⟩

theorem witness_GetAndExistsAnswer_3 :
    ∃ (cp : Fin 8) (s : State) (c : Cmd) (x : IdxEntry) (len : Nat) (adm : Nat) (ep : BitVec 16), 
    let u := (s.keyChecks c [(c.entry.ks, c.key)] false).2
    let t := (u.find c.entry.ks c.key).2
    (s.frontOf cp.val 0x04 = some c) ∧ (s.precheck c = none) ∧ ((s.keyChecks c [(c.entry.ks, c.key)] false).1 = false) ∧ ((u.find c.entry.ks c.key).1 = some x) ∧ (t.infoAt x.loc = some (len, adm, ep)) ∧ (x.loc.isLost = false) ∧ (t.servedAtOnce x.loc true = false) :=
  ⟨cpOf wExF, wExF, hd wExF, ((wExF.find 0 key).1).getD ie0, 8, 0, 1, by dsimp only; decide +kernel⟩

theorem witness_GetAndExistsAnswer_4 :
    ∃ (cp : Fin 8) (s : State) (c : Cmd) (x : IdxEntry) (len : Nat) (adm : Nat) (ep : BitVec 16), 
    let u := (s.keyChecks c [(c.entry.ks, c.key)] false).2
    let t := (u.find c.entry.ks c.key).2
    (s.frontOf cp.val 0x04 = some c) ∧ (s.precheck c = none) ∧ ((s.keyChecks c [(c.entry.ks, c.key)] false).1 = false) ∧ ((u.find c.entry.ks c.key).1 = some x) ∧ (t.infoAt x.loc = some (len, adm, ep)) ∧ (x.loc.isLost = false) ∧ (t.servedAtOnce x.loc true = true) :=
  ⟨cpOf wEx, wEx, hd wEx, ((wEx.find 0 key).1).getD ie0, 8, 0, 1, by dsimp only; decide +kernel⟩

theorem witness_GetAndExistsAnswer_5 :
    ∃ (cp : Fin 8) (s : State) (c : Cmd), 
    let u := (s.keyChecks c [(c.entry.ks, c.key)] false).2
    (s.frontOf cp.val 0x04 = some c) ∧ (s.precheck c = none) ∧ ((s.keyChecks c [(c.entry.ks, c.key)] false).1 = false) ∧ ((u.find c.entry.ks c.key).1 = none) :=
  ⟨cpOf wExNo, wExNo, hd wExNo, by dsimp only; decide +kernel⟩

theorem witness_MgetReturnsItsValues_0 :
    (∃ (cp : Fin 8) (s : State) (c : Cmd), (s.frontOf cp.val 0x07 = some c) ∧ (s.precheck c = none) ∧ (c.payload.isSome = true) ∧ ((s.keyChecks c (s.mgetKeys c) false).1 = false) ∧ (c.elemsFit = false)) ∧
    (∃ (cp : Fin 8) (s : State) (c : Cmd), (s.frontOf cp.val 0x07 = some c) ∧ (s.precheck c = none) ∧ (c.payload.isSome = true) ∧ ((s.keyChecks c (s.mgetKeys c) false).1 = false) ∧ (c.elemsFit = true) ∧ (c.respRoom < 16 * c.entry.arg 40 2)) ∧
    (∃ (cp : Fin 8) (s : State) (c : Cmd), 
    let u := (s.keyChecks c (s.mgetKeys c) false).2
    let found := (u.mgetFind c).2
    let v := (u.mgetFind c).1.mgetStart c found
    (s.frontOf cp.val 0x07 = some c) ∧ (s.precheck c = none) ∧ (c.payload.isSome = true) ∧ ((s.keyChecks c (s.mgetKeys c) false).1 = false) ∧ (c.elemsFit = true) ∧ (16 * c.entry.arg 40 2 ≤ c.respRoom) ∧ ((v.flash.reads.any fun r => r.serves c.adm) = true)) ∧
    (∃ (cp : Fin 8) (s : State) (c : Cmd), 
    let u := (s.keyChecks c (s.mgetKeys c) false).2
    let found := (u.mgetFind c).2
    let v := (u.mgetFind c).1.mgetStart c found
    (s.frontOf cp.val 0x07 = some c) ∧ (s.precheck c = none) ∧ (c.payload.isSome = true) ∧ ((s.keyChecks c (s.mgetKeys c) false).1 = false) ∧ (c.elemsFit = true) ∧ (16 * c.entry.arg 40 2 ≤ c.respRoom) ∧ ((v.flash.reads.any fun r => r.serves c.adm) = false)) :=
  ⟨⟨cpOf (wMgetP 9 64 serve), wMgetP 9 64 serve, hd (wMgetP 9 64 serve), by decide +kernel⟩,
   ⟨cpOf (wMgetP 8 15 serve), wMgetP 8 15 serve, hd (wMgetP 8 15 serve), by decide +kernel⟩,
   ⟨cpOf (wMgetP 8 16 flashed), wMgetP 8 16 flashed, hd (wMgetP 8 16 flashed), by dsimp only; decide +kernel⟩,
   ⟨cpOf (wMgetP 8 16 serve), wMgetP 8 16 serve, hd (wMgetP 8 16 serve), by dsimp only; decide +kernel⟩⟩

theorem witness_ListReturnsItsPage_0 :
    (∃ (cp : Fin 8) (s : State) (c : Cmd) (k : KeySpace), (s.frontOf cp.val 0x06 = some c) ∧ (s.precheck c = none) ∧ (c.payload.isSome = true) ∧ (s.spaceOf c = some k) ∧ (k.ordered = false)) ∧
    (∃ (cp : Fin 8) (s : State) (c : Cmd) (k : KeySpace), (s.frontOf cp.val 0x06 = some c) ∧ (s.precheck c = none) ∧ (c.payload.isSome = true) ∧ (s.spaceOf c = some k) ∧ (k.ordered = true) ∧ (c.entry.respLen < 256)) ∧
    (∃ (cp : Fin 8) (s : State) (c : Cmd) (k : KeySpace), 
    let page := takeFit (c.entry.arg 40 2) c.respRoom (s.listShown c k)
    (s.frontOf cp.val 0x06 = some c) ∧ (s.precheck c = none) ∧ (c.payload.isSome = true) ∧ (s.spaceOf c = some k) ∧ (k.ordered = true) ∧ (256 ≤ c.entry.respLen) ∧ (s.nodesDue k c.key page ≠ [])) ∧
    (∃ (cp : Fin 8) (s : State) (c : Cmd) (k : KeySpace), 
    let page := takeFit (c.entry.arg 40 2) c.respRoom (s.listShown c k)
    (s.frontOf cp.val 0x06 = some c) ∧ (s.precheck c = none) ∧ (c.payload.isSome = true) ∧ (s.spaceOf c = some k) ∧ (k.ordered = true) ∧ (256 ≤ c.entry.respLen) ∧ (s.nodesDue k c.key page = [])) :=
  ⟨⟨cpOf (wListP false 4096 serve), wListP false 4096 serve, hd (wListP false 4096 serve), ks0, by decide +kernel⟩,
   ⟨cpOf (wListP true 255 serve), wListP true 255 serve, hd (wListP true 255 serve), { ks0 with ordered := true }, by decide +kernel⟩,
   ⟨cpOf wListN, wListN, hd wListN, wListN.kv.spaces.headD ks0, by decide +kernel, by decide +kernel, by decide +kernel, by decide +kernel, by decide +kernel, by decide +kernel, by rw [listN]; decide +kernel⟩,
   ⟨cpOf (wListP true 256 serve), wListP true 256 serve, hd (wListP true 256 serve), { ks0 with ordered := true }, by dsimp only; decide +kernel⟩⟩

theorem witness_FlushWaitsForItsWrites_0 :
    ∃ (cp : Fin 8) (s : State) (c : Cmd), (s.frontOf cp.val 0x09 = some c) ∧ (s.precheck c = none) ∧ (s.cmds = [c]) ∧ (s.land.recs = []) ∧ (s.mir.sendq = []) :=
  ⟨cpOf wFlush, wFlush, hd wFlush, by decide +kernel⟩

theorem witness_FlushWaitsForItsWrites_1 :
    ∃ (cp : Fin 8) (s : State) (c : Cmd) (r : LRec), (s.frontOf cp.val 0x09 = some c) ∧ (s.precheck c = none) ∧ (r ∈ s.land.recs) ∧ (r.wt = false) ∧ (r.superseded = false) ∧ (r.src ≠ .mirror) ∧ (r.adm < c.adm) ∧ ((c.entry.ks = 0xFF ∨ r.ks = c.entry.ks)) ∧ (r.st = .visible) :=
  ⟨cpOf wFlush2, wFlush2, hd wFlush2, rec1, by decide +kernel⟩

theorem witness_FlushWaitsForItsWrites_2 :
    ∃ (adm : Nat) (s : State) (c : Cmd) (f : FlushWait), (s.running = true) ∧ (s.cmd? adm = some c) ∧ ((s.kv.flushes.find? fun x => x.adm == adm) = some f) ∧ (f.covered = []) ∧ (f.acks = []) :=
  ⟨0, { wFlush with kv := { wFlush.kv with flushes := [{ adm := 0, covered := [] }] } }, hd wFlush, { adm := 0, covered := [] }, by decide +kernel⟩

theorem witness_AbortDecidesOnItsTarget_0 :
    (∃ (adm : Nat) (s : State) (c : Cmd), 
    let tag := BitVec.ofNat 16 (c.entry.arg 40 2)
    (s.running = true) ∧ (s.pwr.ps = 0) ∧ (s.cmd? adm = some c) ∧ (c.entry.opcode = 0x0A) ∧ (c.st = .posted) ∧ (s.precheck c = none) ∧ (tag = c.entry.tag)) ∧
    (∃ (adm : Nat) (s : State) (c : Cmd) (x : Cmd), 
    let tag := BitVec.ofNat 16 (c.entry.arg 40 2)
    let mine := s.cmds.filter fun y => y.src == c.src && y.entry.tag == tag && decide (y.adm < c.adm)
    (s.running = true) ∧ (s.pwr.ps = 0) ∧ (s.cmd? adm = some c) ∧ (c.entry.opcode = 0x0A) ∧ (c.st = .posted) ∧ (s.precheck c = none) ∧ (tag ≠ c.entry.tag) ∧ (s.unwritten c.src = []) ∧ (mine = [x]) ∧ (x.entry.opcode = 0x0A)) ∧
    (∃ (adm : Nat) (s : State) (c : Cmd) (x : Cmd), 
    let tag := BitVec.ofNat 16 (c.entry.arg 40 2)
    let mine := s.cmds.filter fun y => y.src == c.src && y.entry.tag == tag && decide (y.adm < c.adm)
    (s.running = true) ∧ (s.pwr.ps = 0) ∧ (s.cmd? adm = some c) ∧ (c.entry.opcode = 0x0A) ∧ (c.st = .posted) ∧ (s.precheck c = none) ∧ (tag ≠ c.entry.tag) ∧ (s.unwritten c.src = []) ∧ (mine = [x]) ∧ (x.entry.opcode ≠ 0x0A) ∧ (x.cancellable = true)) ∧
    (∃ (adm : Nat) (s : State) (c : Cmd) (x : Cmd), 
    let tag := BitVec.ofNat 16 (c.entry.arg 40 2)
    let mine := s.cmds.filter fun y => y.src == c.src && y.entry.tag == tag && decide (y.adm < c.adm)
    (s.running = true) ∧ (s.pwr.ps = 0) ∧ (s.cmd? adm = some c) ∧ (c.entry.opcode = 0x0A) ∧ (c.st = .posted) ∧ (s.precheck c = none) ∧ (tag ≠ c.entry.tag) ∧ (s.unwritten c.src = []) ∧ (mine = [x]) ∧ (x.entry.opcode ≠ 0x0A) ∧ (x.cancellable = false)) ∧
    (∃ (adm : Nat) (s : State) (c : Cmd), 
    let tag := BitVec.ofNat 16 (c.entry.arg 40 2)
    let mine := s.cmds.filter fun y => y.src == c.src && y.entry.tag == tag && decide (y.adm < c.adm)
    (s.running = true) ∧ (s.pwr.ps = 0) ∧ (s.cmd? adm = some c) ∧ (c.entry.opcode = 0x0A) ∧ (c.st = .posted) ∧ (s.precheck c = none) ∧ (tag ≠ c.entry.tag) ∧ (s.unwritten c.src = []) ∧ (mine = [])) :=
  ⟨⟨1, wAbortT 7 0x09, tl (wAbortT 7 0x09), by dsimp only; decide +kernel⟩,
   ⟨1, wAbortT 9 0x0A, tl (wAbortT 9 0x0A), hd (wAbortT 9 0x0A), by dsimp only; decide +kernel⟩,
   ⟨1, wAbortT 9 0x09, tl (wAbortT 9 0x09), hd (wAbortT 9 0x09), by dsimp only; decide +kernel⟩,
   ⟨1, wAbort2, tl wAbort2, hd wAbort2, by dsimp only; decide +kernel⟩,
   ⟨1, wAbortT 8 0x09, tl (wAbortT 8 0x09), by dsimp only; decide +kernel⟩⟩

theorem witness_KeySpaceCommandsPastTheirChecks_0 :
    ∃ (s : State) (c : Cmd), (s.supFront 0x10 = some c) ∧ (s.precheck c = none) ∧ (c.entry.arg 56 4 ≤ s.prism.keyLimit) ∧ ((s.kv.spaces.any fun k => k.ks == c.entry.ks) = false) ∧ (policyOf (bitsOf (c.entry.arg 40 1) 2 1) = .off) ∧ (roRefuses (s.roAt c.adm) 0x10 = false) :=
  ⟨wCreate, hd wCreate, by decide +kernel⟩

theorem witness_KeySpaceCommandsPastTheirChecks_1 :
    ∃ (s : State) (c : Cmd), (s.supFront 0x11 = some c) ∧ (s.precheck c = none) ∧ (c.entry.ks ≠ 0) ∧ (roRefuses (s.roAt c.adm) 0x11 = false) :=
  ⟨wKsDel, hd wKsDel, by decide +kernel⟩

theorem witness_KeySpaceCommandsPastTheirChecks_2 :
    ∃ (adm : Nat) (s : State) (c : Cmd) (k : KeySpace), (s.running = true) ∧ (s.cmd? adm = some c) ∧ (c.st = .deleting) ∧ ((s.kv.spaces.find? fun k => k.ks == c.entry.ks && k.deletedAt == some adm) = some k) ∧ (s.earlierOut adm = false) ∧ (k.policyNow = .off) :=
  ⟨5, wDeleting, hd wDeleting, { ks5 with deletedAt := some 5 }, by decide +kernel⟩

theorem witness_KeySpaceCommandsPastTheirChecks_3 :
    ∃ (s : State) (c : Cmd) (k : KeySpace), (s.supFront 0x12 = some c) ∧ (s.precheck c = none) ∧ ((bitOf (c.entry.arg 40 1) 0 || bitOf (c.entry.arg 40 1) 1) = true) ∧ (c.entry.ks ≠ 0xFF) ∧ (s.spaceOf c = some k) :=
  ⟨wLimit, hd wLimit, ks0, by decide +kernel⟩

theorem witness_KeySpaceCommandsPastTheirChecks_4 :
    (∃ (s : State) (c : Cmd) (a : Nat) (b : Nat), 
    let t := s.setKv fun v => { v with tableAt := v.tableAt.or (some s.now) }
    t.isDurable c = false) ∧
    (∃ (s : State) (c : Cmd) (a : Nat) (b : Nat), 
    let t := s.setKv fun v => { v with tableAt := v.tableAt.or (some s.now) }
    t.isDurable c = true) :=
  ⟨⟨wLimit, hd wLimit, 0, 0, by dsimp only; decide +kernel⟩,
   ⟨wLimitD, hd wLimitD, 0, 0, by dsimp only; decide +kernel⟩⟩

theorem witness_CommittedCapacity_0 :
    ∃ (s : State) (c : Cmd), (s.supFront 0x12 = some c) ∧ (s.precheck c = none) ∧ (bitOf (c.entry.arg 40 1) 0 = true) ∧ (bitOf (c.entry.arg 40 1) 1 = false) ∧ (c.entry.ks = 0xFF) ∧ (c.entry.arg 48 8 ≤ s.kv.maxCommitted) :=
  ⟨wCap 16000000000000, hd (wCap 16000000000000), by decide +kernel⟩

theorem witness_CommittedCapacity_1 :
    ∃ (s : State) (c : Cmd), (s.supFront 0x12 = some c) ∧ (s.precheck c = none) ∧ (bitOf (c.entry.arg 40 1) 0 = true) ∧ (c.entry.ks = 0xFF) ∧ (s.kv.maxCommitted < c.entry.arg 48 8) :=
  ⟨wCap 16000000000001, hd (wCap 16000000000001), by decide +kernel⟩

theorem witness_SanitizeRuns_0 :
    ∃ (s : State) (c : Cmd), (s.supFront 0x18 = some c) ∧ (s.precheck c = none) :=
  ⟨wFormat, hd wFormat, by decide +kernel⟩

theorem witness_SanitizeRuns_1 :
    ∃ (s : State) (c : Cmd), (s.supFront 0x19 = some c) ∧ (s.precheck c = none) :=
  ⟨wSan, hd wSan, by decide +kernel⟩

theorem witness_SanitizeRuns_2 :
    ∃ (s : State), (s.running = true) ∧ (s.sec.san.state = 1) ∧ (s.sec.san.stage = 0) ∧ ((s.sec.san.adm.any fun a => s.earlierOut a) = false) ∧ (s.upd.state = 0) ∧ (s.upd.rollback = false) ∧ (s.mir.pairing = none) :=
  ⟨wSan.setSec fun x => { x with san := { x.san with state := 1, stage := 0 } }, by decide +kernel⟩

theorem witness_SanitizeRuns_3 :
    ∃ (s : State), (s.running = true) ∧ (s.sec.san.state = 1) ∧ (s.sec.san.stage = 1) ∧ (s.grantFor .medium = none) :=
  ⟨wSanEnd, by decide +kernel⟩

theorem witness_SanitizeRuns_4 :
    ∃ (s : State) (c : Cmd) (a : Nat), 
    let u := ((s.formatted).returnFor .medium).logEv evSanitize uCrypto s.sec.san.mode 0
    let t := u.setSec fun y => { y with san := { y.san with state := 2, adm := none, elapsedNs := s.sec.san.elapsedNs + (s.sec.san.runFrom.map fun t => u.now - t).getD 0, runFrom := none } }
    (s.running = true) ∧ (s.sec.san.state = 1) ∧ (s.sec.san.stage = 1) ∧ ((s.grantFor .medium).isSome = true) ∧ (s.sec.san.adm = some a) ∧ (t.cmd? a = some c) :=
  ⟨grants .medium wSanEnd, hd wSan, 0, by dsimp only; decide +kernel⟩

theorem witness_StructuresFeaturesAndLogs_0 :
    ∃ (s : State) (c : Cmd), (s.supFront 0x0B = some c) ∧ (s.precheck c = none) ∧ (4096 ≤ c.respRoom) :=
  ⟨sup 0x0B [] 0 4096, hd (sup 0x0B [] 0 4096), by decide +kernel⟩

theorem witness_StructuresFeaturesAndLogs_1 :
    ∃ (s : State) (c : Cmd), (s.supFront 0x20 = some c) ∧ (s.precheck c = none) ∧ (1024 ≤ c.respRoom) :=
  ⟨sup 0x20 [] 0 1024, hd (sup 0x20 [] 0 1024), by decide +kernel⟩

theorem witness_StructuresFeaturesAndLogs_2 :
    ∃ (s : State) (c : Cmd), (s.supFront 0x41 = some c) ∧ (s.precheck c = none) ∧ (2112 ≤ c.respRoom) :=
  ⟨sup 0x41 [] 0 2112, hd (sup 0x41 [] 0 2112), by decide +kernel⟩

theorem witness_StructuresFeaturesAndLogs_3 :
    ∃ (s : State) (c : Cmd), (s.supFront 0x22 = some c) ∧ (s.precheck c = none) ∧ (s.featureStatus (c.entry.arg 40 2) c.entry.ks c.adm = none) ∧ (c.entry.arg 40 2 ≠ 0x000C) :=
  ⟨sup 0x22 [1, 0] 0 16000, hd (sup 0x22 [1, 0] 0 16000), by decide +kernel⟩

theorem witness_StructuresFeaturesAndLogs_4 :
    ∃ (s : State) (c : Cmd), (s.supFront 0x28 = some c) ∧ (s.precheck c = none) ∧ (c.entry.arg 40 1 = 2) ∧ (256 ≤ c.respRoom) ∧ (c.entry.arg 48 8 ≤ 255) :=
  ⟨sup 0x28 ([2] ++ z 7 ++ le 8 255) 0 256, hd (sup 0x28 ([2] ++ z 7 ++ le 8 255) 0 256), by decide +kernel⟩

theorem witness_StructuresFeaturesAndLogs_5 :
    ∃ (s : State) (c : Cmd), (s.supFront 0x28 = some c) ∧ (s.precheck c = none) ∧ (c.entry.arg 40 1 = 1) ∧ (32 ≤ c.respRoom) ∧ (c.entry.arg 48 8 ≤ s.evr.next) :=
  ⟨sup 0x28 [1] 0 32, hd (sup 0x28 [1] 0 32), by decide +kernel⟩

theorem witness_StructuresFeaturesAndLogs_6 :
    ∃ (s : State) (c : Cmd), (s.supFront 0x39 = some c) ∧ (s.precheck c = none) ∧ (c.entry.arg 40 1 ≤ 2) ∧ (c.entry.arg 44 4 ≤ ((Config.cert (c.entry.arg 40 1)).take 2048).length) ∧ (((Config.cert (c.entry.arg 40 1)).take 2048).length - c.entry.arg 44 4 ≤ c.respRoom) :=
  ⟨sup 0x39 [] 0 2048, hd (sup 0x39 [] 0 2048), by decide +kernel, by decide +kernel, by decide +kernel, by rw [hCert]; exact Nat.zero_le _, by rw [hCert, Nat.sub_zero]; exact le_trans (List.length_take_le _ _) (by decide +kernel)⟩

theorem witness_StructuresFeaturesAndLogs_7 :
    ∃ (s : State) (c : Cmd), (s.supFront 0x21 = some c) ∧ (s.precheck c = none) ∧ (s.featureStatus (c.entry.arg 40 2) c.entry.ks c.adm = none) ∧ (c.entry.arg 40 2 ≠ 0x0020) ∧ (s.featureOk (c.entry.arg 40 2) (c.entry.arg 48 8) (c.entry.arg 56 8) = true) :=
  ⟨sup 0x21 ([1, 0] ++ z 6 ++ [4]) 0 0, hd (sup 0x21 ([1, 0] ++ z 6 ++ [4]) 0 0), by decide +kernel⟩

theorem witness_StructuresFeaturesAndLogs_8 :
    ∃ (s : State) (c : Cmd), (s.supFront 0x29 = some c) ∧ (s.precheck c = none) ∧ (c.entry.arg 40 1 = 2) :=
  ⟨sup 0x29 [2] 0 0, hd (sup 0x29 [2] 0 0), by decide +kernel⟩

theorem witness_StructuresFeaturesAndLogs_9 :
    ∃ (s : State) (c : Cmd), (s.supFront 0x29 = some c) ∧ (s.precheck c = none) ∧ (c.entry.arg 40 1 = 1) :=
  ⟨sup 0x29 [1] 0 0, hd (sup 0x29 [1] 0 0), by decide +kernel⟩

theorem witness_AttestRuns_0 :
    ∃ (s : State) (c : Cmd), (s.supFront 0x38 = some c) ∧ (s.precheck c = none) ∧ (864 ≤ c.respRoom) :=
  ⟨sup 0x38 [] 32 864, hd (sup 0x38 [] 32 864), by decide +kernel⟩

theorem witness_AttestRuns_1 :
    ∃ (s : State) (c : Cmd) (g : Nat), 
    let u := s.pumpSign
    (u.sec.signGrant = some g) ∧ ((u.cmds.find? fun x => x.st == .signing) = some c) :=
  ⟨wSigning, hd wSigning, 3, by dsimp only; decide +kernel⟩

theorem witness_AttestRuns_2 :
    ∃ (adm : Nat) (t : Nat) (g : Nat) (s : State) (c : Cmd), (s.sec.signGrant = some g) ∧ (s.cmd? adm = some c) ∧ (c.st = .signWait t) ∧ (s.past t (100 * ms) = true) :=
  ⟨0, 9999900000000, 3, wSignWait, hd wSignWait, by decide +kernel⟩

theorem witness_MirrorCfgActions_0 :
    ∃ (s : State) (c : Cmd), (s.supFront 0x40 = some c) ∧ (s.precheck c = none) ∧ (c.entry.arg 40 1 = 4) ∧ (cfgClean (c.payload.getD []) [(64, 12)] = true) ∧ ((s.spaceOf c).isSome = true) ∧ (1048576 ≤ fieldAt (c.payload.getD []) 64 8) ∧ (fieldAt (c.payload.getD []) 64 8 ≤ 1073741824) ∧ (100 ≤ fieldAt (c.payload.getD []) 72 4) ∧ (fieldAt (c.payload.getD []) 72 4 ≤ 60000) :=
  ⟨wCfg 4 (z 62 ++ le 8 1048576 ++ le 4 100), hd (wCfg 4 (z 62 ++ le 8 1048576 ++ le 4 100)), by decide +kernel⟩

theorem witness_MirrorCfgActions_1 :
    ∃ (s : State) (c : Cmd), (s.supFront 0x40 = some c) ∧ (s.precheck c = none) ∧ (c.entry.arg 40 1 = 2) ∧ (c.entry.ks = 0) ∧ (cfgClean (c.payload.getD []) [] = true) ∧ (s.mir.pairing.isSome = true) ∧ (s.mir.unpairAt = none) ∧ (s.mirrored = []) :=
  ⟨wUnpair, hd wUnpair, by decide +kernel⟩

theorem witness_MirrorCfgActions_2 :
    ∃ (s : State) (c : Cmd) (k : KeySpace), (s.supFront 0x40 = some c) ∧ (s.precheck c = none) ∧ (c.entry.arg 40 1 = 3) ∧ (cfgClean (c.payload.getD []) [(56, 1)] = true) ∧ (fieldAt (c.payload.getD []) 56 1 ≤ 2) ∧ (s.spaceOf c = some k) ∧ (s.mir.state = 2) ∧ (s.mir.unpairAt = none) ∧ (k.policyNow ≠ .off) :=
  ⟨wPolicy, hd wPolicy, { ks0 with policy := [(0, .async)] }, by decide +kernel⟩

theorem witness_MirrorCfgActions_3 :
    ∃ (s : State) (c : Cmd), (s.supFront 0x40 = some c) ∧ (s.precheck c = none) ∧ (c.entry.arg 40 1 = 5) ∧ (cfgClean (c.payload.getD []) [(56, 2)] = true) ∧ (fieldAt (c.payload.getD []) 56 1 = 0) ∧ (fieldAt (c.payload.getD []) 57 1 = 1) ∧ (c.entry.ks = 0) ∧ (s.mir.state = 2) ∧ (s.mir.unpairAt = none) :=
  ⟨wResync, hd wResync, by decide +kernel⟩

theorem witness_MirrorCfgActions_4 :
    ∃ (s : State) (c : Cmd), (s.supFront 0x40 = some c) ∧ (s.precheck c = none) ∧ (c.entry.arg 40 1 = 1) ∧ (c.entry.ks = 0) ∧ (cfgClean (c.payload.getD []) [(2, 20), (24, 32)] = true) ∧ (fieldAt (c.payload.getD []) 2 1 ≤ 1) ∧ (fieldAt (c.payload.getD []) 3 1 = 0xFF) ∧ (1024 ≤ fieldAt (c.payload.getD []) 20 2) ∧ (fieldAt (c.payload.getD []) 20 2 ≠ 4791) ∧ (fieldAt (c.payload.getD []) 20 2 ≠ s.stored.skiffPort) ∧ (s.mir.state ≠ 2) ∧ (s.portUsable (Fin.ofNat 2 (fieldAt (c.payload.getD []) 2 1)) = true) ∧ (s.mir.pairing = none) :=
  ⟨wPair, hd wPair, by decide +kernel⟩

theorem witness_HelloOpensASession_0 :
    ∃ (rx : Rx) (dg : Bytes) (s : State) (h : SkiffIn) (x : Session), (parseSkiff dg = some h) ∧ (h.typ = 1) ∧ (s.accepting = true) ∧ (s.ownAddr rx.port rx.localAddr = true) ∧ (s.portUsable rx.port = true) ∧ (rx.localUdp = s.stored.skiffPort) ∧ ((s.tr.sessions.find? fun x => (x.st == .opened && x.rx.hostAddr == rx.hostAddr && x.rx.hostUdp == rx.hostUdp) && x.nonce == BitVec.ofNat 32 (fieldAt (dg.drop 32) 12 4)) = some x) :=
  ⟨rx0, dgOf 1 0 0 0 0 helloBody, withSess sess0, skiffOf 1 0 0 0 0, sess0, by decide +kernel⟩

theorem witness_HelloOpensASession_1 :
    ∃ (rx : Rx) (dg : Bytes) (s : State) (h : SkiffIn) (role : Nat), 
    let k := s.checkCred rx rx.hostUdp ((dg.drop 32).take 16) (slice (dg.drop 32) 16 48) (fieldAt (dg.drop 32) 4 1)
    (parseSkiff dg = some h) ∧ (h.typ = 1) ∧ (s.accepting = true) ∧ (s.ownAddr rx.port rx.localAddr = true) ∧ (s.portUsable rx.port = true) ∧ (rx.localUdp = s.stored.skiffPort) ∧ (s.tr.sessions = []) ∧ (helloFieldsOk (dg.drop 32) = true) ∧ (k.2 = .granted role) :=
  ⟨rx0, dgOf 1 0 0 0 0 helloBody, serve, skiffOf 1 0 0 0 0, 0, by dsimp only; decide +kernel⟩

theorem witness_SessionDatagrams_0 :
    ∃ (rx : Rx) (dg : Bytes) (s : State) (x : Session) (h : SkiffIn), Safety.OnSession s rx dg 5 x h :=
  ⟨rx0, dgOf 5 5 0 10 77 [], withSess sess0, sess0, skiffOf 5 5 0 10 77, by unfold Safety.OnSession; decide +kernel⟩

theorem witness_SessionDatagrams_1 :
    ∃ (rx : Rx) (dg : Bytes) (s : State) (x : Session) (h : SkiffIn), Safety.OnSession s rx dg 8 x h :=
  ⟨rx0, dgOf 8 5 0 10 77 [], withSess sess0, sess0, skiffOf 8 5 0 10 77, by unfold Safety.OnSession; decide +kernel⟩

theorem witness_SessionDatagrams_2 :
    ∃ (rx : Rx) (dg : Bytes) (s : State) (x : Session) (h : SkiffIn), (Safety.OnSession s rx dg 6 x h) ∧ ((x.takeAck h.ack s.now s.stored.skiffIdle).st = .opened) :=
  ⟨rx0, dgOf 6 5 0 10 77 [], withSess sess0, sess0, skiffOf 6 5 0 10 77, by unfold Safety.OnSession; decide +kernel⟩

theorem witness_SessionDatagrams_3 :
    ∃ (rx : Rx) (dg : Bytes) (s : State) (x : Session) (y : Session) (h : SkiffIn), (Safety.OnSession s rx dg 3 x h) ∧ (y = x.takeAck h.ack s.now s.stored.skiffIdle) ∧ (y.st = .opened) ∧ (fwd 32 y.hostAck.toNat h.seq.toNat = fwd 32 y.hostAck.toNat y.nextExpected.toNat) ∧ (fwd 32 y.hostAck.toNat h.seq.toNat < 256) ∧ (s.life.svc = none) ∧ (h.flags / 8 % 2 = 0) ∧ (((s.setSession x.uid fun _ => y).cmdNext y h.seq dg).2 = true) :=
  ⟨rx0, dgOf 3 5 10 10 77 (le 1 0x20 ++ z 63), withSess sess0, sess0, sess0.takeAck 10 10000000000000 120, skiffOf 3 5 10 10 77, by unfold Safety.OnSession; decide +kernel⟩

theorem witness_SessionsEndAndHeldDatagramsLeave_0 :
    ∃ (sid : Fin 512) (s : State) (x : Session), (s.tr.sessions.find? fun x => x.sid == sid.val && x.st == .closing && x.cmds.outstanding == 0) = some x :=
  ⟨5, withSess { sess0 with st := .closing }, { sess0 with st := .closing }, by decide +kernel⟩

theorem witness_SessionsEndAndHeldDatagramsLeave_1 :
    ∃ (sid : Fin 512) (s : State) (x : Session) (t : Nat), ((s.tr.sessions.find? fun x => x.sid == sid.val) = some x) ∧ (x.st = .closeAcked t) ∧ (s.past t (2 * oneSec) = true) :=
  ⟨5, withSess { sess0 with st := .closeAcked 9998000000000 }, { sess0 with st := .closeAcked 9998000000000 }, 9998000000000, by decide +kernel⟩

theorem witness_SessionsEndAndHeldDatagramsLeave_2 :
    ∃ (sid : Fin 512) (s : State) (x : Session), ((s.tr.sessions.find? fun x => x.sid == sid.val && (x.st == .opened || x.st == .closing)) = some x) ∧ (s.past x.lastRx (x.idleS * oneSec) = true) :=
  ⟨5, withSess sess0, sess0, by decide +kernel⟩

theorem witness_SessionsEndAndHeldDatagramsLeave_3 :
    ∃ (f : Fragment) (s : State), (s.accepting = true) ∧ (s.portUsable f.port = true) ∧ (s.skiffUdp f.dstUdp = true) ∧ (s.ownAddr f.port f.dstAddr = true) ∧ ((s.tr.reasm.find? fun r => r.port == f.port && r.srcAddr == f.srcAddr && r.ident == f.ident) = none) ∧ (s.tr.reasm.length < 1024) ∧ (f.offset + f.data.length ≤ 8712) :=
  ⟨{ frag0 with offset := 8648 }, serve, by decide +kernel⟩

theorem witness_SessionsEndAndHeldDatagramsLeave_4 :
    ∃ (rx : Rx) (k : EchoKind) (n : Nat) (s : State), (s.portUsable rx.port = true) ∧ (s.life.mainOn = true) ∧ ((s.port rx.port).link = true) ∧ (s.answers rx.port k rx.localAddr = true) :=
  ⟨rx0, .icmp6Echo, 64, linked, by decide +kernel⟩

theorem witness_QueuePairsMoveOnAndEnd_0 :
    ∃ (rx : Rx) (priv : Bytes) (s : State) (role : Nat), 
    let k := s.checkCred rx 0 (priv.take 40) (slice priv 40 48) (fieldAt priv 1 1)
    (s.part.ta = true) ∧ (s.accepting = true) ∧ (s.portUsable rx.port = true) ∧ (s.ownAddr rx.port rx.localAddr = true) ∧ (reqFieldsOk priv = true) ∧ (k.2 = .granted role) :=
  ⟨rx0, req0, serve, 0, by dsimp only; decide +kernel⟩

theorem witness_QueuePairsMoveOnAndEnd_1 :
    ∃ (qp : Fin 1024) (data : Bytes) (s : State) (q : Qp), (s.qpOf qp.val = some q) ∧ (q.st = .opened) ∧ (s.qpUp q = true) ∧ (s.life.svc = none) ∧ (data.length = 8) ∧ (fieldAt data 0 2 < q.sqEntries) ∧ (q.cqHead < q.cqEntries) ∧ ((q.cqHead + q.cqEntries - q.cqHead) % q.cqEntries ≤ (q.cqTail + q.cqEntries - q.cqHead) % q.cqEntries) :=
  ⟨3, le 8 15, up (withQp qp0), qp0, by decide +kernel⟩

theorem witness_QueuePairsMoveOnAndEnd_2 :
    ∃ (qp : Fin 1024) (entries : List Bytes) (s : State) (q : Qp) (rest : List Nat), (s.qpOf qp.val = some q) ∧ (q.reads = entries.length :: rest) ∧ (q.st = .opened) ∧ (s.life.svc = none) ∧ (s.accepting = true) ∧ (s.qpUp q = true) :=
  ⟨3, [z 64], up (withQp qp0), qp0, [], by decide +kernel⟩

theorem witness_QueuePairsMoveOnAndEnd_3 :
    ∃ (uid : Nat) (entries : List Bytes) (s : State) (q : Qp), s.qpById uid = some q :=
  ⟨0, [z 64], withQp qp0, qp0, by decide +kernel⟩

theorem witness_QueuePairsMoveOnAndEnd_4 :
    ∃ (qp : Fin 1024) (entries : List Bytes) (s : State) (q : Qp) (rest : List Nat), (s.qpOf qp.val = some q) ∧ (q.reads = entries.length :: rest) ∧ (q.st = .opened) ∧ (s.life.svc.isSome = true) ∧ (s.accepting = true) ∧ (s.qpUp q = true) :=
  ⟨3, [z 64], (up (withQp qp0)).setLife fun l => { l with svc := some svc0 }, qp0, [], by decide +kernel⟩

theorem witness_QueuePairsMoveOnAndEnd_5 :
    ∃ (adm : Nat) (data : Bytes) (s : State) (q : Qp) (c : Cmd), ((s.openQps.find? fun q => q.payReads.head? == some adm) = some q) ∧ (s.qpUp q = true) ∧ (s.cmd? adm = some c) ∧ (data.length = c.entry.reqLen) :=
  ⟨0, z 8, up withPay, { qp0 with payReads := [0] }, ferryCmd, by decide +kernel⟩

theorem witness_QueuePairsMoveOnAndEnd_6 :
    ∃ (qp : Fin 1024) (s : State) (q : Qp) (k : Completion) (rest : List Completion), (s.qpOf qp.val = some q) ∧ (q.cplWait = k :: rest) ∧ (q.cqRoom = true) ∧ (s.qpUp q = true) ∧ (q.rnr = false) :=
  ⟨3, up (withQp { qp0 with cplWait := [cpl0] }), { qp0 with cplWait := [cpl0] }, cpl0, [], by decide +kernel⟩

theorem witness_QueuePairsMoveOnAndEnd_7 :
    ∃ (qp : Fin 1024) (s : State) (q : Qp), (s.qpOf qp.val = some q) ∧ (q.notifyMode = 2) ∧ (0 < q.unNotified) ∧ (s.past q.oldestUn (q.notifyUs * 1000) = true) ∧ (q.cplWait = []) ∧ (q.st = .opened) ∧ (s.qpUp q = true) ∧ (q.rnr = false) :=
  ⟨3, up (withQp qp0), qp0, by decide +kernel⟩

theorem witness_QueuePairsMoveOnAndEnd_8 :
    ∃ (qp : Fin 1024) (s : State) (q : Qp), s.qpOf qp.val = some q :=
  ⟨3, withQp qp0, qp0, by decide +kernel⟩

theorem witness_QueuePairsMoveOnAndEnd_9 :
    (∃ (qp : Fin 1024) (s : State) (q : Qp), (s.qpOf qp.val = some q) ∧ (s.past q.sentAt (67 * ms) = true) ∧ (7 ≤ q.retries)) ∧
    (∃ (qp : Fin 1024) (s : State) (q : Qp), (s.qpOf qp.val = some q) ∧ (s.past q.sentAt (67 * ms) = true) ∧ (q.retries < 7)) :=
  ⟨⟨3, withQp { qp0 with retries := 7 }, { qp0 with retries := 7 }, by decide +kernel⟩,
   ⟨3, withQp { qp0 with retries := 6 }, { qp0 with retries := 6 }, by decide +kernel⟩⟩

theorem witness_QueuePairsMoveOnAndEnd_10 :
    ∃ (adm : Nat) (s : State) (q : Qp) (c : Cmd), (s.qpOfTransfer adm = some q) ∧ (s.cmd? adm = some c) ∧ ((c.cancellable || c.payload.isNone) = true) :=
  ⟨0, withPay, { qp0 with payReads := [0] }, ferryCmd, by decide +kernel⟩

theorem witness_QueuePairsMoveOnAndEnd_11 :
    ∃ (adm : Nat) (s : State) (q : Qp), (s.qpOfTransfer adm = some q) ∧ (s.cmd? adm = none) :=
  ⟨0, withQp { qp0 with payReads := [0] }, { qp0 with payReads := [0] }, by decide +kernel⟩

theorem witness_QueuePairsMoveOnAndEnd_12 :
    ∃ (qp : Fin 1024) (s : State), s.qpOf qp.val = none :=
  ⟨3, serve, by decide +kernel⟩

theorem witness_UpdOfferRuns_0 :
    (∃ (s : State) (c : Cmd), 
    let h := c.payload.getD []
    (s.supFront 0x30 = some c) ∧ (s.precheck c = none) ∧ (headerOk h = false)) ∧
    (∃ (s : State) (c : Cmd), 
    let h := c.payload.getD []
    (s.supFront 0x30 = some c) ∧ (s.precheck c = none) ∧ (headerOk h = true) ∧ (c.respRoom < 128)) ∧
    (∃ (s : State) (c : Cmd), 
    let h := c.payload.getD []
    (s.supFront 0x30 = some c) ∧ (s.precheck c = none) ∧ (headerOk h = true) ∧ (128 ≤ c.respRoom) ∧ (s.runningSlot.hash = sha256 h)) ∧
    (∃ (s : State) (c : Cmd), 
    let h := c.payload.getD []
    let u := s.upd
    let known := fun (x : Slot) => x.state == 5 && x.hash == sha256 h
    let fits := bitOf (hdr h 4 1) s.part.hdrBit && (s.life.recovery || (decide (verKey (hdr h 16 8) ≤ verKey s.fwActive) && decide (verKey s.fwActive ≤ verKey (hdr h 24 8)))) && !(known u.slotA || known u.slotB)
    (s.supFront 0x30 = some c) ∧ (s.precheck c = none) ∧ (headerOk h = true) ∧ (128 ≤ c.respRoom) ∧ (s.runningSlot.hash ≠ sha256 h) ∧ (fits = false)) ∧
    (∃ (s : State) (c : Cmd), 
    let h := c.payload.getD []
    let u := s.upd
    let known := fun (x : Slot) => x.state == 5 && x.hash == sha256 h
    let fits := bitOf (hdr h 4 1) s.part.hdrBit && (s.life.recovery || (decide (verKey (hdr h 16 8) ≤ verKey s.fwActive) && decide (verKey s.fwActive ≤ verKey (hdr h 24 8)))) && !(known u.slotA || known u.slotB)
    (s.supFront 0x30 = some c) ∧ (s.precheck c = none) ∧ (headerOk h = true) ∧ (128 ≤ c.respRoom) ∧ (s.runningSlot.hash ≠ sha256 h) ∧ (fits = true) ∧ (u.state ≠ 0) ∧ (sha256 u.header = sha256 h)) ∧
    (∃ (s : State) (c : Cmd), 
    let h := c.payload.getD []
    let u := s.upd
    let known := fun (x : Slot) => x.state == 5 && x.hash == sha256 h
    let own := u.sources.head?.any fun x => x.same (s.srcOf c)
    let fits := bitOf (hdr h 4 1) s.part.hdrBit && (s.life.recovery || (decide (verKey (hdr h 16 8) ≤ verKey s.fwActive) && decide (verKey s.fwActive ≤ verKey (hdr h 24 8)))) && !(known u.slotA || known u.slotB)
    (s.supFront 0x30 = some c) ∧ (s.precheck c = none) ∧ (headerOk h = true) ∧ (128 ≤ c.respRoom) ∧ (s.runningSlot.hash ≠ sha256 h) ∧ (fits = true) ∧ ((u.state = 1 ∨ u.state = 3)) ∧ (sha256 u.header ≠ sha256 h) ∧ (own = true)) ∧
    (∃ (s : State) (c : Cmd), 
    let h := c.payload.getD []
    let u := s.upd
    let known := fun (x : Slot) => x.state == 5 && x.hash == sha256 h
    let own := u.sources.head?.any fun x => x.same (s.srcOf c)
    let fits := bitOf (hdr h 4 1) s.part.hdrBit && (s.life.recovery || (decide (verKey (hdr h 16 8) ≤ verKey s.fwActive) && decide (verKey s.fwActive ≤ verKey (hdr h 24 8)))) && !(known u.slotA || known u.slotB)
    (s.supFront 0x30 = some c) ∧ (s.precheck c = none) ∧ (headerOk h = true) ∧ (128 ≤ c.respRoom) ∧ (s.runningSlot.hash ≠ sha256 h) ∧ (fits = true) ∧ (u.state ≠ 0) ∧ (sha256 u.header ≠ sha256 h) ∧ ((¬(u.state = 1 ∨ u.state = 3) ∨ own = false))) ∧
    (∃ (s : State) (c : Cmd), 
    let h := c.payload.getD []
    let u := s.upd
    let known := fun (x : Slot) => x.state == 5 && x.hash == sha256 h
    let fits := bitOf (hdr h 4 1) s.part.hdrBit && (s.life.recovery || (decide (verKey (hdr h 16 8) ≤ verKey s.fwActive) && decide (verKey s.fwActive ≤ verKey (hdr h 24 8)))) && !(known u.slotA || known u.slotB)
    (s.supFront 0x30 = some c) ∧ (s.precheck c = none) ∧ (headerOk h = true) ∧ (128 ≤ c.respRoom) ∧ (s.runningSlot.hash ≠ sha256 h) ∧ (fits = true) ∧ (u.state = 0)) :=
  ⟨⟨sup 0x30 [] 4608 256, frontC (sup 0x30 [] 4608 256) 0x30, frontC_eq (by decide +kernel), by decide +kernel, by decide +kernel⟩,
   ⟨wOfferS 127 serve, frontC (wOfferS 127 serve) 0x30, frontC_eq (by decide +kernel), by decide +kernel, by decide +kernel, by decide +kernel⟩,
   ⟨wOfferS 128 wRuns, frontC (wOfferS 128 wRuns) 0x30, frontC_eq (by decide +kernel), by decide +kernel, by decide +kernel, by decide +kernel, congrArg sha256 (eq_of_beq (by decide +kernel))⟩,
   ⟨wOfferBad, frontC (wOfferBad) 0x30, frontC_eq (by decide +kernel), by decide +kernel, by decide +kernel, by decide +kernel, not_running (by decide +kernel), by decide +kernel⟩,
   ⟨wOfferS 128 wSame, frontC (wOfferS 128 wSame) 0x30, frontC_eq (by decide +kernel), by decide +kernel, by decide +kernel, by decide +kernel, not_running (by decide +kernel), by decide +kernel, by decide +kernel, congrArg sha256 (eq_of_beq (by decide +kernel))⟩,
   ⟨wOfferS 128 wOther, frontC (wOfferS 128 wOther) 0x30, frontC_eq (by decide +kernel), by decide +kernel, by decide +kernel, by decide +kernel, not_running (by decide +kernel), by decide +kernel, by decide +kernel, one_ne (eq_of_beq (by decide +kernel)), by decide +kernel⟩,
   ⟨wOfferS 128 wOther2, frontC (wOfferS 128 wOther2) 0x30, frontC_eq (by decide +kernel), by decide +kernel, by decide +kernel, by decide +kernel, not_running (by decide +kernel), by decide +kernel, by decide +kernel, one_ne (eq_of_beq (by decide +kernel)), by decide +kernel⟩,
   ⟨wOfferS 128 (noHash serve), frontC (wOfferS 128 (noHash serve)) 0x30, frontC_eq (by decide +kernel), by decide +kernel, by decide +kernel, by decide +kernel, not_running (by decide +kernel), by decide +kernel, by decide +kernel⟩⟩

theorem witness_UpdBlockRuns_0 :
    (∃ (s : State) (c : Cmd), 
    let src := s.srcOf c
    (s.supFront 0x31 = some c) ∧ (s.precheck c = none) ∧ ((s.upd.state ≠ 1 ∨ s.upd.has src = false))) ∧
    (∃ (s : State) (c : Cmd), 
    let src := s.srcOf c
    let i := c.entry.arg 40 4
    let data := c.payload.getD []
    (s.supFront 0x31 = some c) ∧ (s.precheck c = none) ∧ (s.upd.state = 1) ∧ (s.upd.has src = true) ∧ ((blockCount s.upd.header < i ∨ blockLen s.upd.header i < c.entry.arg 44 4 + data.length))) ∧
    (∃ (s : State) (c : Cmd), 
    let src := s.srcOf c
    let i := c.entry.arg 40 4
    let data := c.payload.getD []
    (s.supFront 0x31 = some c) ∧ (s.precheck c = none) ∧ (s.upd.state = 1) ∧ (s.upd.has src = true) ∧ (i ≤ blockCount s.upd.header) ∧ (c.entry.arg 44 4 + data.length ≤ blockLen s.upd.header i) ∧ (s.upd.held.contains i = true)) ∧
    (∃ (s : State) (c : Cmd), 
    let src := s.srcOf c
    let i := c.entry.arg 40 4
    let data := c.payload.getD []
    let old := s.upd.partials.find? fun p => p.index == i
    let goesOn := match old with | some p => p.owner.same src && c.entry.arg 44 4 == p.data.length | none => c.entry.arg 44 4 == 0
    (s.supFront 0x31 = some c) ∧ (s.precheck c = none) ∧ (s.upd.state = 1) ∧ (s.upd.has src = true) ∧ (i ≤ blockCount s.upd.header) ∧ (c.entry.arg 44 4 + data.length ≤ blockLen s.upd.header i) ∧ (s.upd.held.contains i = false) ∧ (goesOn = false)) ∧
    (∃ (s : State) (c : Cmd), 
    let src := s.srcOf c
    let i := c.entry.arg 40 4
    let data := c.payload.getD []
    let old := s.upd.partials.find? fun p => p.index == i
    let goesOn := match old with | some p => p.owner.same src && c.entry.arg 44 4 == p.data.length | none => c.entry.arg 44 4 == 0
    let all := ((old.map fun p => p.data).getD []) ++ data
    (s.supFront 0x31 = some c) ∧ (s.precheck c = none) ∧ (s.upd.state = 1) ∧ (s.upd.has src = true) ∧ (i ≤ blockCount s.upd.header) ∧ (c.entry.arg 44 4 + data.length ≤ blockLen s.upd.header i) ∧ (s.upd.held.contains i = false) ∧ (goesOn = true) ∧ (all.length ≠ blockLen s.upd.header i)) ∧
    (∃ (s : State) (c : Cmd), 
    let src := s.srcOf c
    let i := c.entry.arg 40 4
    let data := c.payload.getD []
    let old := s.upd.partials.find? fun p => p.index == i
    let goesOn := match old with | some p => p.owner.same src && c.entry.arg 44 4 == p.data.length | none => c.entry.arg 44 4 == 0
    let all := ((old.map fun p => p.data).getD []) ++ data
    (s.supFront 0x31 = some c) ∧ (s.precheck c = none) ∧ (s.upd.state = 1) ∧ (s.upd.has src = true) ∧ (i ≤ blockCount s.upd.header) ∧ (c.entry.arg 44 4 + data.length ≤ blockLen s.upd.header i) ∧ (s.upd.held.contains i = false) ∧ (goesOn = true) ∧ (all.length = blockLen s.upd.header i)) :=
  ⟨⟨sup 0x31 [] 50 0, hd (sup 0x31 [] 50 0), by dsimp only; decide +kernel⟩,
   ⟨wBlk (le 4 0 ++ le 4 16384) [], hd (wBlk (le 4 0 ++ le 4 16384) []), by dsimp only; decide +kernel⟩,
   ⟨wBlk [] [0], hd (wBlk [] [0]), by dsimp only; decide +kernel⟩,
   ⟨wBlk (le 4 0 ++ le 4 8192) [], hd (wBlk (le 4 0 ++ le 4 8192) []), by dsimp only; decide +kernel⟩,
   ⟨wBlk [] [], hd (wBlk [] []), by dsimp only; decide +kernel⟩,
   ⟨wBlk2, hd wBlk2, by dsimp only; decide +kernel⟩⟩

theorem witness_UpdActivateAndConfirmRun_0 :
    (∃ (s : State) (c : Cmd), (s.supFront 0x32 = some c) ∧ (s.precheck c = none) ∧ (s.upd.state = 3) ∧ ((s.life.recovery = true ∨ s.compatible = true))) ∧
    (∃ (s : State) (c : Cmd), (s.supFront 0x32 = some c) ∧ (s.precheck c = none) ∧ (s.upd.state = 3) ∧ (s.life.recovery = false) ∧ (s.compatible = false)) ∧
    (∃ (s : State) (c : Cmd), (s.supFront 0x32 = some c) ∧ (s.precheck c = none) ∧ (s.upd.state = 2)) ∧
    (∃ (s : State) (c : Cmd), (s.supFront 0x32 = some c) ∧ (s.precheck c = none) ∧ (s.upd.state = 0)) ∧
    (∃ (s : State) (c : Cmd), (s.supFront 0x32 = some c) ∧ (s.precheck c = none) ∧ (s.upd.state ≠ 0) ∧ (s.upd.state ≠ 2) ∧ (s.upd.state ≠ 3)) :=
  ⟨⟨wActivate, hd wActivate, by decide +kernel⟩,
   ⟨wActNo, hd wActNo, by decide +kernel⟩,
   ⟨wAct 2, hd (wAct 2), by decide +kernel⟩,
   ⟨wAct 0, hd (wAct 0), by decide +kernel⟩,
   ⟨wAct 1, hd (wAct 1), by decide +kernel⟩⟩

theorem witness_UpdActivateAndConfirmRun_1 :
    (∃ (s : State) (c : Cmd), (s.supFront 0x33 = some c) ∧ (s.precheck c = none) ∧ (s.upd.state = 5)) ∧
    (∃ (s : State) (c : Cmd), (s.supFront 0x33 = some c) ∧ (s.precheck c = none) ∧ (s.upd.state ≠ 5)) :=
  ⟨⟨wConfirm, hd wConfirm, by decide +kernel⟩,
   ⟨sup 0x33 [] 0 0, hd (sup 0x33 [] 0 0), by decide +kernel⟩⟩

theorem witness_UpdateSessionsEnd_0 :
    ∃ (s : State) (by_ : Nat), (s.upd.confirmed ≠ s.upd.active) ∧ (s.upd.confirmed < 2) ∧ (s.upd.active < 2) :=
  ⟨serve.setUpd fun u => { u with active := 1, state := 5 }, 0, by decide +kernel⟩

theorem witness_UpdateSessionsEnd_1 :
    ∃ (s : State), ((s.upd.state = 1 ∨ s.upd.state = 3)) ∧ (s.past s.upd.idleS (3600 * oneSec) = true) :=
  ⟨serve.setUpd fun u => { u with state := 3, idleS := 6400000000000 }, by decide +kernel⟩

theorem witness_UpdateSessionsMoveOnAndConfirm_0 :
    (∃ (bad : List Nat) (s : State), 
    let t := s.returnFor .verifying
    (s.upd.state = 2) ∧ (s.running = true) ∧ ((s.grantFor .verifying).isSome = true) ∧ ((t.upd.held.any fun i => bad.contains i) = true)) ∧
    (∃ (bad : List Nat) (s : State), 
    let t := s.returnFor .verifying
    (s.upd.state = 2) ∧ (s.running = true) ∧ ((s.grantFor .verifying).isSome = true) ∧ ((t.upd.held.any fun i => bad.contains i) = false)) :=
  ⟨⟨[0], grants .verifying (serve.setUpd fun u => { u with state := 2, held := [0, 1] }), by dsimp only; decide +kernel⟩,
   ⟨[2], grants .verifying (serve.setUpd fun u => { u with state := 2, held := [0, 1] }), by dsimp only; decide +kernel⟩⟩

theorem witness_UpdateSessionsMoveOnAndConfirm_1 :
    ∃ (s : State), (s.upd.fwd.state = 6) ∧ (s.running = true) ∧ (s.past s.upd.fwd.lastTry (2 * oneSec) = true) ∧ (s.past s.upd.fwd.since (3600 * oneSec) = false) :=
  ⟨serve.setFwd fun f => { f with state := 6, since := 9999000000000, lastTry := 9998000000000 }, by decide +kernel⟩

theorem witness_UpdateSessionsMoveOnAndConfirm_2 :
    ∃ (s : State) (sid : Nat) (cookie : BitVec 32), (s.upd.fwd.state = 1) ∧ (s.running = true) :=
  ⟨serve.setFwd fun f => { f with state := 1 }, 5, 7, by decide +kernel⟩

theorem witness_UpdateSessionsMoveOnAndConfirm_3 :
    ∃ (s : State) (i : Nat), (s.upd.fwd.state = 2) ∧ (s.running = true) ∧ (s.upd.fwd.sent.contains i = true) ∧ (s.upd.fwd.held.contains i = false) :=
  ⟨serve.setFwd fun f => { f with state := 2, sent := [0] }, 0, by decide +kernel⟩

theorem witness_UpdateSessionsMoveOnAndConfirm_4 :
    ∃ (s : State), (s.upd.state = 3) ∧ (s.running = true) ∧ (s.upd.fwd.value0.getLsbD 4 = true) ∧ ((s.upd.sources.head?.any fun x => x.kind == 3) = true) ∧ (s.upd.fwd.state = 3) ∧ (s.upd.autoUsed = false) ∧ (s.compatible = true) :=
  ⟨wSelf, by decide +kernel⟩

theorem witness_UpdateSessionsMoveOnAndConfirm_5 :
    (∃ (e : StepEnd) (s : State), (s.running = true) ∧ (s.upd.state = 4) ∧ (s.life.recovery = false) ∧ (s.upd.rollback = false) ∧ (1 ≤ s.upd.step) ∧ (s.stepDrained = true) ∧ (s.upd.step = 2) ∧ (e.converts = false)) ∧
    (∃ (e : StepEnd) (s : State), (s.running = true) ∧ (s.upd.state = 4) ∧ (s.life.recovery = false) ∧ (s.upd.rollback = false) ∧ (1 ≤ s.upd.step) ∧ (s.stepDrained = true) ∧ (s.upd.step < 5) ∧ ((s.upd.step = 2 → e.converts = true))) ∧
    (∃ (e : StepEnd) (s : State), (s.running = true) ∧ (s.upd.state = 4) ∧ (s.life.recovery = false) ∧ (s.upd.rollback = false) ∧ (1 ≤ s.upd.step) ∧ (s.stepDrained = true) ∧ (s.upd.step = 5)) :=
  ⟨⟨⟨7, false⟩, wStep 2, by decide +kernel⟩,
   ⟨⟨15000, true⟩, wStep 2, by decide +kernel⟩,
   ⟨⟨0, true⟩, wStep 5, by decide +kernel⟩⟩

theorem witness_UpdateSessionsMoveOnAndConfirm_6 :
    ∃ (s : State), (s.upd.state = 5) ∧ (s.running = true) ∧ (s.selfTest = true) :=
  ⟨wTested, by decide +kernel⟩

theorem witness_UpdateSessionsMoveOnAndConfirm_7 :
    ∃ (s : State), (s.upd.state = 5) ∧ (s.past s.upd.confirmAt (600 * oneSec) = true) :=
  ⟨wTested, by decide +kernel⟩

theorem witness_TheDrainMovesOn_0 :
    ∃ (job : Nat) (s : State) (j : Job), ((s.flash.jobs.find? fun j => j.id == job) = some j) ∧ (j.chans = []) ∧ (j.journalled = false) ∧ ((j.kind = .drain ∨ j.kind = .writeThrough)) ∧ (s.mapTooEarly j = false) :=
  ⟨0, withJob { job0 with chans := [] }, { job0 with chans := [] }, by decide +kernel⟩

theorem witness_TheDrainMovesOn_1 :
    ∃ (job : Nat) (s : State) (j : Job), ((s.flash.jobs.find? fun j => j.id == job) = some j) ∧ (j.chans = []) ∧ (j.journalled = false) ∧ (j.kind = .relocation) ∧ (s.shutting = false) :=
  ⟨0, withJob { job0 with chans := [], kind := .relocation }, { job0 with chans := [], kind := .relocation }, by decide +kernel⟩

theorem witness_TheDrainMovesOn_2 :
    (∃ (jseq : Nat) (s : State) (j : Job) (i : JobItem) (r : LRec), ((s.flash.jobs.find? fun j => j.items.any fun i => i.jseq == some jseq) = some j) ∧ ((j.items.find? fun i => i.jseq == some jseq) = some i) ∧ (s.jDurable jseq = true) ∧ (i.old = none) ∧ (i.land.bind s.rec? = some r) ∧ (r.wt = false) ∧ (((s.jrn.at_ jseq).any JRec.isMapSet && s.overtaken r) = true)) ∧
    (∃ (jseq : Nat) (s : State) (j : Job) (i : JobItem) (r : LRec), ((s.flash.jobs.find? fun j => j.items.any fun i => i.jseq == some jseq) = some j) ∧ ((j.items.find? fun i => i.jseq == some jseq) = some i) ∧ (s.jDurable jseq = true) ∧ (i.old = none) ∧ (i.land.bind s.rec? = some r) ∧ (r.wt = false) ∧ (((s.jrn.at_ jseq).any JRec.isMapSet && s.overtaken r) = false)) :=
  ⟨⟨4, wDurableGone, { job0 with items := [item0] }, item0, rec1, by decide +kernel⟩,
   ⟨4, wDurable, { job0 with items := [item0] }, item0, rec1, by decide +kernel⟩⟩

theorem witness_TheDrainMovesOn_3 :
    ∃ (adm : Nat) (n : Nat) (s : State) (r : LRec) (j : Job) (i : JobItem), ((s.land.recs.find? fun r => r.wt && r.adm == adm && r.epoch == s.life.bootEpoch) = some r) ∧ ((s.flash.jobs.find? fun j => j.items.any fun i => i.land == some r.id) = some j) ∧ ((j.items.find? fun i => i.land == some r.id) = some i) ∧ (i.jseq = some n) ∧ (s.jDurable n = true) :=
  ⟨0, 4, wDurableWt, { rec1 with wt := true }, { job0 with items := [item0] }, item0, by decide +kernel⟩

theorem witness_TheDrainMovesOn_4 :
    ∃ (ch : Fin 18) (pos : Fin 4) (ok : Bool) (s : State) (j : Job), s.jobOn ch.val pos.val = some j :=
  ⟨0, 0, true, withJob job0, job0, by decide +kernel⟩

theorem witness_TheJournalAndTheIndexMoveOn_0 :
    ∃ (s : State), (s.jrn.flying ≠ []) ∧ ((s.grantFor .journal).isSome = true) :=
  ⟨wFlying, by decide +kernel⟩

theorem witness_TheJournalAndTheIndexMoveOn_1 :
    ∃ (s : State), (s.jrn.writing = none) ∧ (s.serving = true) ∧ ((8 ≤ s.jrn.sealsSince ∨ 536870912 ≤ s.jrn.bytesSince)) :=
  ⟨serve.setJrn fun j => { j with sealsSince := 8 }, by decide +kernel⟩

theorem witness_TheJournalAndTheIndexMoveOn_2 :
    ∃ (s : State) (x : Slice), (s.jrn.writing = some x) ∧ ((s.grantFor .checkpoint).isSome = true) ∧ (s.jDurable x.beginJseq = true) ∧ (s.nodesWritten = true) :=
  ⟨wSlice, wSlice.jrn.writing.getD slice0, by decide +kernel⟩

theorem witness_TheJournalAndTheIndexMoveOn_3 :
    ∃ (seg : Nat) (s : State) (g : Segment), (s.seg? seg = some g) ∧ (g.st = .full) ∧ (g.cap ≤ g.prog) ∧ (g.tail = []) ∧ ((s.flash.jobs.any fun j => j.seg == seg && !j.chans.isEmpty) = false) :=
  ⟨0, withSeg { seg0 with st := .full, next := seg0.cap, prog := seg0.cap }, { seg0 with st := .full, next := seg0.cap, prog := seg0.cap }, by decide +kernel⟩

theorem witness_TheJournalAndTheIndexMoveOn_4 :
    ∃ (s : State), s.serving = true :=
  ⟨serve, by decide +kernel⟩

theorem witness_TheJournalAndTheIndexMoveOn_5 :
    ∃ (range : Nat) (s : State) (r : Range), ((s.kv.ranges.find? fun r => r.id == range) = some r) ∧ (s.serving = true) ∧ (s.rangeEnding range = false) ∧ (s.sweepBehind r = false) ∧ ((s.land.recs.any fun x => x.kind == .range && writeId x.adm x.epoch == range) = false) ∧ ((s.orderedKs r.ks = true ∨ (s.grantFor (.sweep range)).isSome = true)) :=
  ⟨0, grants (.sweep 0) (serve.setKv fun k => { k with ranges := [range0] }), range0, by decide +kernel⟩

theorem witness_TheArrayIsRetried_0 :
    (∃ (read : Nat) (o : ReadOutcome) (s : State) (r : ReadOp) (gr : Grant), ((s.flash.reads.find? fun r => r.id == read) = some r) ∧ (s.grantFor (.read read) = some gr) ∧ (r.seg = spillSeg)) ∧
    (∃ (read : Nat) (o : ReadOutcome) (s : State) (r : ReadOp) (gr : Grant) (g : Segment), 
    let byte := r.plan.getD r.done r.off
    let ch := (g.pageAt byte).1
    let pos := segPos r.seg
    let o' := s.outcomeAt g byte ch o
    let four := o' = .parity ∨ o' = .failed
    ((s.flash.reads.find? fun r => r.id == read) = some r) ∧ (s.grantFor (.read read) = some gr) ∧ (r.seg ≠ spillSeg) ∧ (s.seg? r.seg = some g) ∧ (s.dieServes ch pos = true) ∧ (s.suspendSpent ch pos = false) ∧ (¬ four)) ∧
    (∃ (read : Nat) (o : ReadOutcome) (s : State) (r : ReadOp) (gr : Grant) (g : Segment), 
    let byte := r.plan.getD r.done r.off
    let ch := (g.pageAt byte).1
    let pos := segPos r.seg
    let o' := s.outcomeAt g byte ch o
    let four := o' = .parity ∨ o' = .failed
    ((s.flash.reads.find? fun r => r.id == read) = some r) ∧ (s.grantFor (.read read) = some gr) ∧ (r.seg ≠ spillSeg) ∧ (s.seg? r.seg = some g) ∧ ((s.dieServes ch pos = true → s.suspendSpent ch pos = false)) ∧ (four) ∧ (s.rebuildPage r g byte ch = none)) ∧
    (∃ (read : Nat) (o : ReadOutcome) (s : State) (r : ReadOp) (gr : Grant) (g : Segment) (t : State), 
    let byte := r.plan.getD r.done r.off
    let ch := (g.pageAt byte).1
    let pos := segPos r.seg
    let o' := s.outcomeAt g byte ch o
    let four := o' = .parity ∨ o' = .failed
    ((s.flash.reads.find? fun r => r.id == read) = some r) ∧ (s.grantFor (.read read) = some gr) ∧ (r.seg ≠ spillSeg) ∧ (s.seg? r.seg = some g) ∧ ((s.dieServes ch pos = true → s.suspendSpent ch pos = false)) ∧ (four) ∧ (s.rebuildPage r g byte ch = some t)) :=
  ⟨⟨0, .hard, wSpillRead, { read0 with seg := spillSeg }, grant0, by decide +kernel⟩,
   ⟨0, .hard, wRead, read0, grant0, seg0, by dsimp only; decide +kernel⟩,
   ⟨0, .failed, wRow, read0, grant0, segRow, by decide +kernel, by decide +kernel, by decide +kernel, by decide +kernel, by decide +kernel, by decide +kernel, by rfl⟩,
   ⟨0, .failed, wRead, read0, grant0, seg0, (wRead.rebuildPage read0 seg0 0 (seg0.pageAt 0).1).getD wRead, by decide +kernel, by decide +kernel, by decide +kernel, by decide +kernel, by decide +kernel, by decide +kernel, getD_eq (by decide +kernel)⟩⟩

theorem witness_TheArrayIsRetried_1 :
    (∃ (s : State) (r : ReadOp) (g : Segment) (byte : Nat) (ch : Nat), 
    let others := (g.rowChans byte).filter fun c => c != ch && s.dieServes c (segPos g.seg)
    let held := (s.pwr.grants.filter fun x => x.why == .rebuild r.id).length
    (held = 0) ∧ (others ≠ []) ∧ ((s.pwr.queue.any fun q => q.why == .rebuild r.id) = false)) ∧
    (∃ (s : State) (r : ReadOp) (g : Segment) (byte : Nat) (ch : Nat), 
    let others := (g.rowChans byte).filter fun c => c != ch && s.dieServes c (segPos g.seg)
    let held := (s.pwr.grants.filter fun x => x.why == .rebuild r.id).length
    (others.length ≤ held) ∧ ((others.any fun c => s.suspendSpent c (segPos g.seg)) = true)) ∧
    (∃ (s : State) (r : ReadOp) (g : Segment) (byte : Nat) (ch : Nat), 
    let others := (g.rowChans byte).filter fun c => c != ch && s.dieServes c (segPos g.seg)
    let held := (s.pwr.grants.filter fun x => x.why == .rebuild r.id).length
    (others.length ≤ held) ∧ ((others.any fun c => s.suspendSpent c (segPos g.seg)) = false)) :=
  ⟨⟨wRead, read0, seg0, 0, 0, by dsimp only; decide +kernel⟩,
   ⟨wRowSpent, read0, segRow, 0, 0, by dsimp only; decide +kernel⟩,
   ⟨wRow, read0, segRow, 0, 0, by dsimp only; decide +kernel⟩⟩

theorem witness_TheArrayIsRetried_2 :
    (∃ (s : State) (g : Segment) (byte : Nat) (ch : Nat) (o : ReadOutcome), (s.dieServes ch (segPos g.seg) = true) ∧ (o ≠ .parity)) ∧
    (∃ (s : State) (g : Segment) (byte : Nat) (ch : Nat) (o : ReadOutcome), (o ≠ .failed) ∧ ((o = .parity ∨ s.dieServes ch (segPos g.seg) = false))) :=
  ⟨⟨serve, seg0, 0, 0, .hard, by decide +kernel⟩,
   ⟨serve, seg0, 0, 0, .parity, by decide +kernel⟩⟩

theorem witness_TheArrayIsRetried_3 :
    (∃ (ch : Fin 18) (pos : Fin 4) (s : State) (d : Die), (s.flash.dies.find? fun d => d.ch == ch.val && d.pos == pos.val && !d.retired) = some d) ∧
    (∃ (ch : Fin 18) (pos : Fin 4) (s : State) (d : Die), ((s.flash.dies.find? fun d => d.ch == ch.val && d.pos == pos.val && !d.retired) = some d) ∧ (d.resetTries + 1 < 3)) ∧
    (∃ (ch : Fin 18) (pos : Fin 4) (s : State) (d : Die), ((s.flash.dies.find? fun d => d.ch == ch.val && d.pos == pos.val && !d.retired) = some d) ∧ (3 ≤ d.resetTries + 1)) :=
  ⟨⟨0, 0, serve.setFlash fun f => { f with dies := [die0] }, die0, by decide +kernel⟩,
   ⟨0, 0, serve.setFlash fun f => { f with dies := [die0] }, die0, by decide +kernel⟩,
   ⟨0, 0, serve.setFlash fun f => { f with dies := [{ die0 with resetTries := 2 }] }, { die0 with resetTries := 2 }, by decide +kernel⟩⟩

theorem witness_TheArrayIsRetried_4 :
    (∃ (ch : Fin 18) (s : State), (s.flash.channels.getD ch.val {}).retired = false) ∧
    (∃ (ch : Fin 18) (s : State), 
    let n := (s.flash.channels.getD ch.val {}).retrains + 1
    ((s.flash.channels.getD ch.val {}).retired = false) ∧ (n < 3)) ∧
    (∃ (ch : Fin 18) (s : State), 
    let n := (s.flash.channels.getD ch.val {}).retrains + 1
    ((s.flash.channels.getD ch.val {}).retired = false) ∧ (3 ≤ n)) :=
  ⟨⟨0, serve, by decide +kernel⟩,
   ⟨0, serve, by dsimp only; decide +kernel⟩,
   ⟨0, wRetrain, by dsimp only; decide +kernel⟩⟩

theorem witness_TheArrayIsKept_0 :
    ∃ (s : State) (g : Segment) (why : Nat), (s.serving = true) ∧ (s.flash.copy = none) ∧ (s.sec.san.state ≠ 1) ∧ (s.gcSource = some (g, why)) :=
  ⟨wGc, { seg0 with st := .sealed, refresh := true }, 2, by decide +kernel⟩

theorem witness_TheArrayIsKept_1 :
    ∃ (s : State) (g : Segment) (why : Nat), (s.serving = true) ∧ (s.flash.copy.isSome = true) ∧ (s.copyIdle = true) ∧ (s.sec.san.state ≠ 1) ∧ (s.gcSource = some (g, why)) :=
  ⟨wGcHeld, (wGcHeld.gcSource.getD (seg0, 0)).1, (wGcHeld.gcSource.getD (seg0, 0)).2, by decide +kernel⟩

theorem witness_TheArrayIsKept_2 :
    (∃ (s : State) (g : Segment) (why : Nat) (w : Nat), g.st = .copying w) ∧
    (∃ (s : State) (g : Segment) (why : Nat), g.st = .sealed) :=
  ⟨⟨wGc, { seg0 with st := .copying 1 }, 2, 1, by decide +kernel⟩,
   ⟨wGc, { seg0 with st := .sealed }, 2, by decide +kernel⟩⟩

theorem witness_TheArrayIsKept_3 :
    ∃ (seg : Nat) (s : State) (g : Segment), (s.seg? seg = some g) ∧ (g.st = .copied) ∧ (s.shutting = false) ∧ (s.jAllDurable (JRec.isCopyDone seg) = true) :=
  ⟨0, wCopied, { seg0 with st := .copied }, by decide +kernel⟩

theorem witness_TheArrayIsKept_4 :
    ∃ (seg : Nat) (failed : List (Fin 18)) (s : State) (g : Segment), 
    let chs := (List.range 18).filter fun c => g.usesCh c && s.dieServes c (segPos seg)
    (s.seg? seg = some g) ∧ (g.st = .erasing) ∧ (g.eraseAsked = true) ∧ (s.shutting = false) ∧ ((chs.all fun c => (s.grantFor (.erase seg c)).isSome) = true) :=
  ⟨0, [], wErase, { seg0 with st := .erasing, chans := 1, eraseAsked := true }, by dsimp only; decide +kernel⟩

theorem witness_TheArrayIsKept_5 :
    (∃ (ch : Fin 18) (pos : Fin 4) (slot : Nat) (o : ReadOutcome) (hi : Bool) (s : State) (g : Segment), 
    let now := ((s.flash.dies.find? fun d => d.ch == ch.val && d.pos == pos.val).map fun d => d.credit).getD 0
    let t := ((s.suspendDie ch.val pos.val).returnFor (.scrub ch.val pos.val slot)).setFlash fun f => { f with scrubMarks := ((ch.val, pos.val, slot), now) :: f.scrubMarks.filter fun m => m.1 != (ch.val, pos.val, slot) }
    (s.serving = true) ∧ (120960000 ≤ s.scrubCredit ch.val pos.val slot) ∧ (s.holdsData ch.val pos.val slot = true) ∧ (s.dieServes ch.val pos.val = true) ∧ (s.suspendSpent ch.val pos.val = false) ∧ ((s.grantFor (.scrub ch.val pos.val slot)).isSome = true) ∧ (slot < 7040) ∧ (t.seg? (7040 * pos.val + slot) = some g)) ∧
    (∃ (ch : Fin 18) (pos : Fin 4) (slot : Nat) (o : ReadOutcome) (hi : Bool) (s : State), (s.serving = true) ∧ (120960000 ≤ s.scrubCredit ch.val pos.val slot) ∧ (s.holdsData ch.val pos.val slot = true) ∧ (s.dieServes ch.val pos.val = true) ∧ (s.suspendSpent ch.val pos.val = false) ∧ ((s.grantFor (.scrub ch.val pos.val slot)).isSome = true) ∧ (7040 ≤ slot) ∧ (o ≠ .failed)) ∧
    (∃ (ch : Fin 18) (pos : Fin 4) (slot : Nat) (o : ReadOutcome) (hi : Bool) (s : State), (s.serving = true) ∧ (120960000 ≤ s.scrubCredit ch.val pos.val slot) ∧ (s.holdsData ch.val pos.val slot = true) ∧ (s.dieServes ch.val pos.val = true) ∧ (s.suspendSpent ch.val pos.val = false) ∧ ((s.grantFor (.scrub ch.val pos.val slot)).isSome = true) ∧ (7040 ≤ slot) ∧ (o = .failed)) :=
  ⟨⟨0, 0, 0, .hard, false, grants (.scrub 0 0 0) wScrub, seg0, by dsimp only; decide +kernel⟩,
   ⟨0, 0, 7040, .hard, false, grants (.scrub 0 0 7040) wScrub, by decide +kernel⟩,
   ⟨0, 0, 7040, .failed, false, grants (.scrub 0 0 7040) wScrub, by decide +kernel⟩⟩

theorem witness_TheArrayIsKept_6 :
    ∃ (ch : Fin 18) (pos : Fin 4) (slot : Nat) (o : ReadOutcome) (hi : Bool) (s : State), (s.serving = true) ∧ (120960000 ≤ s.scrubCredit ch.val pos.val slot) ∧ (s.holdsData ch.val pos.val slot = true) ∧ (s.dieServes ch.val pos.val = true) ∧ (s.suspendSpent ch.val pos.val = false) ∧ (s.grantFor (.scrub ch.val pos.val slot) = none) ∧ ((s.pwr.queue.any fun q => q.why == .scrub ch.val pos.val slot) = false) :=
  ⟨0, 0, 7040, .hard, false, wScrub, by decide +kernel⟩

theorem witness_TheArrayIsKept_7 :
    ∃ (s : State), (s.serving = true) ∧ ((s.flash.coolSince.any fun t => s.past t (600 * oneSec)) = true) ∧ ((s.flash.segs.any fun g => g.pslc) = true) :=
  ⟨(withSeg { seg0 with pslc := true }).setFlash fun f => { f with coolSince := some 0 }, by decide +kernel⟩

theorem witness_PowerStatesChangeAndHighInputIsLogged_0 :
    ∃ (ps : Fin 5) (s : State), (s.life.phase = 9) ∧ (s.life.svc = none) ∧ (s.isIdle = true) ∧ (ps ≠ 0) ∧ (s.stored.psIdle.getD (ps.val - 1) 0 ≠ 0) ∧ (ps.val ≤ s.stored.psCap) ∧ (s.pwr.ps < ps) ∧ (s.pwr.psBusy = false) ∧ (s.pwr.psStays = false) ∧ ((s.pwr.idleSince.any fun c => s.past c (s.stored.psIdle.getD (ps.val - 1) 0 * ms)) = true) :=
  ⟨1, serve.setPwr fun p => { p with idleSince := some 0 }, by decide +kernel⟩

theorem witness_PowerStatesChangeAndHighInputIsLogged_1 :
    ∃ (w : WakeSource) (s : State), w ≠ .psNowZero :=
  ⟨.frame, serve, by decide +kernel⟩

theorem witness_PowerStatesChangeAndHighInputIsLogged_2 :
    ∃ (s : State), (s.pwr.psBusy = true) ∧ (s.shutting = false) ∧ (s.life.mainOn = true) :=
  ⟨serve.setPwr fun p => { p with psBusy := true, psTarget := 1 }, by decide +kernel⟩

theorem witness_PowerStatesChangeAndHighInputIsLogged_3 :
    ∃ (v : Nat) (s : State), s.life.mainOn = true :=
  ⟨3500, serve, by decide +kernel⟩

theorem witness_TokensClassAndLimit_0 :
    (∃ (pads : Fin 8) (s : State), (BitVec.ofNat 3 pads.val ≠ s.pwr.pads) ∧ (s.life.mainOn = true) ∧ (4 ≤ pads.val)) ∧
    (∃ (pads : Fin 8) (s : State), (BitVec.ofNat 3 pads.val ≠ s.pwr.pads) ∧ (s.life.mainOn = true) ∧ (pads.val < 4)) :=
  ⟨⟨5, serve, by decide +kernel⟩,
   ⟨1, serve, by decide +kernel⟩⟩

theorem witness_TokensClassAndLimit_1 :
    ∃ (v : Nat) (i : Nat) (w : Nat) (s : State), s.life.mainOn = true :=
  ⟨1200, 2000, 24000, serve, by decide +kernel⟩

theorem witness_TokensClassAndLimit_2 :
    (∃ (v : Word) (s : State), (s.life.mainOn = true) ∧ (v.toNat / 16 % 8 < 4)) ∧
    (∃ (v : Word) (s : State), (s.life.mainOn = true) ∧ (4 ≤ v.toNat / 16 % 8)) :=
  ⟨⟨0x30, serve, by decide +kernel⟩,
   ⟨0x40, serve, by decide +kernel⟩⟩

theorem witness_TokensClassAndLimit_3 :
    (∃ (v : Word) (s : State), (s.life.mainOn = true) ∧ (500 ≤ v.toNat % 65536) ∧ (v.toNat % 65536 ≤ 6000)) ∧
    (∃ (v : Word) (s : State), (s.life.mainOn = true) ∧ (v.toNat % 65536 < 500)) ∧
    (∃ (v : Word) (s : State), (s.life.mainOn = true) ∧ (6000 < v.toNat % 65536)) :=
  ⟨⟨6000, serve, by decide +kernel⟩,
   ⟨499, serve, by decide +kernel⟩,
   ⟨6001, serve, by decide +kernel⟩⟩

theorem witness_TokensClassAndLimit_4 :
    ∃ (cls : Fin 4) (n : Nat) (s : State), s.life.mainOn = true :=
  ⟨1, 4, serve, by decide +kernel⟩

theorem witness_TokensClassAndLimit_5 :
    ∃ (g : Nat) (s : State), (s.pwr.grants.any fun x => x.id == g && x.why == .unit_) = true :=
  ⟨0, grants .unit_ serve, by decide +kernel⟩

theorem witness_TokensClassAndLimit_6 :
    ∃ (s : State), s.life.mainOn = true :=
  ⟨serve, by decide +kernel⟩

theorem witness_TheBankIsWatchedAndMeasured_0 :
    (∃ (v : Nat) (s : State), (s.life.mainOn = true) ∧ (s.shutting = false) ∧ (3700 < v)) ∧
    (∃ (v : Nat) (s : State), 
    let t := (s.setHold fun h => { h with v10mV := v }).startMetering
    (s.life.mainOn = true) ∧ (s.shutting = false) ∧ (v ≤ 3700) ∧ (t.hold.charging = false)) ∧
    (∃ (v : Nat) (s : State), 
    let t := (s.setHold fun h => { h with v10mV := v }).startMetering
    (s.life.mainOn = true) ∧ (s.shutting = false) ∧ (v < 3500) ∧ (t.hold.charging = true)) ∧
    (∃ (v : Nat) (s : State), 
    let t := (s.setHold fun h => { h with v10mV := v }).startMetering
    let step := if t.hold.capUf ≠ 0 ∧ t.hold.vPub10mV < min 3500 (v / 50 * 50) then t.publish (min 3500 (v / 50 * 50)) 2 else t
    (s.life.mainOn = true) ∧ (s.shutting = false) ∧ (3500 ≤ v) ∧ (v ≤ 3700) ∧ (t.hold.charging = true) ∧ (step.hold.charging = true)) :=
  ⟨⟨3701, serve, by decide +kernel⟩,
   ⟨3700, serve, by dsimp only; decide +kernel⟩,
   ⟨3499, hold fun h => { h with charging := true }, by dsimp only; decide +kernel⟩,
   ⟨3500, hold fun h => { h with charging := true }, by dsimp only; decide +kernel⟩⟩

theorem witness_TheBankIsWatchedAndMeasured_1 :
    (∃ (v : Nat) (fell : Nat) (s : State), (s.life.mainOn = false ∨ s.shutting = true ∨ s.hold.measuring = true)) ∧
    (∃ (v : Nat) (fell : Nat) (s : State), 
    let falls := 200 < fell ∨ (s.hold.charging = true ∧ v + 30 ≤ s.hold.chargeFrom10mV)
    (s.life.mainOn = true) ∧ (s.shutting = false) ∧ (s.hold.measuring = false) ∧ (falls)) ∧
    (∃ (v : Nat) (fell : Nat) (s : State), 
    let t := s.setHold fun h => { h with v10mV := v }
    let falls := 200 < fell ∨ (s.hold.charging = true ∧ v + 30 ≤ s.hold.chargeFrom10mV)
    let a := if s.hold.capUf ≠ 0 ∧ v + 50 ≤ s.hold.vPub10mV then t.publish (v / 50 * 50) 2 else t
    let b := if a.hold.st = .healthy ∧ v + 200 < 3500 then a.bankState .charging else a
    (s.life.mainOn = true) ∧ (s.shutting = false) ∧ (s.hold.measuring = false) ∧ (¬ falls) ∧ ((v + 30 ≤ 3500 ∧ b.hold.bad = false ∧ b.hold.charging = false))) ∧
    (∃ (v : Nat) (fell : Nat) (s : State), 
    let t := s.setHold fun h => { h with v10mV := v }
    let falls := 200 < fell ∨ (s.hold.charging = true ∧ v + 30 ≤ s.hold.chargeFrom10mV)
    let a := if s.hold.capUf ≠ 0 ∧ v + 50 ≤ s.hold.vPub10mV then t.publish (v / 50 * 50) 2 else t
    let b := if a.hold.st = .healthy ∧ v + 200 < 3500 then a.bankState .charging else a
    (s.life.mainOn = true) ∧ (s.shutting = false) ∧ (s.hold.measuring = false) ∧ (¬ falls) ∧ (¬ (v + 30 ≤ 3500 ∧ b.hold.bad = false ∧ b.hold.charging = false))) :=
  ⟨⟨3000, 201, hold fun h => { h with measuring := true }, by decide +kernel⟩,
   ⟨3000, 201, serve, by dsimp only; decide +kernel⟩,
   ⟨3470, 0, hold fun h => { h with st := .healthy }, by dsimp only; decide +kernel⟩,
   ⟨3471, 0, hold fun h => { h with st := .healthy }, by dsimp only; decide +kernel⟩⟩

theorem witness_TheBankIsWatchedAndMeasured_2 :
    (∃ (rise : Nat) (s : State), (s.hold.charging = true) ∧ (s.past s.hold.chargeSince (200 * ms) = true) ∧ (s.shutting = false) ∧ (rise < 100) ∧ (s.hold.chargeFrom10mV < 3400)) ∧
    (∃ (rise : Nat) (s : State), (s.hold.charging = true) ∧ (s.past s.hold.chargeSince (200 * ms) = true) ∧ (s.shutting = false) ∧ ((100 ≤ rise ∨ 3400 ≤ s.hold.chargeFrom10mV))) :=
  ⟨⟨99, hold fun h => { h with charging := true }, by decide +kernel⟩,
   ⟨100, hold fun h => { h with charging := true }, by decide +kernel⟩⟩

theorem witness_TheBankIsWatchedAndMeasured_3 :
    ∃ (s : State), (s.hold.charging = true) ∧ (s.hold.capUf ≠ 0) ∧ (s.past s.hold.chargeSince (chargeBound s.hold.capUf s.hold.chargeFrom10mV) = true) ∧ (s.shutting = false) :=
  ⟨hold fun h => { h with charging := true, capUf := 4700 }, by decide +kernel⟩

theorem witness_TheBankIsWatchedAndMeasured_4 :
    ∃ (s : State), (s.hold.bad = true) ∧ (s.hold.charging = false) ∧ (s.past s.hold.retryAt 0 = true) ∧ (s.running = true) :=
  ⟨hold fun h => { h with st := .faulty }, by decide +kernel⟩

theorem witness_TheBankIsWatchedAndMeasured_5 :
    ∃ (s : State), (s.hold.capUf ≠ 0) ∧ (s.past s.hold.capAt (86400 * oneSec) = true) ∧ (s.hold.measuring = false) ∧ (s.hold.measureAsked = false) ∧ (s.running = true) :=
  ⟨(hold fun h => { h with capUf := 4700 }).setLife fun l => { l with clock := 86400000000000 }, by decide +kernel⟩

theorem witness_TheBankIsWatchedAndMeasured_6 :
    ∃ (s : State), (s.life.mainOn = true) ∧ (s.hold.measuring = false) :=
  ⟨serve, by decide +kernel⟩

theorem witness_TheBankIsWatchedAndMeasured_7 :
    ∃ (s : State), (s.hold.measureAsked = true) ∧ (s.hold.charging = false) ∧ (s.past s.hold.retryAt 0 = true) ∧ (s.running = true) :=
  ⟨hold fun h => { h with measureAsked := true }, by decide +kernel⟩

theorem witness_TheBankIsWatchedAndMeasured_8 :
    (∃ (s : State), 
    let free34 : Int := usableEnergy s.hold.capUf 3400 - s.land.resLanding - s.land.resShutdown
    (s.shutting = false) ∧ (s.hold.measuring = false) ∧ (s.hold.capUf ≠ 0) ∧ (free34 < 0)) ∧
    (∃ (s : State), 
    let free34 : Int := usableEnergy s.hold.capUf 3400 - s.land.resLanding - s.land.resShutdown
    (s.shutting = false) ∧ (s.hold.measuring = false) ∧ (s.hold.capUf ≠ 0) ∧ (0 ≤ free34)) ∧
    (∃ (s : State), (s.shutting = false) ∧ (s.hold.measuring = false) ∧ (s.hold.capUf = 0)) :=
  ⟨⟨hold fun h => { h with capUf := 10 }, by dsimp only; decide +kernel⟩,
   ⟨hold fun h => { h with capUf := 10000 }, by dsimp only; decide +kernel⟩,
   ⟨serve, by decide +kernel⟩⟩

theorem witness_TheBankIsWatchedAndMeasured_9 :
    (∃ (uF : Nat) (t : Nat) (s : State), 
    let c := min 10000 (uF / 10 * 10)
    (s.shutting = false) ∧ (s.life.mainOn = true) ∧ (s.hold.measuring = true) ∧ (c < 500)) ∧
    (∃ (uF : Nat) (t : Nat) (s : State), 
    let c := min 10000 (uF / 10 * 10)
    (s.shutting = false) ∧ (s.life.mainOn = true) ∧ (s.hold.measuring = true) ∧ (500 ≤ c) ∧ (c < 2200)) ∧
    (∃ (uF : Nat) (t : Nat) (s : State), 
    let c := min 10000 (uF / 10 * 10)
    let m := (((s.setHold fun h => { h with measuring := false, measureAsked := false, retrying := false, capUf := c, capAt := s.now, commissionDue := false, commissionUf := if s.hold.commissionDue then c else h.commissionUf, v10mV := if s.hold.measuring then 3500 else h.v10mV }).returnFor .measurement).logEv evHoldupMeasure uPower c t).pwrInt 6
    let d := if s.hold.commissionDue = false ∧ 100 * c < 80 * s.hold.commissionUf then m.logEv evHoldupAged uPower s.hold.commissionUf c else m
    (s.shutting = false) ∧ (s.life.mainOn = true) ∧ (s.hold.measuring = true) ∧ (2200 ≤ c) ∧ (d.hold.st = .healthy)) ∧
    (∃ (uF : Nat) (t : Nat) (s : State), 
    let c := min 10000 (uF / 10 * 10)
    let m := (((s.setHold fun h => { h with measuring := false, measureAsked := false, retrying := false, capUf := c, capAt := s.now, commissionDue := false, commissionUf := if s.hold.commissionDue then c else h.commissionUf, v10mV := if s.hold.measuring then 3500 else h.v10mV }).returnFor .measurement).logEv evHoldupMeasure uPower c t).pwrInt 6
    let d := if s.hold.commissionDue = false ∧ 100 * c < 80 * s.hold.commissionUf then m.logEv evHoldupAged uPower s.hold.commissionUf c else m
    (s.shutting = false) ∧ (s.life.mainOn = true) ∧ (s.hold.measuring = true) ∧ (2200 ≤ c) ∧ (d.hold.st ≠ .healthy)) ∧
    (∃ (uF : Nat) (t : Nat) (s : State), 
    let c := min 10000 (uF / 10 * 10)
    (s.shutting = false) ∧ (s.life.mainOn = true) ∧ (s.hold.measuring = false) ∧ (s.hold.meters = true) ∧ (2500 ≤ s.hold.v10mV) ∧ ((s.grantFor .measurement).isSome = true) ∧ (c < 500)) ∧
    (∃ (uF : Nat) (t : Nat) (s : State), 
    let c := min 10000 (uF / 10 * 10)
    (s.shutting = false) ∧ (s.life.mainOn = true) ∧ (s.hold.measuring = false) ∧ (s.hold.meters = true) ∧ (2500 ≤ s.hold.v10mV) ∧ ((s.grantFor .measurement).isSome = true) ∧ (500 ≤ c) ∧ (c < 2200)) ∧
    (∃ (uF : Nat) (t : Nat) (s : State), 
    let c := min 10000 (uF / 10 * 10)
    (s.shutting = false) ∧ (s.life.mainOn = true) ∧ (s.hold.measuring = false) ∧ (s.hold.meters = true) ∧ (2500 ≤ s.hold.v10mV) ∧ ((s.grantFor .measurement).isSome = true) ∧ (2200 ≤ c)) :=
  ⟨⟨499, 25, hold fun h => { h with measuring := true, st := .charging }, by dsimp only; decide +kernel⟩,
   ⟨509, 25, hold fun h => { h with measuring := true }, by dsimp only; decide +kernel⟩,
   ⟨2200, 25, hold fun h => { h with measuring := true, st := .healthy }, by dsimp only; decide +kernel⟩,
   ⟨2200, 25, hold fun h => { h with measuring := true, st := .charging }, by dsimp only; decide +kernel⟩,
   ⟨499, 25, grants .measurement (hold fun h => { h with charging := true, v10mV := 2500 }), by dsimp only; decide +kernel⟩,
   ⟨500, 25, grants .measurement (hold fun h => { h with charging := true, v10mV := 2500 }), by dsimp only; decide +kernel⟩,
   ⟨2200, 25, grants .measurement (hold fun h => { h with charging := true, v10mV := 2500 }), by dsimp only; decide +kernel⟩⟩

theorem witness_HoldupAndTemperatureRun_0 :
    ∃ (s : State), (s.life.mainOn = true) ∧ (s.life.holdup = false) :=
  ⟨serve, by decide +kernel⟩

theorem witness_HoldupAndTemperatureRun_1 :
    ∃ (s : State), (s.life.holdup = true) ∧ (s.drainEnded = true) :=
  ⟨life fun l => { l with holdup := true }, by decide +kernel⟩

theorem witness_HoldupAndTemperatureRun_2 :
    (∃ (s : State), s.life.holdup = true) ∧
    (∃ (s : State), (s.life.holdup = false) ∧ (s.life.mainOn = false)) ∧
    (∃ (s : State), (s.life.holdup = false) ∧ (s.life.mainOn = true)) :=
  ⟨⟨life fun l => { l with holdup := true }, by decide +kernel⟩,
   ⟨life fun l => { l with phase := 0, mainOn := false }, by decide +kernel⟩,
   ⟨serve, by decide +kernel⟩⟩

theorem witness_HoldupAndTemperatureRun_3 :
    (∃ (straps : BitVec 4) (s : State), (s.life.mainOn = false) ∧ (s.life.phase = 0) ∧ ((s.life.thermalOff = false ∨ s.thm.t ≤ 125)) ∧ (s.life.latched = none) ∧ (s.life.resetLow = false)) ∧
    (∃ (straps : BitVec 4) (s : State), (s.life.mainOn = false) ∧ (s.life.phase = 0) ∧ ((s.life.thermalOff = false ∨ s.thm.t ≤ 125)) ∧ (s.life.latched = none) ∧ (s.life.resetLow = true)) :=
  ⟨⟨0, life fun l => { l with phase := 0, mainOn := false }, by decide +kernel⟩,
   ⟨0, life fun l => { l with phase := 0, mainOn := false, resetLow := true }, by decide +kernel⟩⟩

theorem witness_HoldupAndTemperatureRun_4 :
    ∃ (straps : BitVec 4) (s : State), (s.life.mainOn = false) ∧ (s.life.phase = 0) ∧ (s.life.latched = none) ∧ (s.life.thermalOff = true) ∧ (125 < s.thm.t) :=
  ⟨0, (life fun l => { l with phase := 0, mainOn := false, thermalOff := true }).setThm fun t => { t with t := 126 }, by decide +kernel⟩

theorem witness_HoldupAndTemperatureRun_5 :
    ∃ (c : Int) (d : List Int) (s : State), s.life.mainOn = false :=
  ⟨640, [], life fun l => { l with mainOn := false }, by decide +kernel⟩

theorem witness_HoldupAndTemperatureRun_6 :
    ∃ (c : Int) (d : List Int) (s : State), s.life.mainOn = true :=
  ⟨640, [], serve, by decide +kernel⟩

theorem witness_DramErrorsAreHandled_0 :
    ∃ (ch : Fin 4) (bank : Nat) (row : Nat) (s : State), (s.life.mainOn = true) ∧ (ch.val < s.part.dramCh) ∧ ((s.dram.chans.getD ch.val {}).retired = false) :=
  ⟨3, 0, 0, serve, by decide +kernel⟩

theorem witness_DramErrorsAreHandled_1 :
    ∃ (ch : Fin 4) (bank : Nat) (row : Nat) (s : State), (s.life.mainOn = true) ∧ (ch.val < s.part.dramCh) ∧ ((s.dram.chans.getD ch.val {}).retired = false) :=
  ⟨3, 0, 0, serve, by decide +kernel⟩

theorem witness_DramErrorsAreHandled_2 :
    (∃ (ch : Fin 4) (s : State), (s.life.mainOn = true) ∧ (ch.val < s.part.dramCh) ∧ ((s.dram.chans.getD ch.val {}).retired = false)) ∧
    (∃ (ch : Fin 4) (s : State), (s.life.mainOn = true) ∧ (ch.val < s.part.dramCh) ∧ ((s.dram.chans.getD ch.val {}).retired = false) ∧ ((s.dram.chans.getD ch.val {}).retrains = 2)) :=
  ⟨⟨0, serve, by decide +kernel⟩,
   ⟨0, serve.setDramCh 0 fun c => { c with retrains := 2 }, by decide +kernel⟩⟩

theorem witness_DmaChannelsRun_0 :
    ∃ (ch : Fin 16) (s : State), s.dmaOpen = true :=
  ⟨15, dmaWith {}, by decide +kernel⟩

theorem witness_DmaChannelsRun_1 :
    ∃ (ch : Fin 16) (s : State), s.dmaOpen = true :=
  ⟨0, dmaWith dch0, by decide +kernel⟩

theorem witness_DmaChannelsRun_2 :
    ∃ (ch : Fin 16) (s : State), s.dmaOpen = true :=
  ⟨0, dmaWith {}, by decide +kernel⟩

theorem witness_DmaChannelsRun_3 :
    (∃ (ch : Fin 16) (s : State) (d : Desc), (s.dmaOpen = true) ∧ ((s.dmaCh ch).st = .halted) ∧ ((s.dmaCh ch).active = some d) ∧ (((s.dmaCh ch).counted = true ∨ d.fault = 0))) ∧
    (∃ (ch : Fin 16) (s : State) (d : Desc), (s.dmaOpen = true) ∧ ((s.dmaCh ch).st = .halted) ∧ ((s.dmaCh ch).active = some d) ∧ ((s.dmaCh ch).counted = false) ∧ (d.fault ≠ 0)) :=
  ⟨⟨0, dmaWith { dch0 with st := .halted }, desc0, by decide +kernel⟩,
   ⟨0, dmaWith { dch0 with st := .halted, active := some { desc0 with rsv := true } }, { desc0 with rsv := true }, by decide +kernel⟩⟩

theorem witness_DmaChannelsRun_4 :
    (∃ (ch : Fin 16) (w : Nat) (s : State) (d : Desc), 
    let m := s.dmaMove (min w (s.dmaCh ch).remain.toNat) ch d
    (s.dmaOpen = true) ∧ ((s.dmaCh ch).active = some d) ∧ ((s.dmaCh ch).draining = true) ∧ ((s.dmaCh ch).counted = false) ∧ (m.2 ≠ 0)) ∧
    (∃ (ch : Fin 16) (w : Nat) (s : State) (d : Desc), 
    let m := s.dmaMove (min w (s.dmaCh ch).remain.toNat) ch d
    (s.dmaOpen = true) ∧ ((s.dmaCh ch).active = some d) ∧ ((s.dmaCh ch).draining = true) ∧ ((s.dmaCh ch).counted = false) ∧ (m.2 = 0) ∧ ((s.dmaCh ch).stopping = true)) ∧
    (∃ (ch : Fin 16) (w : Nat) (s : State) (d : Desc), 
    let m := s.dmaMove (min w (s.dmaCh ch).remain.toNat) ch d
    (s.dmaOpen = true) ∧ ((s.dmaCh ch).active = some d) ∧ ((s.dmaCh ch).draining = true) ∧ ((s.dmaCh ch).counted = false) ∧ (m.2 = 0) ∧ ((s.dmaCh ch).stopping = false)) :=
  ⟨⟨0, 2, dmaWith { dchBad with draining := true }, { desc0 with src := 0xFFFFFFFFFFFF }, by dsimp only; decide +kernel⟩,
   ⟨0, 1, dmaWith dchDrain, desc0, by dsimp only; decide +kernel⟩,
   ⟨0, 1, dmaWith { dchDrain with stopping := false }, desc0, by dsimp only; decide +kernel⟩⟩

theorem witness_DmaChannelsRun_5 :
    (∃ (ch : Fin 16) (s : State) (d : Desc), 
    let m := s.dmaMove (s.dmaCh ch).remain.toNat ch d
    (s.dmaOpen = true) ∧ ((s.dmaCh ch).draining = false) ∧ ((s.dmaCh ch).pause = false) ∧ ((s.dmaCh ch).st = .running) ∧ ((s.dmaCh ch).active = some d) ∧ ((s.dmaCh ch).counted = false) ∧ (m.2 = 0)) ∧
    (∃ (ch : Fin 16) (s : State) (d : Desc), 
    let m := s.dmaMove (s.dmaCh ch).remain.toNat ch d
    (s.dmaOpen = true) ∧ ((s.dmaCh ch).draining = false) ∧ ((s.dmaCh ch).pause = false) ∧ ((s.dmaCh ch).st = .running) ∧ ((s.dmaCh ch).active = some d) ∧ ((s.dmaCh ch).counted = false) ∧ (m.2 ≠ 0)) :=
  ⟨⟨0, dmaWith dch0, desc0, by dsimp only; decide +kernel⟩,
   ⟨0, dmaWith dchBad, { desc0 with src := 0xFFFFFFFFFFFF }, by dsimp only; decide +kernel⟩⟩

theorem witness_DmaChannelsRun_6 :
    ∃ (ch : Fin 16) (s : State), (s.dmaOpen = true) ∧ ((s.dmaCh ch).draining = false) ∧ ((s.dmaCh ch).pause = false) ∧ ((s.dmaCh ch).st = .idle) :=
  ⟨0, dmaWith {}, by decide +kernel⟩

theorem witness_DmaChannelsRun_7 :
    ∃ (ch : Fin 16) (w : Nat) (s : State) (d : Desc), (s.dmaOpen = true) ∧ ((s.dmaCh ch).active = some d) ∧ ((s.dmaCh ch).st = .running) ∧ ((s.dmaCh ch).counted = false) :=
  ⟨0, 0, dmaWith dch0, desc0, by decide +kernel⟩

theorem witness_ResetsStartAndEnd_0 :
    ∃ (v : Word) (s : State), (v.toNat / 65536 = 0xC5A0) ∧ (v.getLsbD 0 = true) :=
  ⟨0xC5A00003, serve, by decide +kernel⟩

theorem witness_ResetsStartAndEnd_1 :
    ∃ (v : Word) (s : State), v.toNat / 65536 ≠ 0xC5A0 :=
  ⟨0xC5A10001, serve, by decide +kernel⟩

theorem witness_ResetsStartAndEnd_2 :
    ∃ (s : State), (s.life.mainOn = true) ∧ (s.life.refOk = true) :=
  ⟨serve, by decide +kernel⟩

theorem witness_ResetsStartAndEnd_3 :
    ∃ (cp : Fin 8) (e : Engine) (s : State), (s.life.mainOn = true) ∧ (s.life.phase ≠ 15) :=
  ⟨7, .skiff, serve, by decide +kernel⟩

theorem witness_ResetsStartAndEnd_4 :
    ∃ (sup : Fin 2) (s : State), (s.life.mainOn = true) ∧ (s.life.phase ≠ 15) ∧ (sup ≠ s.life.supActive) ∧ ((s.life.sups.getD sup.val {}).retired = false) :=
  ⟨1, serve, by decide +kernel⟩

theorem witness_ResetsStartAndEnd_5 :
    (∃ (l : LedgerId) (s : State), (s.life.mainOn = true) ∧ (l.ledger ≠ 0) ∧ (l.kind = 3) ∧ (l.number < 4)) ∧
    (∃ (l : LedgerId) (s : State), (s.life.mainOn = true) ∧ (l.ledger ≠ 0) ∧ (¬ (l.kind = 3 ∧ l.number < 4)) ∧ (s.shutting = true)) ∧
    (∃ (l : LedgerId) (s : State), 
    let t := ((s.setLife fun x => { x with ledgerFaults := satAdd 32 x.ledgerFaults 1 }).seeFault).logEv evLedgerFault (ledgerUnit l) l.ledger.val ((ledgerNamed l).number % 65536 + 65536 * l.kind)
    (s.life.mainOn = true) ∧ (l.ledger ≠ 0) ∧ (¬ (l.kind = 3 ∧ l.number < 4)) ∧ (t.shutting = false) ∧ ((t.faultAgain l = true ∨ t.life.svc.isSome = true))) ∧
    (∃ (l : LedgerId) (s : State), 
    let t := ((s.setLife fun x => { x with ledgerFaults := satAdd 32 x.ledgerFaults 1 }).seeFault).logEv evLedgerFault (ledgerUnit l) l.ledger.val ((ledgerNamed l).number % 65536 + 65536 * l.kind)
    (s.life.mainOn = true) ∧ (l.ledger ≠ 0) ∧ (¬ (l.kind = 3 ∧ l.number < 4)) ∧ (t.shutting = false) ∧ (t.faultAgain l = false) ∧ (t.life.svc = none)) :=
  ⟨⟨{ ledger := 4, kind := 3, number := 3 }, serve, by decide +kernel⟩,
   ⟨{ ledger := 4, kind := 1, number := 0 }, life fun l => { l with holdup := true }, by decide +kernel⟩,
   ⟨{ ledger := 4, kind := 1, number := 0 }, life fun l => { l with svc := some svc0 }, by dsimp only; decide +kernel⟩,
   ⟨{ ledger := 4, kind := 1, number := 0 }, serve, by dsimp only; decide +kernel⟩⟩

theorem witness_ResetsStartAndEnd_6 :
    (∃ (s : State) (r : FullReset), (s.life.closing = some r) ∧ (s.drainEnded = true)) ∧
    (∃ (s : State) (r : FullReset), (s.life.closing = some r) ∧ (s.past s.life.closeAt oneSec = true)) :=
  ⟨⟨life fun l => { l with closing := some fr0 }, fr0, by decide +kernel⟩,
   ⟨life fun l => { l with closing := some fr0 }, fr0, by decide +kernel⟩⟩

theorem witness_ResetsStartAndEnd_7 :
    ∃ (straps : BitVec 4) (s : State) (r : FullReset), (s.life.resetLow = true) ∧ (s.life.latched = some r) ∧ (s.life.phase = 0) ∧ (s.life.aonOn = true) :=
  ⟨0, life fun l => { l with phase := 0, resetLow := true, latched := some fr0 }, fr0, by decide +kernel⟩

theorem witness_ResetsStartAndEnd_8 :
    ∃ (s : State) (v : SvcReset), (s.life.svc = some v) ∧ (s.closingShort = false) ∧ ((v.compact = false ∨ (s.land.recs.isEmpty = true ∧ s.jrn.settled = true))) :=
  ⟨life fun l => { l with svc := some svc0 }, svc0, by decide +kernel⟩

theorem witness_ResetsStartAndEnd_9 :
    ∃ (s : State) (v : SvcReset), (s.life.svc = some v) ∧ (s.past v.since (if v.compact then 16 * oneSec else oneSec) = true) :=
  ⟨life fun l => { l with svc := some svc0 }, svc0, by decide +kernel⟩

theorem witness_StartUpRuns_0 :
    (∃ (v : List Bool) (s : State), (s.life.mainOn = true) ∧ (s.life.phaseEnded = false) ∧ (s.life.phase = 1)) ∧
    (∃ (v : List Bool) (s : State), (s.life.mainOn = true) ∧ (s.life.phaseEnded = false) ∧ (s.life.phase = 2)) ∧
    (∃ (v : List Bool) (s : State), (s.life.mainOn = true) ∧ (s.life.phaseEnded = false) ∧ (s.life.phase = 3)) ∧
    (∃ (v : List Bool) (s : State), (s.life.mainOn = true) ∧ (s.life.phaseEnded = false) ∧ (s.life.phase = 4)) ∧
    (∃ (v : List Bool) (s : State), (s.life.mainOn = true) ∧ (s.life.phaseEnded = false) ∧ (s.life.phase = 5)) ∧
    (∃ (v : List Bool) (s : State), (s.life.mainOn = true) ∧ (s.life.phaseEnded = false) ∧ (s.life.phase = 6)) ∧
    (∃ (v : List Bool) (s : State), (s.life.mainOn = true) ∧ (s.life.phaseEnded = false) ∧ (s.life.phase = 7)) ∧
    (∃ (v : List Bool) (s : State), (s.life.mainOn = true) ∧ (s.life.phaseEnded = false) ∧ (s.life.phase = 8) ∧ (s.closingShort = false)) :=
  ⟨⟨[], life fun l => { l with phase := 1 }, by decide +kernel⟩,
   ⟨[], life fun l => { l with phase := 2 }, by decide +kernel⟩,
   ⟨[], life fun l => { l with phase := 3 }, by decide +kernel⟩,
   ⟨[], life fun l => { l with phase := 4 }, by decide +kernel⟩,
   ⟨[], life fun l => { l with phase := 5 }, by decide +kernel⟩,
   ⟨[], life fun l => { l with phase := 6 }, by decide +kernel⟩,
   ⟨[], life fun l => { l with phase := 7 }, by decide +kernel⟩,
   ⟨[], life fun l => { l with phase := 8 }, by decide +kernel⟩⟩

theorem witness_StartUpRuns_1 :
    ∃ (s : State), (s.life.phaseEnded = true) ∧ (s.life.recovery = true) :=
  ⟨life fun l => { l with phase := 8, phaseEnded := true, recovery := true }, by decide +kernel⟩

theorem witness_StartUpRuns_2 :
    ∃ (s : State), (s.life.phaseEnded = true) ∧ (s.life.recovery = false) ∧ (s.sec.san.state ≠ 1) :=
  ⟨life fun l => { l with phase := 8, phaseEnded := true }, by decide +kernel⟩

theorem witness_TheMirrorLinkOpens_0 :
    ∃ (rx : Rx) (body : Bytes) (s : State) (pr : Pairing), (s.fromPeerAt rx = true) ∧ (s.mir.pairing = some pr) :=
  ⟨rxM, z 81, wHello 1, pair0, by decide +kernel⟩

theorem witness_TheMirrorLinkOpens_1 :
    ∃ (rx : Rx) (body : Bytes) (s : State) (pr : Pairing) (t : Nat), (s.fromPeerAt rx = true) ∧ (s.mir.pairing = some pr) ∧ (s.mir.helloSent = some t) ∧ (slice body 49 32 = helloProof pr.secret s.mir.nonce (body.take 16) (fit 24 s.ident.serial) (slice body 16 24)) ∧ (s.mir.state ≠ 2) :=
  ⟨rxM, ackBody, wHello 1, pair0, 0, by decide +kernel⟩

theorem witness_TheMirrorLinkOpens_2 :
    ∃ (rx : Rx) (body : Bytes) (s : State) (pr : Pairing) (t : Nat), (s.fromPeerAt rx = true) ∧ (s.mir.pairing = some pr) ∧ (s.mir.helloSent = some t) ∧ (slice body 49 32 = helloProof pr.secret s.mir.nonce (body.take 16) (fit 24 s.ident.serial) (slice body 16 24)) ∧ (s.mir.state = 2) :=
  ⟨rxM, ackBody, wHello 2, pair0, 0, by decide +kernel⟩

theorem witness_TheMirrorLinkOpens_3 :
    ∃ (rx : Rx) (body : Bytes) (s : State) (pr : Pairing) (t : Nat), (s.fromPeerAt rx = true) ∧ (s.mir.pairing = some pr) ∧ (s.mir.helloSent = some t) ∧ (slice body 49 32 ≠ helloProof pr.secret s.mir.nonce (body.take 16) (fit 24 s.ident.serial) (slice body 16 24)) :=
  ⟨rxM, z 81, wHello 1, pair0, 0, by decide +kernel⟩

theorem witness_TheMirrorLinkOpens_4 :
    ∃ (m : MirrorMsg) (s : State), (s.mir.state = 2) ∧ (s.mirrorWorks = true) ∧ ((s.mirrorHeard m).mir.state = 2) ∧ (unwrap 32 s.mir.rxNext m.lseq = s.mir.rxNext) :=
  ⟨msg0, mirror id, by decide +kernel⟩

theorem witness_TheMirrorLinkOpens_5 :
    ∃ (s : State) (r : MRecv), r.typ = 13 :=
  ⟨mirror id, { lseq := 1, typ := 13, msg := msg0 }, by decide +kernel⟩

theorem witness_MirrorMessagesAreTaken_0 :
    ∃ (c : Instr) (typ : Nat) (m : MirrorMsg) (s : State), ((c, typ) ∈ [(.mirrorPut m, 3), (.mirrorDelete m, 4), (.mirrorRange m, 5), (.repairReq m, 8), (.repairRsp m, 9), (.ksCfg m, 10), (.syncMark m, 11), (.mirrorClose m, 13)]) ∧ (s.mir.state = 2) ∧ (s.mirrorWorks = true) :=
  ⟨.mirrorClose msg0, 13, msg0, mirror id, by decide +kernel⟩

theorem witness_MirrorMessagesAreTaken_1 :
    ∃ (c : Instr) (m : MirrorMsg) (s : State), (c ∈ [.mirrorAck m, .heartbeat m]) ∧ (s.mir.state = 2) ∧ (s.mirrorWorks = true) :=
  ⟨.heartbeat msg0, msg0, mirror id, by decide +kernel⟩

theorem witness_MirrorMessagesAreTaken_2 :
    ∃ (m : MirrorMsg) (s : State), (s.mir.state = 2) ∧ (s.mirrorWorks = true) ∧ (unwrap 32 s.mir.rxNext m.lseq = s.mir.rxNext) :=
  ⟨msg0, mirror id, by decide +kernel⟩

theorem witness_MirrorTimersRun_0 :
    (∃ (s : State) (pr : Pairing), 
    let t := s.mirrorTurn
    (s.mir.pairing = some pr) ∧ (s.mirrorWorks = true) ∧ (s.mir.authFailed = false) ∧ ((t.mir.state = 1 ∨ t.mir.state = 3))) ∧
    (∃ (s : State) (pr : Pairing), 
    let t := s.mirrorTurn
    (s.mir.pairing = some pr) ∧ (s.mirrorWorks = true) ∧ (s.mir.authFailed = false) ∧ (t.mir.state = 2) ∧ (t.mir.linkLost = none)) ∧
    (∃ (s : State) (pr : Pairing) (p : Fin 2), 
    let t := s.mirrorTurn
    (s.mir.pairing = some pr) ∧ (s.mirrorWorks = true) ∧ (s.mir.authFailed = false) ∧ (t.mir.state = 2) ∧ (t.mir.linkLost.isSome = true) ∧ ((if t.mir.portInUse == some pr.port then pr.alt else some pr.port) = some p)) :=
  ⟨⟨mirror fun m => { m with state := 1 }, pair0, by dsimp only; decide +kernel⟩,
   ⟨mirror id, pair0, by dsimp only; decide +kernel⟩,
   ⟨mirror fun m => { m with portInUse := some 1, linkLost := some 0 }, pair0, 0, by dsimp only; decide +kernel⟩⟩

theorem witness_MirrorTimersRun_1 :
    ∃ (s : State), (s.mir.state = 2) ∧ (s.mirrorWorks = true) ∧ (s.mir.lack < s.mir.sentTo) ∧ (s.past s.mir.lackAt (s.mir.resendMs * ms) = true) :=
  ⟨mirror fun m => { m with sentTo := 2 }, by decide +kernel⟩

theorem witness_MirrorTimersRun_2 :
    ∃ (read : Nat) (s : State) (r : ReadOp), ((s.flash.reads.find? fun r => r.id == read) = some r) ∧ ((r.peerSince.any fun t => s.past t (500 * ms)) = true) :=
  ⟨0, wRepair, { read0 with peerSince := some 0 }, by decide +kernel⟩

theorem witness_MirrorTimersRun_3 :
    (∃ (ks : Fin 64) (s : State) (k : KeySpace) (i : MSync), (s.space? ks.val = some k) ∧ (k.ksState = 8) ∧ (k.refuseStatus ≠ stInvalid) ∧ (s.mir.state = 2) ∧ (s.mirrorWorks = true) ∧ ((((s.mir.probeAt.find? fun p => p.1 == ks.val).map fun p => p.2).all fun t => s.past t (60 * oneSec)) = true) ∧ (s.probeItem ks.val = some i) ∧ ((s.itemRead i).1 = false)) ∧
    (∃ (ks : Fin 64) (s : State) (k : KeySpace) (i : MSync), (s.space? ks.val = some k) ∧ (k.ksState = 8) ∧ (k.refuseStatus ≠ stInvalid) ∧ (s.mir.state = 2) ∧ (s.mirrorWorks = true) ∧ ((((s.mir.probeAt.find? fun p => p.1 == ks.val).map fun p => p.2).all fun t => s.past t (60 * oneSec)) = true) ∧ (s.probeItem ks.val = some i) ∧ ((s.itemRead i).1 = true)) :=
  ⟨⟨0, wProbeF, (wProbeF.space? 0).getD ks0, .key 0 key fResync, by decide +kernel⟩,
   ⟨0, wProbe, ksRefused, .key 0 key fResync, by decide +kernel⟩⟩

theorem witness_MirrorTimersRun_4 :
    ∃ (ks : Nat) (s : State) (e : LogEntry), (s.mir.log.find? fun e => e.ks == ks && (s.lookup ks e.key).all fun x => !x.loc.isLost) = some e :=
  ⟨0, wProbe, { ks := 0, key := key, stamp := 0 }, by decide +kernel⟩

theorem witness_MirrorTimersRun_5 :
    ∃ (s : State), ((s.mir.state = 1 ∨ s.mir.state = 2)) ∧ (s.mirrorWorks = true) ∧ ((s.past s.mir.lastRx (500 * ms) = true ∨ (s.mir.linkLost.any fun t => s.past t (500 * ms)) = true)) :=
  ⟨mirror id, by decide +kernel⟩

theorem witness_MirrorTimersRun_6 :
    ∃ (s : State), (s.mir.pairing.isSome = true) ∧ (s.serving = true) ∧ (s.past s.mir.markAt oneSec = true) :=
  ⟨mirror id, by decide +kernel⟩

theorem witness_MirrorTimersRun_7 :
    ∃ (s : State), (s.mir.state = 2) ∧ (s.mirrorWorks = true) :=
  ⟨mirror id, by decide +kernel⟩

theorem witness_MirrorTimersRun_8 :
    (∃ (s : State) (k : KeySpace), k.seeding = true) ∧
    (∃ (s : State) (k : KeySpace), (k.seeding = false) ∧ (k.seedDue = true)) ∧
    (∃ (s : State) (k : KeySpace), (k.seeding = false) ∧ (k.seedDue = false) ∧ (s.mir.fullKs.contains k.ks = false)) ∧
    (∃ (s : State) (k : KeySpace), (k.seeding = false) ∧ (k.seedDue = false) ∧ (s.mir.fullKs.contains k.ks = true) ∧ (s.mir.interrupted = true)) ∧
    (∃ (s : State) (k : KeySpace), (k.seeding = false) ∧ (k.seedDue = false) ∧ (s.mir.fullKs.contains k.ks = true) ∧ (s.mir.interrupted = false) ∧ ((s.mir.pairing.any fun p => p.rank == 0) = true)) ∧
    (∃ (s : State) (k : KeySpace), (k.seeding = false) ∧ (k.seedDue = false) ∧ (s.mir.fullKs.contains k.ks = true) ∧ (s.mir.interrupted = false) ∧ ((s.mir.pairing.any fun p => p.rank == 0) = false)) :=
  ⟨⟨mirror id, { ks0 with seeding := true }, by decide +kernel⟩,
   ⟨mirror id, { ks0 with seedDue := true }, by decide +kernel⟩,
   ⟨mirror id, ks0, by decide +kernel⟩,
   ⟨mirror fun m => { m with fullKs := [0], interrupted := true }, ks0, by decide +kernel⟩,
   ⟨mirror fun m => { m with fullKs := [0] }, ks0, by decide +kernel⟩,
   ⟨(mirror fun m => { m with fullKs := [0] }).setMir fun m => { m with pairing := some { pair0 with rank := 1 } }, ks0, by decide +kernel⟩⟩

theorem witness_LinksAndPortControls_0 :
    ∃ (port : Fin 2) (l : LinkInfo) (s : State), s.linkOk port l = true :=
  ⟨0, { rate := 3, eee := false, partnerAdv := 0xF }, serve, by decide +kernel⟩

theorem witness_LinksAndPortControls_1 :
    (∃ (port : Fin 2) (s : State), (s.port port).link = true) ∧
    (∃ (port : Fin 2) (s : State), (s.port port).link = false) :=
  ⟨⟨0, linked, by decide +kernel⟩,
   ⟨0, serve, by decide +kernel⟩⟩

theorem witness_LinksAndPortControls_2 :
    (∃ (port : Fin 2) (rate : Fin 4) (s : State), 
    let n := (((s.port port).trainFails.find? fun f => f.1 == rate.val).map fun f => f.2).getD 0 + 1
    (s.portUsable port = true) ∧ ((s.port port).link = false) ∧ (n < 3)) ∧
    (∃ (port : Fin 2) (rate : Fin 4) (s : State), 
    let n := (((s.port port).trainFails.find? fun f => f.1 == rate.val).map fun f => f.2).getD 0 + 1
    (s.portUsable port = true) ∧ ((s.port port).link = false) ∧ (3 ≤ n)) :=
  ⟨⟨1, 3, serve, by dsimp only; decide +kernel⟩,
   ⟨1, 3, serve.setPort 1 fun q => { q with trainFails := [(3, 2)] }, by dsimp only; decide +kernel⟩⟩

theorem witness_LinksAndPortControls_3 :
    ∃ (port : Fin 2) (s : State), ((s.port port).link = true) ∧ ((s.port port).rate ≠ 0) :=
  ⟨0, linked, by decide +kernel⟩

theorem witness_LinksAndPortControls_4 :
    ∃ (port : Fin 2) (ok : Bool) (s : State), (s.portUsable port = true) ∧ (s.life.mainOn = true) :=
  ⟨1, true, serve, by decide +kernel⟩

theorem witness_LinksAndPortControls_5 :
    ∃ (port : Fin 2) (v : Word) (s : State), (s.portUsable port = true) ∧ ((v.toNat % 4 = 3 ∨ v.toNat / 4096 % 128 < 1 ∨ 100 < v.toNat / 4096 % 128)) :=
  ⟨0, 3, linked, by decide +kernel⟩

theorem witness_LinksAndPortControls_6 :
    ∃ (port : Fin 2) (v : Word) (s : State), (s.portUsable port = true) ∧ (v.toNat % 4 = 2) ∧ (1 ≤ v.toNat / 4096 % 128) ∧ (v.toNat / 4096 % 128 ≤ 100) ∧ (2 < ((List.range 8).filter fun i => v.getLsbD (4 + i)).length) :=
  ⟨0, 0x1072, serve, by decide +kernel⟩

theorem witness_LinksAndPortControls_7 :
    ∃ (port : Fin 2) (v : Word) (s : State), (s.portUsable port = true) ∧ ((v.toNat % 4 < 2 ∨ (v.toNat % 4 = 2 ∧ ((List.range 8).filter fun i => v.getLsbD (4 + i)).length ≤ 2))) ∧ (1 ≤ v.toNat / 4096 % 128) ∧ (v.toNat / 4096 % 128 ≤ 100) :=
  ⟨0, 0x64001, serve, by decide +kernel⟩

theorem witness_LinksAndPortControls_8 :
    ∃ (port : Fin 2) (s : State), (s.portUsable port = true) ∧ ((s.port port).link = true) ∧ ((s.upTarget port).isSome = true) :=
  ⟨0, port fun q => { q with rate := 0, partnerAdv := 0xF }, by decide +kernel⟩

theorem witness_LinksAndPortControls_9 :
    ∃ (s0 : TrafficSample) (s1 : TrafficSample) (s : State), ((s.port 0).sampledAt.all fun t => s.past t oneSec) = false :=
  ⟨sample0, sample0, port fun q => { q with sampledAt := some 10000000000000 }, by decide +kernel⟩

theorem witness_LinksAndPortControls_10 :
    (∃ (s0 : TrafficSample) (s1 : TrafficSample) (s : State), 
    let t := (s.setPort 0 fun q => { q.sample s0 with sampledAt := some s.now }).setPort 1 fun q => { q.sample s1 with sampledAt := some s.now }
    (((s.port 0).sampledAt.all fun t => s.past t oneSec) = true) ∧ ((t.ports.any fun q => q.nego.isSome) = true)) ∧
    (∃ (s0 : TrafficSample) (s1 : TrafficSample) (s : State) (p : Fin 2), 
    let t := (s.setPort 0 fun q => { q.sample s0 with sampledAt := some s.now }).setPort 1 fun q => { q.sample s1 with sampledAt := some s.now }
    (((s.port 0).sampledAt.all fun t => s.past t oneSec) = true) ∧ ((t.ports.any fun q => q.nego.isSome) = false) ∧ (([0, 1].find? fun (p : Fin 2) => t.portUsable p && (t.upCause p).isSome) = some p)) ∧
    (∃ (s0 : TrafficSample) (s1 : TrafficSample) (s : State), 
    let t := (s.setPort 0 fun q => { q.sample s0 with sampledAt := some s.now }).setPort 1 fun q => { q.sample s1 with sampledAt := some s.now }
    (((s.port 0).sampledAt.all fun t => s.past t oneSec) = true) ∧ ((t.ports.any fun q => q.nego.isSome) = false) ∧ (([0, 1].find? fun (p : Fin 2) => t.portUsable p && (t.upCause p).isSome) = none)) :=
  ⟨⟨sample0, sample0, port fun q => { q with nego := some (3, 4, 0) }, by dsimp only; decide +kernel⟩,
   ⟨sample0, { sample0 with starved := true }, serve.setPort 1 fun q => { q with link := true, rate := 0, partnerAdv := 0xF, starved := 2 }, 1, by dsimp only; decide +kernel⟩,
   ⟨sample0, sample0, linked, by dsimp only; decide +kernel⟩⟩

theorem witness_FramesAndPausesRun_0 :
    (∃ (port : Fin 2) (f : RxFrame) (s : State), (s.portUsable port = true) ∧ ((s.port port).link = true) ∧ (f.len < 64)) ∧
    (∃ (port : Fin 2) (f : RxFrame) (s : State), 
    let max := (s.portCfg port).maxFrame.toNat
    (s.portUsable port = true) ∧ ((s.port port).link = true) ∧ (64 ≤ f.len) ∧ (max < f.len)) ∧
    (∃ (port : Fin 2) (f : RxFrame) (s : State), 
    let max := (s.portCfg port).maxFrame.toNat
    (s.portUsable port = true) ∧ ((s.port port).link = true) ∧ (64 ≤ f.len) ∧ (f.len ≤ max) ∧ (f.fcsOk = false)) ∧
    (∃ (port : Fin 2) (f : RxFrame) (s : State), 
    let max := (s.portCfg port).maxFrame.toNat
    (s.portUsable port = true) ∧ ((s.port port).link = true) ∧ (64 ≤ f.len) ∧ (f.len ≤ max) ∧ (f.fcsOk = true) ∧ (f.symbolErr = true)) ∧
    (∃ (port : Fin 2) (f : RxFrame) (s : State), 
    let a := s.activity port
    let b := if f.symbolErr then a.setPort port fun q => q.count 15 1 else a
    let max := (s.portCfg port).maxFrame.toNat
    (s.portUsable port = true) ∧ ((s.port port).link = true) ∧ (64 ≤ f.len) ∧ (f.len ≤ max) ∧ (f.fcsOk = true) ∧ (f.symbolErr = false) ∧ (b.acceptsDst port f.dst = false)) :=
  ⟨⟨0, { frame0 with len := 63 }, linked, by decide +kernel⟩,
   ⟨0, { frame0 with len := 9217 }, linked, by dsimp only; decide +kernel⟩,
   ⟨0, { frame0 with fcsOk := false }, linked, by dsimp only; decide +kernel⟩,
   ⟨0, { frame0 with symbolErr := true }, linked, by dsimp only; decide +kernel⟩,
   ⟨0, { frame0 with dst := 1 }, linked, by dsimp only; decide +kernel⟩⟩

theorem witness_FramesAndPausesRun_1 :
    (∃ (port : Fin 2) (f : RxFrame) (s : State), (s.portUsable port = true) ∧ ((s.port port).link = true) ∧ (64 ≤ f.len) ∧ (f.len ≤ (s.portCfg port).maxFrame.toNat) ∧ (f.symbolErr = false) ∧ (f.fcsOk = true) ∧ ((s.activity port).acceptsDst port f.dst = true) ∧ (f.proto = .macControl)) ∧
    (∃ (port : Fin 2) (f : RxFrame) (s : State), (s.portUsable port = true) ∧ ((s.port port).link = true) ∧ (64 ≤ f.len) ∧ (f.len ≤ (s.portCfg port).maxFrame.toNat) ∧ (f.symbolErr = false) ∧ (f.fcsOk = true) ∧ ((s.activity port).acceptsDst port f.dst = true) ∧ (f.proto ≠ .macControl) ∧ ((s.portCfg port).vlanOk f.tags = false)) ∧
    (∃ (port : Fin 2) (f : RxFrame) (s : State), (s.portUsable port = true) ∧ ((s.port port).link = true) ∧ (64 ≤ f.len) ∧ (f.len ≤ (s.portCfg port).maxFrame.toNat) ∧ (f.symbolErr = false) ∧ (f.fcsOk = true) ∧ ((s.activity port).acceptsDst port f.dst = true) ∧ (f.proto ≠ .macControl) ∧ ((s.portCfg port).vlanOk f.tags = true) ∧ (f.ipErr = true)) ∧
    (∃ (port : Fin 2) (f : RxFrame) (s : State), 
    let t := (s.activity port).setPort port fun q => q.goodRx f
    let t := if f.dst = t.macOf port then t.wake else t
    (s.portUsable port = true) ∧ ((s.port port).link = true) ∧ (64 ≤ f.len) ∧ (f.len ≤ (s.portCfg port).maxFrame.toNat) ∧ (f.symbolErr = false) ∧ (f.fcsOk = true) ∧ ((s.activity port).acceptsDst port f.dst = true) ∧ (f.proto ≠ .macControl) ∧ ((s.portCfg port).vlanOk f.tags = true) ∧ (f.ipErr = false) ∧ (t.served f.proto = false)) ∧
    (∃ (port : Fin 2) (f : RxFrame) (s : State), 
    let t := (s.activity port).setPort port fun q => q.goodRx f
    let t := if f.dst = t.macOf port then t.wake else t
    let served := t.life.phase = 9 ∨ t.life.phase = 11
    let answered := f.proto = .arp ∨ f.proto = .ndisc ∨ f.proto = .echo
    (s.portUsable port = true) ∧ ((s.port port).link = true) ∧ (64 ≤ f.len) ∧ (f.len ≤ (s.portCfg port).maxFrame.toNat) ∧ (f.symbolErr = false) ∧ (f.fcsOk = true) ∧ ((s.activity port).acceptsDst port f.dst = true) ∧ (f.proto ≠ .macControl) ∧ ((s.portCfg port).vlanOk f.tags = true) ∧ (f.ipErr = false) ∧ (t.served f.proto = true) ∧ ((served ∨ answered))) ∧
    (∃ (port : Fin 2) (f : RxFrame) (s : State), 
    let t := (s.activity port).setPort port fun q => q.goodRx f
    let t := if f.dst = t.macOf port then t.wake else t
    let served := t.life.phase = 9 ∨ t.life.phase = 11
    let answered := f.proto = .arp ∨ f.proto = .ndisc ∨ f.proto = .echo
    (s.portUsable port = true) ∧ ((s.port port).link = true) ∧ (64 ≤ f.len) ∧ (f.len ≤ (s.portCfg port).maxFrame.toNat) ∧ (f.symbolErr = false) ∧ (f.fcsOk = true) ∧ ((s.activity port).acceptsDst port f.dst = true) ∧ (f.proto ≠ .macControl) ∧ ((s.portCfg port).vlanOk f.tags = true) ∧ (f.ipErr = false) ∧ (t.served f.proto = true) ∧ (¬ served) ∧ (¬ answered)) :=
  ⟨⟨0, { frame0 with proto := .macControl }, linked, by decide +kernel⟩,
   ⟨0, { frame0 with tags := [⟨0x8100, 0, 9⟩] }, linked, by decide +kernel⟩,
   ⟨0, { frame0 with ipErr := true }, linked, by decide +kernel⟩,
   ⟨0, { frame0 with proto := .udp 9 }, linked, by dsimp only; decide +kernel⟩,
   ⟨0, frame0, linked, by dsimp only; decide +kernel⟩,
   ⟨0, frame0, linked.setLife fun l => { l with phase := 8 }, by dsimp only; decide +kernel⟩⟩

theorem witness_FramesAndPausesRun_2 :
    ∃ (port : Fin 2) (s : State), ((s.port port).xoff = true) ∧ (96 ≤ (s.port port).rxShared) :=
  ⟨0, port fun q => { q with xoff := true }, by decide +kernel⟩

theorem witness_FramesAndPausesRun_3 :
    ∃ (port : Fin 2) (s : State), ((s.port port).xoff = true) ∧ ((s.port port).link = true) ∧ (s.past (s.port port).xoffAt (quantaNs 0xFFFF (s.port port).rate.val / 2) = true) :=
  ⟨0, port fun q => { q with xoff := true }, by decide +kernel⟩

theorem witness_FramesAndPausesRun_4 :
    (∃ (port : Fin 2) (v : BitVec 16) (s : State), (s.portUsable port = true) ∧ ((s.port port).link = true) ∧ ((s.portCfg port).fc.getLsbD 2 = true) ∧ ((s.portCfg port).fcMode = 1) ∧ (((s.port port).tx.any fun t => t.breakUntil.isSome) = false)) ∧
    (∃ (port : Fin 2) (v : BitVec 16) (s : State), (s.portUsable port = true) ∧ ((s.port port).link = true) ∧ (((s.portCfg port).fc.getLsbD 2 = false ∨ (s.portCfg port).fcMode ≠ 1))) ∧
    (∃ (port : Fin 2) (v : BitVec 16) (s : State) (en : BitVec 8) (vs : List (BitVec 16)), (s.portUsable port = true) ∧ ((s.port port).link = true) ∧ (((s.portCfg port).fc.getLsbD 2 = false ∨ (s.portCfg port).fcMode ≠ 2))) :=
  ⟨⟨0, 5, fcOn 5, by decide +kernel⟩,
   ⟨0, 5, fcOn 0, by decide +kernel⟩,
   ⟨0, 5, fcOn 0, 0xFF, [], by decide +kernel⟩⟩

theorem witness_FramesAndPausesRun_5 :
    ∃ (port : Fin 2) (tc : Fin 8) (s : State) (c : TxClass), ((s.port port).tx[tc.val]? = some c) ∧ ((s.portCfg port).pauseWdog.toNat ≠ 0) ∧ (c.paused s.now = true) ∧ (s.past c.pausedSince ((s.portCfg port).pauseWdog.toNat * ms) = true) :=
  ⟨0, 0, port fun q => { q with tx := class0 :: List.replicate 7 {} }, class0, by decide +kernel⟩

theorem witness_GatesAndTransmission_0 :
    (∃ (port : Fin 2) (s : State), 
    let q := s.port port
    let bad := q.tasPending = true ∨ q.gadmin.cycle.toNat < 400 ∨ q.gadmin.len.toNat < 1 ∨ 256 < q.gadmin.len.toNat ∨ ((q.gadmin.entries.take q.gadmin.len.toNat).any fun e => e.2 == 0) = true
    (s.portUsable port = true) ∧ (bad)) ∧
    (∃ (port : Fin 2) (s : State), 
    let q := s.port port
    let bad := q.tasPending = true ∨ q.gadmin.cycle.toNat < 400 ∨ q.gadmin.len.toNat < 1 ∨ 256 < q.gadmin.len.toNat ∨ ((q.gadmin.entries.take q.gadmin.len.toNat).any fun e => e.2 == 0) = true
    (s.portUsable port = true) ∧ (¬ bad)) :=
  ⟨⟨0, port fun q => { q with tasPending := true }, by dsimp only; decide +kernel⟩,
   ⟨0, port fun q => { q with gadmin := gadm0 }, by dsimp only; decide +kernel⟩⟩

theorem witness_GatesAndTransmission_1 :
    ∃ (port : Fin 2) (s : State), ((s.port port).tasPending = true) ∧ ((s.port port).swapAt ≤ s.ptp.time) :=
  ⟨0, port fun q => { q with tasPending := true }, by decide +kernel⟩

theorem witness_GatesAndTransmission_2 :
    ∃ (port : Fin 2) (s : State), (s.port port).tasRunning = true :=
  ⟨0, port fun q => { q with tasRunning := true }, by decide +kernel⟩

theorem witness_GatesAndTransmission_3 :
    ∃ (port : Fin 2) (v : Word) (s : State), s.portUsable port = true :=
  ⟨0, 1, serve, by decide +kernel⟩

theorem witness_GatesAndTransmission_4 :
    (∃ (port : Fin 2) (s : State) (f : PauseFrame), 
    let t := s.endLine port
    ((t.port port).link = true) ∧ ((t.port port).line = none) ∧ ((t.port port).macCtl = some f)) ∧
    (∃ (port : Fin 2) (s : State) (tc : Nat), 
    let t := s.endLine port
    let u := (List.range 8).foldl (fun s tc => s.dropOversize ((((s.port port).tx[tc]?).map fun c => c.queue.length).getD 0) port tc) t
    ((t.port port).link = true) ∧ ((t.port port).line = none) ∧ ((t.port port).macCtl = none) ∧ (([7, 6, 5, 4, 3, 2, 1, 0].find? fun tc => u.mayStart port tc) = some tc)) :=
  ⟨⟨0, port fun q => { q with macCtl := some (.link 0) }, .link 0, by dsimp only; decide +kernel⟩,
   ⟨0, port fun q => { q with tx := { queue := [txf0] } :: List.replicate 7 {} }, 0, by dsimp only; decide +kernel⟩⟩

theorem witness_GatesAndTransmission_5 :
    ∃ (port : Fin 2) (s : State), 
    let t := s.endLine port
    ((t.port port).link = true) ∧ ((t.port port).eee = true) ∧ ((t.port port).txLpi = false) ∧ ((t.port port).line = none) ∧ ((t.port port).macCtl = none) ∧ ((t.port port).txWait = []) ∧ (((t.port port).tx.all fun c => c.queue.isEmpty) = true) ∧ ((t.port port).tasRunning = false) ∧ (t.past (t.port port).txIdleSince (1000 * ((t.portCfg port).phy.toNat / 65536)) = true) :=
  ⟨0, port fun q => { q with eee := true }, by dsimp only; decide +kernel⟩

theorem witness_TheClockIsKept_0 :
    (∃ (m : PtpMsg) (s : State), (m.domain.toNat = s.ptp.domain) ∧ (m.transport.val = s.ptp.transport m.port) ∧ (s.portUsable m.port = true) ∧ (s.pwr.ps ≠ 4) ∧ (m.announce = none) ∧ ((s.ptpStamp m).2 = true)) ∧
    (∃ (m : PtpMsg) (s : State), (m.domain.toNat = s.ptp.domain) ∧ (m.transport.val = s.ptp.transport m.port) ∧ (s.portUsable m.port = true) ∧ (s.pwr.ps ≠ 4) ∧ (m.announce = none) ∧ ((s.ptpStamp m).2 = false)) ∧
    (∃ (m : PtpMsg) (s : State) (a : Announce), (m.domain.toNat = s.ptp.domain) ∧ (m.transport.val = s.ptp.transport m.port) ∧ (s.portUsable m.port = true) ∧ (s.pwr.ps ≠ 4) ∧ (m.announce = some a) ∧ (m.sent = false)) ∧
    (∃ (m : PtpMsg) (s : State) (a : Announce), (m.domain.toNat = s.ptp.domain) ∧ (m.transport.val = s.ptp.transport m.port) ∧ (s.portUsable m.port = true) ∧ (s.pwr.ps ≠ 4) ∧ (m.announce = some a) ∧ (m.sent = true)) :=
  ⟨⟨ptpMsg0, serve, by decide +kernel⟩,
   ⟨{ ptpMsg0 with offset := none }, wTsFull, by decide +kernel⟩,
   ⟨{ ptpMsg0 with msgType := 11, announce := some { prio1 := 128, clockClass := 6, accuracy := 0x21, variance := 0, prio2 := 128, gm := 1, steps := 0 } }, serve, { prio1 := 128, clockClass := 6, accuracy := 0x21, variance := 0, prio2 := 128, gm := 1, steps := 0 }, by decide +kernel⟩,
   ⟨{ ptpMsg0 with msgType := 11, sent := true, announce := some { prio1 := 128, clockClass := 6, accuracy := 0x21, variance := 0, prio2 := 128, gm := 1, steps := 0 } }, serve, { prio1 := 128, clockClass := 6, accuracy := 0x21, variance := 0, prio2 := 128, gm := 1, steps := 0 }, by decide +kernel⟩⟩

theorem witness_TheClockIsKept_1 :
    ∃ (s : State), (1 ≤ s.ptp.source) ∧ (s.ptp.source ≤ 4) ∧ (s.ptp.lastSample ≠ 0) ∧ (s.past s.ptp.lastSample ((if s.ptp.source = 4 then 2 else 3) * oneSec) = true) :=
  ⟨ptp fun t => { t with lastSample := 1 }, by decide +kernel⟩

theorem witness_TheClockIsKept_2 :
    (∃ (s : State), (s.ptp.source ≠ 4 ∨ s.servoPaused = true)) ∧
    (∃ (s : State), (s.ptp.source = 4) ∧ (s.servoPaused = false)) :=
  ⟨⟨serve, by decide +kernel⟩,
   ⟨ptp fun t => { t with cfg := 4 }, by decide +kernel⟩⟩

theorem witness_TheClockIsKept_3 :
    ∃ (s : State), (s.ptp.ppsCfg.getLsbD 20 = true) ∧ ((s.ptp.timeValid = true ∨ s.ptp.ppsCfg.getLsbD 21 = true)) ∧ ((s.ptp.time + secUnits - unitsOf 0 s.ptp.ppsOffset.toNat % secUnits) % secUnits < 400) :=
  ⟨ptp fun t => { t with ppsCfg := 0x1003E8, timeValid := true, ppsOffset := 0 }, by decide +kernel⟩

theorem witness_TheClockIsKept_4 :
    ∃ (s : State), (s.ptp.ppsOut = true) ∧ (s.past s.ptp.ppsRose (1000 * (s.ptp.ppsCfg.toNat % 2 ^ 20)) = true) :=
  ⟨ptp fun t => { t with ppsOut := true }, by decide +kernel⟩

theorem witness_TheClockIsKept_5 :
    (∃ (s : State), s.ptp.source = 5) ∧
    (∃ (s : State), s.ptp.source ≠ 5) :=
  ⟨⟨ptp fun t => { t with cfg := 5 }, by decide +kernel⟩,
   ⟨serve, by decide +kernel⟩⟩

theorem witness_TheClockIsKept_6 :
    ∃ (port : Fin 2) (s : State), (s.samplesFrom port = true) ∧ ((s.port port).link = true) ∧ (s.past s.ptp.lastReq (intervalNs s.ptp.logInterval) = true) :=
  ⟨0, wMaster, by decide +kernel⟩

theorem witness_TheClockIsKept_7 :
    ∃ (v : Word) (s : State), (v.toNat % 8 ≤ 5) ∧ (v.toNat / 16 % 4 ≠ 3) ∧ (v.toNat / 64 % 4 ≠ 3) :=
  ⟨5, serve, by decide +kernel⟩

theorem witness_LatchingReads_0 :
    ∃ (q : Fin 4) (s : State) (e : TsEntry), (s.ptp.source = 5) ∧ (((s.ptp.q.getD q.val {}).pop).2 = some e) :=
  ⟨3, ptp fun t => { t with cfg := 5, q := List.replicate 4 { entries := [ts0] } }, ts0, by decide +kernel⟩

theorem witness_TheLensCursorMoves_0 :
    ∃ (v : Word) (s : State), (s.life.aonOn = true) ∧ (s.busReady = true) :=
  ⟨7, serve, by decide +kernel⟩

theorem witness_TheLensCursorMoves_1 :
    (∃ (v : Word) (s : State) (t : State), 
    let n := v.toNat * 2 ^ 32 + s.evr.cursorLo.toNat
    (exec (.evrCursorHiWrite v) s = .next t) ∧ (n < s.evr.oldest)) ∧
    (∃ (v : Word) (s : State) (t : State), 
    let n := v.toNat * 2 ^ 32 + s.evr.cursorLo.toNat
    (exec (.evrCursorHiWrite v) s = .next t) ∧ (s.evr.oldest ≤ n) ∧ (s.evr.next < n)) ∧
    (∃ (v : Word) (s : State) (t : State), 
    let n := v.toNat * 2 ^ 32 + s.evr.cursorLo.toNat
    (exec (.evrCursorHiWrite v) s = .next t) ∧ (s.evr.oldest ≤ n) ∧ (n ≤ s.evr.next)) :=
  ⟨⟨0, wEvr 0, _, rfl, by decide +kernel⟩,
   ⟨1, wEvr 0, _, rfl, by decide +kernel⟩,
   ⟨0, wEvr 5, _, rfl, by decide +kernel⟩⟩

theorem witness_TheRecorderRuns_0 :
    ∃ (s : State), s.evr.filling = true :=
  ⟨evr fun r => { r with filling := true }, by decide +kernel⟩

theorem witness_TheRecorderRuns_1 :
    (∃ (s : State), (s.evrCopyDue = true) ∧ ((s.grantFor .evrCopy).isSome = true)) ∧
    (∃ (s : State), (s.evrCopyDue = true) ∧ (s.grantFor .evrCopy = none) ∧ ((s.pwr.queue.any fun q => q.why == .evrCopy) = false)) :=
  ⟨⟨grants .evrCopy (evr fun r => { r with ring := List.replicate 512 evRec0 }), by decide +kernel⟩,
   ⟨evr fun r => { r with ring := List.replicate 512 evRec0 }, by decide +kernel⟩⟩

theorem witness_TheRecorderRuns_2 :
    ∃ (bank : Nat) (s : State), s.evr.flashOk = true :=
  ⟨0, serve, by decide +kernel⟩

theorem witness_TheRecorderRuns_3 :
    ∃ (bank : Nat) (s : State), (s.evr.ondieOk = true) ∧ (bank < s.evr.banks) :=
  ⟨0, serve, by decide +kernel⟩

theorem witness_EqualEventsAreFolded_0 :
    ∃ (s : State) (c : EvCode) (u : Nat) (p0 : Nat) (p1 : Nat) (e : EvRec), (s.evr.on = true) ∧ (s.evr.ring.getLast? = some e) ∧ (s.evr.openRec = true) ∧ (e.code = c.1) ∧ (e.src = u) ∧ (e.p0 = BitVec.ofNat 32 p0) ∧ (e.p1 = BitVec.ofNat 32 p1) ∧ (e.rep < 65535) :=
  ⟨evr fun r => { r with ring := [{ evRec0 with rep := 65534 }], openRec := true }, evPwrclsInvalid, uPower, 5, 0, { evRec0 with rep := 65534 }, by decide +kernel⟩

theorem witness_EqualEventsAreFolded_1 :
    ∃ (s : State) (c : EvCode) (u : Nat) (p0 : Nat) (p1 : Nat) (e : EvRec), (s.evr.on = true) ∧ (s.evr.ring.getLast? = some e) ∧ ((s.evr.openRec = false ∨ e.code ≠ c.1 ∨ e.src ≠ u ∨ e.p0 ≠ BitVec.ofNat 32 p0 ∨ e.p1 ≠ BitVec.ofNat 32 p1 ∨ 65535 ≤ e.rep)) :=
  ⟨evr fun r => { r with ring := [{ evRec0 with rep := 65535 }], openRec := true }, evPwrclsInvalid, uPower, 5, 0, { evRec0 with rep := 65535 }, by decide +kernel⟩

theorem witness_TheSideBandAndItsMailboxRun_0 :
    ∃ (s : State) (a : Nat) (v : Word) (r : List (Nat × Word)), (s.sb.fifo = (a, v) :: r) ∧ (s.busReady = true) :=
  ⟨side fun b => { b with fifo := [(0x2C, 5)] }, 0x2C, 5, [], by decide +kernel⟩

theorem witness_TheSideBandAndItsMailboxRun_1 :
    ∃ (addr : Nat) (data : Bytes) (s : State), (s.life.spiEn = true) ∧ (s.life.aonOn = true) :=
  ⟨0x2C, z 4, serve, by decide +kernel⟩

theorem witness_TheSideBandAndItsMailboxRun_2 :
    ∃ (addr : Nat) (words : Nat) (wait : Nat) (s : State), (s.life.spiEn = true) ∧ (s.life.aonOn = true) :=
  ⟨0x2C, 1, 33, serve, by decide +kernel⟩

theorem witness_TheSideBandAndItsMailboxRun_3 :
    ∃ (s : State), (s.life.spiEn = true) ∧ (s.life.aonOn = true) :=
  ⟨serve, by decide +kernel⟩

theorem witness_TheSideBandAndItsMailboxRun_4 :
    ∃ (dev : BitVec 7) (addr : Nat) (data : Bytes) (s : State), s.i2cMine dev = true :=
  ⟨0x52, 0x2C, z 4, serve, by decide +kernel⟩

theorem witness_TheSideBandAndItsMailboxRun_5 :
    ∃ (dev : BitVec 7) (addr : Nat) (words : Nat) (s : State), s.i2cMine dev = true :=
  ⟨0x52, 0x2C, 1, serve, by decide +kernel⟩

theorem witness_TheSideBandAndItsMailboxRun_6 :
    ∃ (s : State), (s.mbxOpen = true) ∧ (s.mbx.mbxState = 1) :=
  ⟨mbx31 fun m => { m with mbxState := 1 }, by decide +kernel⟩

theorem witness_TheSideBandAndItsMailboxRun_7 :
    ∃ (s : State) (e : Entry), (s.mbxOpen = true) ∧ (s.mbx.mbxState ≠ 1) ∧ (e = parseEntry (readCells s.mbx.reqBuf 0 64)) ∧ (s.mbx.reqLen.toNat ≤ 16384) ∧ (s.mbx.reqLen.toNat = 64 + e.reqLen) :=
  ⟨mbx31 fun m => { m with reqLen := 64 }, parseEntry (z 64), by decide +kernel⟩

theorem witness_TheSideBandAndItsMailboxRun_8 :
    ∃ (s : State) (e : Entry) (c : Cmd), 
    let t := (s.setMbx fun m => { m with mbxState := 1, cancelled := false, cancelLate := false, cancelPending := false, tag := e.tag, cmds := m.cmds.admitOne }).admitCmd (newCmd .mbx 1 false e [] 16320)
    (s.mbxOpen = true) ∧ (s.mbx.mbxState ≠ 1) ∧ (e = parseEntry (readCells s.mbx.reqBuf 0 64)) ∧ ((16384 < s.mbx.reqLen.toNat ∨ s.mbx.reqLen.toNat ≠ 64 + e.reqLen)) ∧ (t.cmd? s.mbx.admNext = some c) :=
  ⟨wMis, eMis, hd wMisTaken, by dsimp only; decide +kernel⟩

theorem witness_TheSideBandAndItsMailboxRun_9 :
    (∃ (s : State) (c : Cmd), ((s.cmds.find? fun c => c.src == .mbx) = some c) ∧ (s.mbx.mbxState = 1) ∧ (c.cancellable = true)) ∧
    (∃ (s : State) (c : Cmd), ((s.cmds.find? fun c => c.src == .mbx) = some c) ∧ (s.mbx.mbxState = 1) ∧ (c.cancellable = false)) :=
  ⟨⟨wGet.setMbx fun m => { m with mbxState := 1 }, hd wGet, by decide +kernel⟩,
   ⟨wCreate.setMbx fun m => { m with mbxState := 1 }, hd wCreate, by decide +kernel⟩⟩

theorem witness_TheSideBandAndItsMailboxRun_10 :
    ∃ (s : State), (s.mbx.mbxState ≠ 1 ∨ (s.cmds.find? fun c => c.src == .mbx) = none) :=
  ⟨serve, by decide +kernel⟩

theorem witness_TheSideBandAndItsMailboxRun_11 :
    ∃ (s : State), s.mbxOpen = false :=
  ⟨State.reset, by decide +kernel⟩

theorem witness_RegisterWrites_0 :
    ∃ (v : Word) (s : State), s.life.aonOn = true :=
  ⟨0xFFFFFFFF, serve, by decide +kernel⟩

theorem witness_RegisterWrites_1 :
    (∃ (v : Word) (s : State), s.life.aonOn = true) ∧
    (∃ (v : Word) (s : State) (i : Nat), (s.life.aonOn = true) ∧ (i < 5)) :=
  ⟨⟨0xFFFFFFFF, serve, by decide +kernel⟩,
   ⟨1, serve, 4, by decide +kernel⟩⟩

theorem witness_RegisterWrites_2 :
    ∃ (addr : Nat) (v : Word) (s : State), addr % 4 ≠ 0 :=
  ⟨0x2D, 1, serve, by decide +kernel⟩

theorem witness_RegisterWrites_3 :
    ∃ (off : Nat) (v : Word) (s : State), (off < 0x4000) ∧ (off % 4 = 0) ∧ (s.life.aonOn = true) ∧ (s.busReady = true) ∧ (s.mbx.mbxState ≠ 1) :=
  ⟨0x3FFC, 1, serve, by decide +kernel⟩

theorem witness_RegisterWrites_4 :
    ∃ (v : Word) (s : State), s.life.aonOn = true :=
  ⟨60, serve, by decide +kernel⟩

theorem witness_RegisterWrites_5 :
    ∃ (kHz : Nat) (s : State), ((s.life.measAt.any fun t => s.past t ms) = true) ∧ (s.domainRuns s.life.measSel.toNat = some true) :=
  ⟨5, life fun l => { l with measSel := 53, measAt := some 0 }, by decide +kernel⟩

theorem witness_RegisterWrites_6 :
    ∃ (kHz : Nat) (s : State), ((s.life.measAt.any fun t => s.past t ms) = true) ∧ (s.domainRuns s.life.measSel.toNat = some false) :=
  ⟨1000, life fun l => { l with measSel := 63, measAt := some 0 }, by decide +kernel⟩

theorem witness_EveryStepKeepsIdentityQueueAndTime_0 :
    ∃ (s : State) (t : State), step s = .next t :=
  ⟨State.reset, State.reset.tick, rfl⟩

theorem witness_EveryStepBalancesTheTokens_0 :
    ∃ (s : State) (t : State), (Safety.TokensBalance s.pwr) ∧ (step s = .next t) :=
  ⟨State.reset, State.reset.tick, by unfold Safety.TokensBalance; decide +kernel, rfl⟩

theorem witness_EveryStepKeepsTheDramCanonical_0 :
    ∃ (s : State) (t : State), (memWf s.dram.mem = true) ∧ (memWf s.dram.sram = true) ∧ (step s = .next t) :=
  ⟨State.reset, State.reset.tick, by decide +kernel, by decide +kernel, rfl⟩

theorem witness_NothingRunsOutOfService_0 :
    ∃ (s : State) (c : Instr), (s.running = false) ∧ (((∃ cp : Fin 8, c ∈ [.put cp, .get cp, .delete cp, .existsKey cp, .discardRange cp, .list cp, .mget cp, .putPart cp, .flush cp]) ∨ c ∈ [.summary, .ksCreate, .ksDelete, .ksSetLimit, .format, .sanitize, .ident, .setFeature, .getFeature, .logRead, .logClear, .updOffer, .updBlock, .updActivate, .updConfirm, .attest, .certRead, .pair, .unpair, .setPolicy, .setLag, .resync, .mirrorState])) :=
  ⟨State.reset, .put 0, by decide +kernel, Or.inl ⟨0, by decide +kernel⟩⟩

theorem witness_ChecksComeFirst_0 :
    ∃ (s : State) (cp : Fin 8) (c : Cmd) (st : Status) (i : Instr) (op : Nat), ((i, op) ∈ [(.put cp, 0x01), (.get cp, 0x02), (.delete cp, 0x03), (.existsKey cp, 0x04), (.discardRange cp, 0x05), (.list cp, 0x06), (.mget cp, 0x07), (.putPart cp, 0x08), (.flush cp, 0x09)]) ∧ (s.frontOf cp.val op = some c) ∧ ((op = 0x05 → c.payload.isSome = true)) ∧ (s.precheck c = some st) :=
  ⟨wBad, cpOf wBad, hd wBad, stInvalid, .get (cpOf wBad), 0x02, by decide +kernel⟩

theorem witness_ChecksComeFirst_1 :
    ∃ (s : State) (c : Cmd) (st : Status) (i : Instr) (op : Nat), ((i, op) ∈ [(.summary, 0x0B), (.ksCreate, 0x10), (.ksDelete, 0x11), (.ksSetLimit, 0x12), (.format, 0x18), (.sanitize, 0x19), (.ident, 0x20), (.setFeature, 0x21), (.getFeature, 0x22), (.logRead, 0x28), (.logClear, 0x29), (.updOffer, 0x30), (.updBlock, 0x31), (.updActivate, 0x32), (.updConfirm, 0x33), (.attest, 0x38), (.certRead, 0x39), (.mirrorState, 0x41)]) ∧ (s.supFront op = some c) ∧ (s.precheck c = some st) :=
  ⟨wBadSup, hd wBadSup, stDenied, .ksCreate, 0x10, by decide +kernel⟩

theorem witness_ChecksComeFirst_2 :
    (∃ (s : State) (c : Cmd), opServed s.part c.entry.opcode = false) ∧
    (∃ (s : State) (c : Cmd), (opServed s.part c.entry.opcode = true) ∧ (s.modeServes c.entry.opcode = true) ∧ (c.inSan = true) ∧ (c.entry.opcode ∉ [0x0B, 0x20, 0x0A, 0x22])) ∧
    (∃ (s : State) (c : Cmd), (opServed s.part c.entry.opcode = true) ∧ (s.modeServes c.entry.opcode = true) ∧ (c.inSan = false) ∧ (c.permitted = false)) :=
  ⟨⟨serve, hd (sup 0x55 [] 0 0), by decide +kernel⟩,
   ⟨adm wSanEnd (ent 0x02 [] 8 64 8) key, tl (adm wSanEnd (ent 0x02 [] 8 64 8) key), by decide +kernel⟩,
   ⟨serve, hd wBadSup, by decide +kernel⟩⟩

theorem witness_CompletionRetiresItsCommand_0 :
    ∃ (s : State) (c : Cmd) (st : Status) (r0 : Nat) (r1 : Nat) (b : Bytes), c.src ≠ .mirror :=
  ⟨serve, hd wGet, stOk, 0, 0, [], by decide +kernel⟩

theorem witness_CompletionRetiresItsCommand_1 :
    ∃ (s : State) (c : Cmd) (st : Status) (r0 : Nat) (r1 : Nat) (b : Bytes), (c.src = .mbx) ∧ (b.length ≤ 16320) :=
  ⟨serve, hd wGet, stOk, 0, 0, [], by decide +kernel⟩

theorem witness_MemoryKeepsItsForm_0 :
    ∃ (m : List Host.Cell) (x : Nat) (b : Bytes), memWf m = true :=
  ⟨[(4, 1)], 2, [1, 0, 3], by decide +kernel⟩

theorem witness_MemoryKeepsItsForm_1 :
    ∃ (m : List Host.Cell) (x : Nat) (y : Nat) (b : Bytes), (y < x ∨ x + b.length ≤ y) :=
  ⟨[(4, 1)], 2, 5, [1, 0, 3], by decide +kernel⟩

theorem witness_MemoryKeepsItsForm_2 :
    ∃ (m : List Host.Cell) (n : List Host.Cell), (memWf m = true) ∧ (memWf n = true) ∧ ((∀ a : Nat, readCell m a = readCell n a)) :=
  ⟨[(4, 1)], [(4, 1)], by decide +kernel, by decide +kernel, fun _ => rfl⟩

theorem witness_SourceLedgersBalance_0 :
    (∃ (l : CmdLedger), Safety.CmdsBalance l) ∧
    (∃ (l : CmdLedger), (Safety.CmdsBalance l) ∧ (0 < l.outstanding)) :=
  ⟨⟨{ admitted := 1, outstanding := 1 }, rfl⟩,
   ⟨{ admitted := 1, outstanding := 1 }, rfl, by decide⟩⟩

theorem witness_SourceLedgersBalance_1 :
    ∃ (l : CreditLedger) (asked : Nat) (free : Nat), Safety.CreditsBalance l :=
  ⟨{ granted := 8, inUse := 8 }, 16, 4, rfl⟩

theorem witness_EveryCommandHasItsReach_0 :
    ∃ (i : Instr) (s : State) (t : State), exec i s = .next t :=
  ⟨.evrSkippedRead, serve, _, rfl⟩


-- Well-formedness: one ill-formed command for each check, and well-formed ones at the boundary.
theorem test_wf_address : (Instr.registerWrite 0x100000000 0).wf = false ∧ (Instr.registerWrite 0xFFFFFFFC 0).wf = true := by decide
theorem test_wf_side_band : (Instr.spiRead 0x100000000 1 0).wf = false ∧ (Instr.i2cWrite 0x52 0x100000000 []).wf = false := by decide
theorem test_wf_rx_address : (Instr.arpNdEchoRequest { rx0 with hostAddr := z 15 } .arp 64).wf = false := by decide
theorem test_wf_rx_local : (Instr.arpNdEchoRequest { rx0 with localAddr := z 4 } .arp 64).wf = false := by decide
theorem test_wf_rx_port : (Instr.hello { rx0 with hostUdp := 65536 } []).wf = false ∧ (Instr.hello { rx0 with localUdp := 65536 } []).wf = false := by decide
theorem test_wf_rx_dscp : (Instr.hello { rx0 with dscp := 64 } []).wf = false ∧ (Instr.hello { rx0 with dscp := 63 } []).wf = true := by decide
theorem test_wf_datagram : dgFits (z 65508) = false ∧ dgFits (z 65507) = true := by decide +kernel
theorem test_wf_fragment_source : (Instr.ipFragment { frag0 with srcAddr := z 4 }).wf = false := by decide
theorem test_wf_fragment_port : (Instr.ipFragment { frag0 with dstUdp := 65536 }).wf = false := by decide
theorem test_wf_fragment_offset : (Instr.ipFragment { frag0 with offset := 4 }).wf = false := by decide
theorem test_wf_fragment_end : (Instr.ipFragment { frag0 with offset := 65528 }).wf = false := by decide +kernel
theorem test_wf_reassembly : (Instr.reassemblyTimeout 0 (z 4) 0).wf = false ∧ (Instr.authRefusalEnd (z 4)).wf = false := by decide
theorem test_wf_request : (Instr.connectionReq rx0 (z 197)).wf = false := by decide +kernel
theorem test_wf_doorbell : (Instr.doorbell 0 4096 (z 8)).wf = false ∧ (Instr.doorbell 0 0 (z 4097)).wf = false := by decide +kernel
theorem test_wf_entry : entryFits (z 63) = false ∧ entryFits (z 545) = false ∧ (Instr.entryFetchResponse 0 [z 63]).wf = false := by decide +kernel
theorem test_wf_mirror_lseq : (Instr.mirrorPut { msg0 with lseq := 4294967296 }).wf = false := by decide
theorem test_wf_mirror_acks : (Instr.heartbeat { msg0 with lack := 4294967296 }).wf = false ∧ (Instr.refuse { msg0 with lapplied := 4294967296 }).wf = false := by decide
theorem test_wf_mirror_key : (Instr.mirrorDelete { msg0 with key := z 241 }).wf = false := by decide +kernel
theorem test_wf_pause : (Instr.pauseFrameReceived 0 (.pfc 0 [1])).wf = false := by decide
theorem test_wf_frame : (Instr.frameReceived 0 { frame0 with len := 0 }).wf = false := by decide
theorem test_wf_frame_tags : (Instr.frameReceived 0 { frame0 with tags := List.replicate 3 ⟨0x8100, 0, 0⟩ }).wf = false := by decide
theorem test_wf_frame_proto : (Instr.frameReceived 0 { frame0 with proto := .routerAdv (z 4) }).wf = false ∧ (Instr.frameReceived 0 { frame0 with proto := .udp 65536 }).wf = false := by decide
theorem test_wf_measurement : (Instr.clkMeasDone 0x80000000).wf = false := by decide
theorem test_wf_thermal : (Instr.thermalSample 0 (List.replicate 73 0)).wf = false := by decide +kernel
theorem test_wf_phase : (Instr.startUpPhaseDone [true]).wf = false := by decide
theorem test_wf_blocks : (Instr.updVerificationDone [1023]).wf = false ∧ (Instr.updVerificationDone [1022]).wf = true := by decide

-- Check values of the digests (the published ones of CRC-32C, SHA-256 and SipHash-2-4).
theorem test_crc32c : crc32c [0x31, 0x32, 0x33, 0x34, 0x35, 0x36, 0x37, 0x38, 0x39] = 0xE3069283 := by decide +kernel
theorem test_sha256_abc : (sha256 [0x61, 0x62, 0x63]).take 8 = [0xBA, 0x78, 0x16, 0xBF, 0x8F, 0x01, 0xCF, 0xEA] := by decide +kernel
theorem test_siphash : sipHash 0x0F0E0D0C0B0A09080706050403020100 ((List.range 15).map fun i => BitVec.ofNat 8 i) = 0xA129CA6149BE45E5 := by decide +kernel
-- The published examples of the cipher: FIPS 197 C.3, and the first two blocks of vector 10 of IEEE 1619.
theorem test_aes256 : aesBlock (aesWords ((List.range 32).map fun i => BitVec.ofNat 8 i)) ((List.range 16).map fun i => BitVec.ofNat 8 (17 * i)) =
    be 16 0x8EA2B7CA516745BFEAFC49904B496089 := by decide +kernel
theorem test_xts256 : xtsUnit (be 32 0x2718281828459045235360287471352662497757247093699959574966967627 ++
    be 32 0x3141592653589793238462643383279502884197169399375105820974944592) 0xFF ((List.range 32).map fun i => BitVec.ofNat 8 i) =
    be 32 0x1C3B3A102F770386E4836C99E370CF9BEA00803F5E482357A4AE12D414A3E63B := by decide +kernel
/-- NIST SP 800-38F KW: the example of RFC 3394 4.3. -/
theorem test_keyWrap : keyWrap ((List.range 32).map fun i => BitVec.ofNat 8 i) (be 16 0x00112233445566778899AABBCCDDEEFF) =
    be 24 0x64E8C3F9CE0F5BA263E9777905818A2A93C8191E7D6E8AE7 := by decide +kernel

-- The manual's examples.
/-- 02: "cam9" sorts after "cam10". -/
theorem test_key_order : keyLt [0x63, 0x61, 0x6D, 0x31, 0x30] [0x63, 0x61, 0x6D, 0x39] = true := by decide
/-- 01, 06: 4,700 µF holds 2.540 J at 35.0 V and 2.370 J at 34.0 V, after the rounding. -/
theorem test_usable_energy : usableEnergy 4700 3500 = 2540000000 ∧ usableEnergy 4700 3400 = 2370000000 := by decide
/-- 06: INPUT_ILIMIT 2,000 mA at 12 V is 864 tokens. -/
theorem test_ilimit : ilimitTerm 2000 1200 = 864 := by decide
/-- 06 R207: d at 130 °C and 135 °C. -/
theorem test_derating : deratePct 125 = 100 ∧ deratePct 135 = 70 := by decide
/-- 07: row 5 of segment 14,021: data pages 0 and 11 on channels 6 and 17, pages 12 and 15 on channels 0 and 3. -/
theorem test_stripe : let g : Segment := { seg := 14021, stream := 0, chans := 0x3FFFF }
    (g.pageAt (5 * g.rowBytes)).1 = 6 ∧ (g.pageAt (5 * g.rowBytes + 11 * 16384)).1 = 17 ∧ (g.pageAt (5 * g.rowBytes + 12 * 16384)).1 = 0 ∧
    (g.pageAt (5 * g.rowBytes + 15 * 16384)).1 = 3 ∧ segPos 14021 = 1 := by decide +kernel
/-- 07: a 1,000,000-byte value under a 17-byte key spans 1,000,096 bytes. -/
theorem test_span : spanOf 17 1000000 = 1000096 := by decide
/-- 08: it takes 245 cells. -/
theorem test_cells : cellsFor 1000000 = 245 ∧ cellsFor 0 = 1 := by decide
/-- 10: cable_m 100 reserves 293 cells of headroom. -/
theorem test_headroom : headroomOf 100 = 293 := by decide
/-- 00 R18: serial arithmetic. -/
theorem test_earlier : earlier 32 0xFFFFFFFF 0 = true ∧ earlier 32 0 0xFFFFFFFF = false := by decide

-- One step of a command, by what the manual says it answers.
/-- The state a command leads to. -/
def after (i : Instr) (s : State) : State := match exec i s with | .next t => t | _ => State.reset
/-- A field of the completion entry in the side-band response buffer (R85). -/
def rsp (s : State) (off n : Nat) : Nat := unLe (readCells s.mbx.rspBuf off n)

/-- GET returns the value behind the completion and its length in result0 (R92). -/
theorem test_get : let t := after (.get (cpOf wGet)) wGet
    rsp t 2 2 = 0 ∧ rsp t 16 4 = 8 ∧ rsp t 20 4 = 8 ∧ readCells t.mbx.rspBuf 64 8 = val ∧ t.mbx.mbxState = 2 ∧ t.cmds = [] := by decide +kernel
/-- GET of an absent key completes with ST_NOT_FOUND, 0x0201 (R92). -/
theorem test_get_absent : rsp (after (.get (cpOf wGetNo)) wGetNo) 2 2 = 0x0201 := by decide +kernel
/-- A reserved field that is not zero completes with ST_INVALID, 0x0101 (R75). -/
theorem test_get_reserved : rsp (after (.get (cpOf wBad)) wBad) 2 2 = 0x0101 := by decide +kernel
/-- An operator's KS_CREATE completes with ST_DENIED, 0x0502 (R90). -/
theorem test_create_denied : rsp (after .ksCreate wBadSup) 2 2 = 0x0502 := by decide +kernel
/-- EXISTS returns the value length and no payload (R93). -/
theorem test_exists : let t := after (.existsKey (cpOf wEx)) wEx
    rsp t 2 2 = 0 ∧ rsp t 16 8 = 8 ∧ t.mbx.rspLen = 32 := by decide +kernel
/-- KS_CREATE makes the key space. -/
theorem test_create : ((after .ksCreate wCreate).kv.spaces.map fun k => k.ks) = [0, 5] := by decide +kernel
/-- GET_FEATURE PS_CAP answers 4 at reset (R117). -/
theorem test_feature : let s := sup 0x22 [1, 0] 0 0; rsp (after .getFeature s) 2 2 = 0 ∧ rsp (after .getFeature s) 16 8 = 4 := by decide +kernel
/-- SET_FEATURE answers the old value and puts the new one in force. -/
theorem test_set_feature : let s := sup 0x21 ([1, 0] ++ z 6 ++ [2]) 0 0
    rsp (after .setFeature s) 16 8 = 4 ∧ (after .setFeature s).stored.psCap = 2 := by decide +kernel
/-- The doorbell of an empty request buffer with a fitting length admits opcode 0, which no release serves: ST_UNSUPPORTED, 0x0102 (R88). -/
theorem test_doorbell : rsp (after .mbx31Doorbell (mbx31 fun m => { m with reqLen := 64 })) 2 2 = 0x0102 := by decide +kernel
/-- A scratch write is read back; GLB_CAP_UNITS reads 0xFF on the PL7816-TA (R5, R466). -/
theorem test_scratch : ((after (.registerWrite 0x2C 0x12345678) serve).readReg 0x2C).2 = 0x12345678 ∧ (serve.readReg 4).2 = 0xFF := by decide +kernel
/-- VIN_HIGH writes one record of EV_VIN_HIGH, 0x0301, with VIN in p0 (R204). -/
theorem test_vin_high : ((after (.vinHigh 3500) (evr id)).evr.ring.map fun e => (e.code, e.p0)) = [(0x0301, 3500)] := by decide +kernel
/-- The key 0xC5A0 starts a reset of cause 3; another key does nothing (R430). -/
theorem test_soft_reset : (after (.sideBandSoftReset 0xC5A00001) serve).life.closing = some { cause := 3 } ∧
    (after (.sideBandSoftReset 0x00000001) serve).life.closing = none := by decide +kernel
/-- Snapshot: PWR_BUDGET reads the 1,200 tokens of class 3 once latched (R206, R236). -/
theorem test_snapshot : (after .pwrCtrlSnapshot serve).pwr.snap.budget = 1200 ∧ serve.pwr.snap.budget = 0 := by decide +kernel
/-- A DMA pause of an idle channel is complete at once (R288). -/
theorem test_dma_pause : ((after (.dmaPause 0 true) (dmaWith {})).dmaCh 0).st = .paused := by decide +kernel
/-- A linear copy of two bytes moves both (R286). -/
theorem test_dma_copy : let s := (dmaWith dch0).setDram fun d => { d with mem := [(0, 7), (1, 9)] }
    (after (.dmaHandOver 0) s).dram.mem = [(0, 7), (1, 9), (64, 7), (65, 9)] := by decide +kernel
/-- The empty queue's step is 1,000 ns of powered time (log 2). -/
theorem test_tick : (match step State.reset with | .next t => t.life.clock | _ => 0) = 1000 := by decide +kernel
/-- A queued command runs before time moves. -/
theorem test_queue : (match step { serve with pending := [.evrSkippedRead, .statSnap 0] } with | .next t => t.pending | _ => []) = [.statSnap 0] := by decide +kernel

-- Layouts and pads.
/-- 07 R241, the worked example: row 5 of segment 14,021 has its parity on channel 5, filler on channel 4, data pages 0-11 on 6-17 and 12-15 on 0-3. -/
theorem test_row_roles : (List.range 18).map (pageRole 14021 5 (List.range 18)) =
    [.data 12, .data 13, .data 14, .data 15, .filler, .parity] ++ (List.range 12).map PageRole.data := by decide +kernel
/-- 07 R244: a 1,000,000-byte value under a 17-byte key has len_class 1,954. -/
theorem test_len_class : ceilDiv (spanOf 17 1000000) 512 = 1954 := by decide
/-- 07 R243: a header is 64 bytes and starts with the magic, 0xA7C3. -/
theorem test_header : frec0.header.length = 64 ∧ frec0.header.take 2 = [0xC3, 0xA7] := by decide +kernel
/-- 05 R170: a Landing locator has medium code 1, first_cell from bit 44, the cell count from bit 31. -/
theorem test_locator : serve.locBits true (.landing 0 3 2) = 2 ^ 62 + 3 * 2 ^ 44 + 2 * 2 ^ 31 + 1 := by decide +kernel
/-- 10 R330, 15 R476: a trained idle port lights LEDn0; the pad of a lit LED is low, of a dark one released. -/
theorem test_led_pads : linked.ledPad 0 false = .low ∧ serve.ledPad 0 false = .highZ := by decide +kernel
/-- 15 R477: PWRGOOD is high in service and low while the full reset of phase 0 stands. -/
theorem test_power_good : serve.pwrGood = .high ∧ (life fun l => { l with phase := 0 }).pwrGood = .low := by decide +kernel

-- Updates.
/-- 11 R378: step 2 that cannot convert a required record ends the activation: result 5, the target slot rejected. -/
theorem test_hand_over_refused : (let t := after (.activationStepDone ⟨0, false⟩) (wStep 2); (t.upd.state, t.upd.result, t.upd.slotB.state)) = (0, 5, 5) := by
  decide +kernel
/-- 11 R366 rule 5: only the first source of a session is its own. -/
theorem test_own_source : (let u : Update := { State.reset.upd with sources := [⟨1, 0, 5, 9⟩, ⟨4, 0, 0, 0⟩] }
    (u.isFirst ⟨1, 1, 6, 9⟩, u.isFirst ⟨4, 0, 0, 0⟩)) = (true, false) := by decide +kernel
/-- 12 R388: the recovery image writes no journal. -/
theorem test_recovery_no_journal : ((life fun l => { l with recovery := true, phase := 11 }).journal (.dieRetire 0 0) true).jrn.page = [] := by decide +kernel
/-- 14 R439: the PTP servo starts from holdover. -/
theorem test_servo_start : (after .serviceInstant (life fun l => { l with phase := 8, phaseEnded := true })).ptp.holdover = true := by decide +kernel

end Sys2Proof.Tests
end

section
/-! The capability words (00 R3-R6): what the two capability registers of the GLB block read, and that the words fit a register. -/

namespace Sys2Proof.Machine

/-- Both words fit a 32-bit register: a read does not cut them. -/
theorem Part.capUnits_lt (p : Part) : p.capUnits < 2 ^ 32 := by
  cases p <;> decide

theorem Part.capPop_lt (p : Part) : p.capPop < 2 ^ 32 := by
  cases p <;> decide

/-- GLB_CAP_UNITS reads the part's word and changes nothing (00 R6; 15 R466). -/
@[simp] theorem State.readReg_capUnits (s : State) : s.readReg 0x04 = (s, BitVec.ofNat 32 s.part.capUnits) := rfl

/-- GLB_CAP_POP reads the part's word and changes nothing (00 R6; 15 R466). -/
@[simp] theorem State.readReg_capPop (s : State) : s.readReg 0x08 = (s, BitVec.ofNat 32 s.part.capPop) := rfl

/-- Settles O54: the words are the constants of 00 R5, and each register holds its word whole. -/
theorem capabilityWords : Obligations.CapabilityWords := by
  refine ⟨rfl, rfl, rfl, rfl, rfl, rfl, fun s => ⟨?_, ?_⟩⟩
  · rw [State.readReg_capUnits, BitVec.toNat_ofNat, Nat.mod_eq_of_lt s.part.capUnits_lt]
  · rw [State.readReg_capPop, BitVec.toNat_ofNat, Nat.mod_eq_of_lt s.part.capPop_lt]

end Sys2Proof.Machine
end

section
/-! The module's committed capacity (02 R77): what KS_SET_LIMIT does under key space 0xFF, one equation per outcome, and the capacity it starts at. -/

namespace Sys2Proof.Machine

/-- KS_SET_LIMIT in front of the active SUP's mailbox runs its own part once the common checks pass (R88, R109). -/
theorem exec_ksSetLimit_of_supFront {s : State} {c : Cmd} (hfront : s.supFront 0x12 = some c) (hpass : s.precheck c = none) :
    exec .ksSetLimit s = .next (s.ksSetLimit c) :=
  congrArg Host.Outcome.next (State.runSup_front hfront hpass State.ksSetLimit)

/-- A module capacity up to the maximum, with no key limit beside it, is put in force from the command's admission position on (R77). -/
theorem State.ksSetLimit_module_capacity {s : State} {c : Cmd} (hcap : bitOf (c.entry.arg 40 1) 0 = true)
    (hkeys : bitOf (c.entry.arg 40 1) 1 = false) (hks : c.entry.ks = 0xFF) (hle : c.entry.arg 48 8 ≤ s.kv.maxCommitted) :
    s.ksSetLimit c = ((s.setKv fun k => { k with committed := (c.adm, c.entry.arg 48 8) :: k.committed }).reviewCapacity).limitSet
      c (s.committedAt c.adm) s.prism.keyLimit := by
  simp [State.ksSetLimit, hcap, hkeys, hks, Nat.not_lt.mpr hle]

/-- A module capacity above the maximum is refused, whether or not the command names a key limit too (R77). -/
theorem State.ksSetLimit_module_above_maximum {s : State} {c : Cmd} (hcap : bitOf (c.entry.arg 40 1) 0 = true)
    (hks : c.entry.ks = 0xFF) (hlt : s.kv.maxCommitted < c.entry.arg 48 8) : s.ksSetLimit c = s.fail c stInvalid := by
  simp [State.ksSetLimit, hcap, hks, hlt]

/-- A part leaves reset with its whole user capacity committed (R77). -/
theorem State.committedNow_resetOf (p : Part) : (State.resetOf p).committedNow = p.userCap := by
  cases p <;> rfl

/-- Settles O11: KS_SET_LIMIT under key space 0xFF by the two cases of its value against the maximum, and the capacity of the part at reset. -/
theorem committedCapacity : Obligations.CommittedCapacity := by
  refine ⟨?_, ?_, State.committedNow_resetOf .ta16⟩
  · intro s c hfront hpass hcap hkeys hks hle
    rw [exec_ksSetLimit_of_supFront hfront hpass, State.ksSetLimit_module_capacity hcap hkeys hks hle]
  · intro s c hfront hpass hcap hks hlt
    rw [exec_ksSetLimit_of_supFront hfront hpass, State.ksSetLimit_module_above_maximum hcap hks hlt]

end Sys2Proof.Machine
end

section
/-! The Lens cursor (13 R421): the write of the EVR block that parks EVR_CURSOR_LO, and where each cursor action leaves the cursor. -/

namespace Sys2Proof.Machine

/-- While the bus serves the main island, an aligned write to block 4 is a write to the EVR block (R16, R454). -/
theorem State.writeReg_evr_block {s : State} {addr : Nat} (v : Word) (haon : s.life.aonOn = true) (hbus : s.busReady = true)
    (halign : addr % 4 = 0) (hblock : addr / 65536 = 4) : s.writeReg addr v = s.writeEvr (addr % 65536) v := by
  simp [State.writeReg, haon, hbus, halign, hblock]

/-- EVR_CURSOR_LO parks its word: the cursor and the window stay (R421). -/
@[simp] theorem State.writeEvr_cursorLo (s : State) (v : Word) : s.writeEvr 0x08 v = s.setEvr fun r => { r with cursorLo := v } := rfl

@[simp] theorem Recorder.startFill_cursor (r : Recorder) : r.startFill.cursor = r.cursor := rfl

/-- EVR_CURSOR_HI takes the parked low word with it and holds the number within the records there are (R421). -/
theorem evr_cursor_of_evrCursorHiWrite {v : Word} {s t : State} (h : exec (.evrCursorHiWrite v) s = .next t) :
    t.evr.cursor = if v.toNat * 2 ^ 32 + s.evr.cursorLo.toNat < s.evr.oldest then s.evr.oldest
      else if s.evr.next < v.toNat * 2 ^ 32 + s.evr.cursorLo.toNat then s.evr.next else v.toNat * 2 ^ 32 + s.evr.cursorLo.toNat := by
  cases h
  rfl

/-- Settles O45: the low word is parked, the high word's write takes one of its three ranges, and each action of EVR_CTRL writes its own number. -/
theorem theLensCursorMoves : Obligations.TheLensCursorMoves := by
  refine ⟨fun v s haon hbus => ?_, fun v s t h => ?_, fun s => ⟨_, _, _, _, rfl, ?_, rfl, ?_, rfl, ?_, rfl, ?_⟩⟩
  · exact congrArg Host.Outcome.next ((State.writeReg_evr_block v haon hbus rfl rfl).trans (State.writeEvr_cursorLo s v))
  · have hcursor := evr_cursor_of_evrCursorHiWrite h
    refine ⟨fun hbelow => ?_, fun hheld habove => ?_, fun hheld hwithin => ?_⟩
    · rw [hcursor, if_pos hbelow]
    · rw [hcursor, if_neg (Nat.not_lt.mpr hheld), if_pos habove]
    · rw [hcursor, if_neg (Nat.not_lt.mpr hheld), if_neg (Nat.not_lt.mpr hwithin)]
  all_goals rw [State.setEvr_evr, Recorder.startFill_cursor]

end Sys2Proof.Machine
end

section
/-! Folding (13 R413): what an occurrence does to the recorder, by whether it repeats the last record started. -/

namespace Sys2Proof.Machine

/-- An occurrence of `c` from `src` with these parameters is folded into `e`: the record is open, equal in all four, and not full (R413). -/
def Recorder.FoldsInto (r : Recorder) (e : EvRec) (c : EvCode) (src : Nat) (p0 p1 : Word) : Prop :=
  r.openRec = true ∧ e.code = c.1 ∧ e.src = src ∧ e.p0 = p0 ∧ e.p1 = p1 ∧ e.rep < 65535

/-- The record an occurrence starts: numbered next, stamped now, not yet repeated (R410, R412). -/
def State.freshRec (s : State) (c : EvCode) (src p0 p1 : Nat) : EvRec :=
  { seq := s.evr.next, code := c.1, sev := c.2, holdover := s.ptp.holdover, src := src, up := s.uptime, wall := s.wallNs,
    p0 := BitVec.ofNat 32 p0, p1 := BitVec.ofNat 32 p1 }

/-- Folding rewrites the last record and nothing else (R413). -/
theorem Recorder.fold_of_getLast? {r : Recorder} {e : EvRec} (hlast : r.ring.getLast? = some e) (up wall : Nat) (holdover : Bool) :
    r.fold up wall holdover = { r with ring := r.ring.dropLast ++
      [{ e with rep := e.rep + 1, folded := true, up := up, wall := wall, holdover := holdover }] } := by
  simp [Recorder.fold, hlast]

section
variable {s : State} {e : EvRec} {c : EvCode} {src p0 p1 : Nat}

/-- An occurrence that repeats the last record is folded into it (R413). -/
theorem State.logEv_evr_of_foldsInto (hon : s.evr.on = true) (hlast : s.evr.ring.getLast? = some e)
    (hfold : s.evr.FoldsInto e c src (BitVec.ofNat 32 p0) (BitVec.ofNat 32 p1)) :
    (s.logEv c src p0 p1).evr = s.evr.fold s.uptime s.wallNs s.ptp.holdover := by
  obtain ⟨hopen, hcode, hsrc, hp0, hp1, hrep⟩ := hfold
  simp [State.logEv, hon, hlast, hopen, hcode, hsrc, hp0, hp1, hrep]

/-- Any other occurrence starts a record (R413). -/
theorem State.logEv_evr_of_not_foldsInto (hon : s.evr.on = true) (hlast : s.evr.ring.getLast? = some e)
    (hfold : ¬ s.evr.FoldsInto e c src (BitVec.ofNat 32 p0) (BitVec.ofNat 32 p1)) :
    (s.logEv c src p0 p1).evr = s.evr.start (s.freshRec c src p0 p1) s.now := by
  simp only [Recorder.FoldsInto] at hfold
  simp [State.logEv, State.freshRec, hon, hlast, and_assoc, hfold]

end

/-- Settles O47: an equal occurrence is folded, and each way of differing, or a full count, rules the fold out. -/
theorem equalEventsAreFolded : Obligations.EqualEventsAreFolded := by
  refine ⟨fun s c u p0 p1 e hon hlast hopen hcode hsrc hp0 hp1 hrep => ?_, fun s c u p0 p1 e hon hlast hdiffers => ?_⟩
  · rw [State.logEv_evr_of_foldsInto hon hlast ⟨hopen, hcode, hsrc, hp0, hp1, hrep⟩, Recorder.fold_of_getLast? hlast]
  · refine State.logEv_evr_of_not_foldsInto hon hlast fun ⟨hopen, hcode, hsrc, hp0, hp1, hrep⟩ => ?_
    rcases hdiffers with hclosed | hne | hne | hne | hne | hfull
    · exact absurd hopen (Bool.eq_false_iff.mp hclosed)
    · exact hne hcode
    · exact hne hsrc
    · exact hne hp0
    · exact hne hp1
    · exact absurd hrep (Nat.not_lt.mpr hfull)

end Sys2Proof.Machine
end

section
/-! The reach of a command, and what every step keeps: the part, the identity words and the queue's rest, the token balance, the canonical DRAM. -/

namespace Sys2Proof.Machine

/-- Settles O60, by the frame lemma of every command. -/
theorem everyCommandHasItsReach : Obligations.EveryCommandHasItsReach := by
  intro i s t h
  cases i with
  | put cp => exact reach_of_view h (view_execPut cp s (Nat.and_self _)) rfl
  | get cp => exact reach_of_view h (view_execGet cp s (Nat.and_self _)) rfl
  | delete cp => exact reach_of_view h (view_execDelete cp s (Nat.and_self _)) rfl
  | existsKey cp => exact reach_of_view h (view_execExistsKey cp s (Nat.and_self _)) rfl
  | discardRange cp => exact reach_of_view h (view_execDiscardRange cp s (Nat.and_self _)) rfl
  | list cp => exact reach_of_view h (view_execList cp s (Nat.and_self _)) rfl
  | mget cp => exact reach_of_view h (view_execMget cp s (Nat.and_self _)) rfl
  | putPart cp => exact reach_of_view h (view_execPutPart cp s (Nat.and_self _)) rfl
  | flush cp => exact reach_of_view h (view_execFlush cp s (Nat.and_self _)) rfl
  | flushDone adm => exact reach_of_view h (view_execFlushDone adm s (Nat.and_self _)) rfl
  | abort adm => exact reach_of_view h (view_execAbort adm s (Nat.and_self _)) rfl
  | summary => exact reach_of_view h (view_execSummary s (Nat.and_self _)) rfl
  | ksCreate => exact reach_of_view h (view_execKsCreate s (Nat.and_self _)) rfl
  | ksDelete => exact reach_of_view h (view_execKsDelete s (Nat.and_self _)) rfl
  | ksDeleteTakesEffect adm => exact reach_of_view h (view_execKsDeleteTakesEffect adm s (Nat.and_self _)) rfl
  | ksSetLimit => exact reach_of_view h (view_execKsSetLimit s (Nat.and_self _)) rfl
  | format => exact reach_of_view h (view_execFormat s (Nat.and_self _)) rfl
  | sanitize => exact reach_of_view h (view_execSanitize s (Nat.and_self _)) rfl
  | sanitizeDone => exact reach_of_view h (view_execSanitizeDone s (Nat.and_self _)) rfl
  | ident => exact reach_of_view h (view_execIdent s (Nat.and_self _)) rfl
  | setFeature => exact reach_of_view h (view_execSetFeature s (Nat.and_self _)) rfl
  | getFeature => exact reach_of_view h (view_execGetFeature s (Nat.and_self _)) rfl
  | logRead => exact reach_of_view h (view_execLogRead s (Nat.and_self _)) rfl
  | logClear => exact reach_of_view h (view_execLogClear s (Nat.and_self _)) rfl
  | updOffer => exact reach_of_view h (view_execUpdOffer s (Nat.and_self _)) rfl
  | updBlock => exact reach_of_view h (view_execUpdBlock s (Nat.and_self _)) rfl
  | updActivate => exact reach_of_view h (view_execUpdActivate s (Nat.and_self _)) rfl
  | updConfirm => exact reach_of_view h (view_execUpdConfirm s (Nat.and_self _)) rfl
  | attest => exact reach_of_view h (view_execAttest s (Nat.and_self _)) rfl
  | attestSigningDone => exact reach_of_view h (view_execAttestSigningDone s (Nat.and_self _)) rfl
  | certRead => exact reach_of_view h (view_execCertRead s (Nat.and_self _)) rfl
  | pair => exact reach_of_view h (view_execPair s (Nat.and_self _)) rfl
  | unpair => exact reach_of_view h (view_execUnpair s (Nat.and_self _)) rfl
  | setPolicy => exact reach_of_view h (view_execSetPolicy s (Nat.and_self _)) rfl
  | setLag => exact reach_of_view h (view_execSetLag s (Nat.and_self _)) rfl
  | resync => exact reach_of_view h (view_execResync s (Nat.and_self _)) rfl
  | mirrorState => exact reach_of_view h (view_execMirrorState s (Nat.and_self _)) rfl
  | putValueLanded adm => exact reach_of_view h (view_execPutValueLanded adm s (Nat.and_self _)) rfl
  | writeWaitTimeout adm => exact reach_of_view h (view_execWriteWaitTimeout adm s (Nat.and_self _)) rfl
  | writeWaitResume adm => exact reach_of_view h (view_execWriteWaitResume adm s (Nat.and_self _)) rfl
  | assemblyExpiry asm => exact reach_of_view h (view_execAssemblyExpiry asm s (Nat.and_self _)) rfl
  | hello rx dg => exact reach_of_view h (view_execHello rx dg s (Nat.and_self _)) rfl
  | cmd rx dg => exact reach_of_view h (view_execCmd rx dg s (Nat.and_self _)) rfl
  | ack rx dg => exact reach_of_view h (view_execAck rx dg s (Nat.and_self _)) rfl
  | keepalive rx dg => exact reach_of_view h (view_execKeepalive rx dg s (Nat.and_self _)) rfl
  | close rx dg => exact reach_of_view h (view_execClose rx dg s (Nat.and_self _)) rfl
  | closeAck sid => exact reach_of_view h (view_execCloseAck sid s (Nat.and_self _)) rfl
  | sessionFree sid => exact reach_of_view h (view_execSessionFree sid s (Nat.and_self _)) rfl
  | sessionExpiry sid => exact reach_of_view h (view_execSessionExpiry sid s (Nat.and_self _)) rfl
  | heldCmdExpiry sid seq => exact reach_of_view h (view_execHeldCmdExpiry sid seq s (Nat.and_self _)) rfl
  | ipFragment f => exact reach_of_view h (view_execIpFragment f s (Nat.and_self _)) rfl
  | reassemblyTimeout port srcAddr ident => exact reach_of_view h (view_execReassemblyTimeout port srcAddr ident s (Nat.and_self _)) rfl
  | arpNdEchoRequest rx kind len => exact reach_of_view h (view_execArpNdEchoRequest rx kind len s (Nat.and_self _)) rfl
  | connectionReq rx priv => exact reach_of_view h (view_execConnectionReq rx priv s (Nat.and_self _)) rfl
  | doorbell qp offset data => exact reach_of_view h (view_execDoorbell qp offset data s (Nat.and_self _)) rfl
  | entryFetchResponse qp entries => exact reach_of_view h (view_execEntryFetchResponse qp entries s (Nat.and_self _)) rfl
  | payloadFetchResponse adm data => exact reach_of_view h (view_execPayloadFetchResponse adm data s (Nat.and_self _)) rfl
  | completionWrite qp => exact reach_of_view h (view_execCompletionWrite qp s (Nat.and_self _)) rfl
  | notifyTimer qp => exact reach_of_view h (view_execNotifyTimer qp s (Nat.and_self _)) rfl
  | hostDisconnect qp => exact reach_of_view h (view_execHostDisconnect qp s (Nat.and_self _)) rfl
  | connectionFailure qp => exact reach_of_view h (view_execConnectionFailure qp s (Nat.and_self _)) rfl
  | payloadTransferNak adm => exact reach_of_view h (view_execPayloadTransferNak adm s (Nat.and_self _)) rfl
  | queuePairFree qp => exact reach_of_view h (view_execQueuePairFree qp s (Nat.and_self _)) rfl
  | drainPartialRowTimer st => exact reach_of_view h (view_execDrainPartialRowTimer st s (Nat.and_self _)) rfl
  | drainRowProgrammed job => exact reach_of_view h (view_execDrainRowProgrammed job s (Nat.and_self _)) rfl
  | mapRecordDurable jseq => exact reach_of_view h (view_execMapRecordDurable jseq s (Nat.and_self _)) rfl
  | writeThroughDone adm => exact reach_of_view h (view_execWriteThroughDone adm s (Nat.and_self _)) rfl
  | journalPageTimer => exact reach_of_view h (view_execJournalPageTimer s (Nat.and_self _)) rfl
  | journalPageProgrammed => exact reach_of_view h (view_execJournalPageProgrammed s (Nat.and_self _)) rfl
  | checkpointSlice => exact reach_of_view h (view_execCheckpointSlice s (Nat.and_self _)) rfl
  | stashReinsert => exact reach_of_view h (view_execStashReinsert s (Nat.and_self _)) rfl
  | reclaimSweep range => exact reach_of_view h (view_execReclaimSweep range s (Nat.and_self _)) rfl
  | programUnitDone ch pos ok => exact reach_of_view h (view_execProgramUnitDone ch pos ok s (Nat.and_self _)) rfl
  | pageReadDone read o => exact reach_of_view h (view_execPageReadDone read o s (Nat.and_self _)) rfl
  | dieResetRetry ch pos ok => exact reach_of_view h (view_execDieResetRetry ch pos ok s (Nat.and_self _)) rfl
  | channelRetrain ch ok => exact reach_of_view h (view_execChannelRetrain ch ok s (Nat.and_self _)) rfl
  | segmentSeal seg => exact reach_of_view h (view_execSegmentSeal seg s (Nat.and_self _)) rfl
  | gcSourceStart => exact reach_of_view h (view_execGcSourceStart s (Nat.and_self _)) rfl
  | gcRowProgrammed job => exact reach_of_view h (view_execGcRowProgrammed job s (Nat.and_self _)) rfl
  | copyDone seg => exact reach_of_view h (view_execCopyDone seg s (Nat.and_self _)) rfl
  | eraseDone seg failed => exact reach_of_view h (view_execEraseDone seg failed s (Nat.and_self _)) rfl
  | scrubCreditTick => exact reach_of_view h (view_execScrubCreditTick s (Nat.and_self _)) rfl
  | scrubBlock ch pos slot o highErrors => exact reach_of_view h (view_execScrubBlock ch pos slot o highErrors s (Nat.and_self _)) rfl
  | repackStart => exact reach_of_view h (view_execRepackStart s (Nat.and_self _)) rfl
  | dramError ch e => exact reach_of_view h (view_execDramError ch e s (Nat.and_self _)) rfl
  | pwrclsChange pads => exact reach_of_view h (view_execPwrclsChange pads s (Nat.and_self _)) rfl
  | ilimitEvaluation sample => exact reach_of_view h (view_execIlimitEvaluation sample s (Nat.and_self _)) rfl
  | ilimitClamp vin10mV => exact reach_of_view h (view_execIlimitClamp vin10mV s (Nat.and_self _)) rfl
  | vinHigh vin10mV => exact reach_of_view h (view_execVinHigh vin10mV s (Nat.and_self _)) rfl
  | tokenRequest cls tokens => exact reach_of_view h (view_execTokenRequest cls tokens s (Nat.and_self _)) rfl
  | tokenReturn grant => exact reach_of_view h (view_execTokenReturn grant s (Nat.and_self _)) rfl
  | holdVoltageStep v10mV => exact reach_of_view h (view_execHoldVoltageStep v10mV s (Nat.and_self _)) rfl
  | holdVoltageFall v10mV fell10mVIn1s => exact reach_of_view h (view_execHoldVoltageFall v10mV fell10mVIn1s s (Nat.and_self _)) rfl
  | holdAbsentTimeout rise10mV => exact reach_of_view h (view_execHoldAbsentTimeout rise10mV s (Nat.and_self _)) rfl
  | capacitanceMeasurementDue => exact reach_of_view h (view_execCapacitanceMeasurementDue s (Nat.and_self _)) rfl
  | capacitanceMeasurementDone uF ms => exact reach_of_view h (view_execCapacitanceMeasurementDone uF ms s (Nat.and_self _)) rfl
  | measurementRetry => exact reach_of_view h (view_execMeasurementRetry s (Nat.and_self _)) rfl
  | bankRetry => exact reach_of_view h (view_execBankRetry s (Nat.and_self _)) rfl
  | underVoltageTrip => exact reach_of_view h (view_execUnderVoltageTrip s (Nat.and_self _)) rfl
  | holdupDrainEnd => exact reach_of_view h (view_execHoldupDrainEnd s (Nat.and_self _)) rfl
  | holdAt12v => exact reach_of_view h (view_execHoldAt12v s (Nat.and_self _)) rfl
  | restartQualification straps => exact reach_of_view h (view_execRestartQualification straps s (Nat.and_self _)) rfl
  | thermalSample ctrl16 dies16 => exact reach_of_view h (view_execThermalSample ctrl16 dies16 s (Nat.and_self _)) rfl
  | thermalTrip => exact reach_of_view h (view_execThermalTrip s (Nat.and_self _)) rfl
  | psIdleExpiry ps => exact reach_of_view h (view_execPsIdleExpiry ps s (Nat.and_self _)) rfl
  | wakeEvent w => exact reach_of_view h (view_execWakeEvent w s (Nat.and_self _)) rfl
  | powerStateTransitionDone => exact reach_of_view h (view_execPowerStateTransitionDone s (Nat.and_self _)) rfl
  | pwrCtrlSnapshot => exact reach_of_view h (view_execPwrCtrlSnapshot s (Nat.and_self _)) rfl
  | pwrCtrlMeasure => exact reach_of_view h (view_execPwrCtrlMeasure s (Nat.and_self _)) rfl
  | pwrClassWrite v => exact reach_of_view h (view_execPwrClassWrite v s (Nat.and_self _)) rfl
  | pwrIlimitWrite v => exact reach_of_view h (view_execPwrIlimitWrite v s (Nat.and_self _)) rfl
  | registerWrite addr v => exact reach_of_view h (view_execRegisterWrite addr v s (Nat.and_self _)) rfl
  | dmaPause ch on => exact reach_of_view h (view_execDmaPause ch on s (Nat.and_self _)) rfl
  | dmaStop ch => exact reach_of_view h (view_execDmaStop ch s (Nat.and_self _)) rfl
  | dmaShCommit ch => exact reach_of_view h (view_execDmaShCommit ch s (Nat.and_self _)) rfl
  | dmaRetry ch => exact reach_of_view h (view_execDmaRetry ch s (Nat.and_self _)) rfl
  | dmaPauseDrainEnd ch written => exact reach_of_view h (view_execDmaPauseDrainEnd ch written s (Nat.and_self _)) rfl
  | dmaHandOver ch => exact reach_of_view h (view_execDmaHandOver ch s (Nat.and_self _)) rfl
  | dmaError ch err written => exact reach_of_view h (view_execDmaError ch err written s (Nat.and_self _)) rfl
  | mirrorHello rx body => exact reach_of_view h (view_execMirrorHello rx body s (Nat.and_self _)) rfl
  | mirrorHelloAck rx body => exact reach_of_view h (view_execMirrorHelloAck rx body s (Nat.and_self _)) rfl
  | mirrorPut m => exact reach_of_view h (view_execMirrorPut m s (Nat.and_self _)) rfl
  | mirrorDelete m => exact reach_of_view h (view_execMirrorDelete m s (Nat.and_self _)) rfl
  | mirrorRange m => exact reach_of_view h (view_execMirrorRange m s (Nat.and_self _)) rfl
  | mirrorAck m => exact reach_of_view h (view_execMirrorAck m s (Nat.and_self _)) rfl
  | heartbeat m => exact reach_of_view h (view_execHeartbeat m s (Nat.and_self _)) rfl
  | heartbeatSend => exact reach_of_view h (view_execHeartbeatSend s (Nat.and_self _)) rfl
  | mirrorResendTimer => exact reach_of_view h (view_execMirrorResendTimer s (Nat.and_self _)) rfl
  | repairReq m => exact reach_of_view h (view_execRepairReq m s (Nat.and_self _)) rfl
  | repairRsp m => exact reach_of_view h (view_execRepairRsp m s (Nat.and_self _)) rfl
  | repairTimeout read => exact reach_of_view h (view_execRepairTimeout read s (Nat.and_self _)) rfl
  | ksCfg m => exact reach_of_view h (view_execKsCfg m s (Nat.and_self _)) rfl
  | syncMark m => exact reach_of_view h (view_execSyncMark m s (Nat.and_self _)) rfl
  | refuse m => exact reach_of_view h (view_execRefuse m s (Nat.and_self _)) rfl
  | refusedProbe ks => exact reach_of_view h (view_execRefusedProbe ks s (Nat.and_self _)) rfl
  | mirrorClose m => exact reach_of_view h (view_execMirrorClose m s (Nat.and_self _)) rfl
  | peerLost => exact reach_of_view h (view_execPeerLost s (Nat.and_self _)) rfl
  | mirrorMarkStore => exact reach_of_view h (view_execMirrorMarkStore s (Nat.and_self _)) rfl
  | deltaResyncStart => exact reach_of_view h (view_execDeltaResyncStart s (Nat.and_self _)) rfl
  | linkUp port l => exact reach_of_view h (view_execLinkUp port l s (Nat.and_self _)) rfl
  | linkDown port => exact reach_of_view h (view_execLinkDown port s (Nat.and_self _)) rfl
  | trainingFailure port rate => exact reach_of_view h (view_execTrainingFailure port rate s (Nat.and_self _)) rfl
  | fastRetrain port => exact reach_of_view h (view_execFastRetrain port s (Nat.and_self _)) rfl
  | portReset port selfTestOk => exact reach_of_view h (view_execPortReset port selfTestOk s (Nat.and_self _)) rfl
  | statSnap port => exact reach_of_view h (view_execStatSnap port s (Nat.and_self _)) rfl
  | renegotiate port => exact reach_of_view h (view_execRenegotiate port s (Nat.and_self _)) rfl
  | macnFcCfgWrite port v => exact reach_of_view h (view_execMacnFcCfgWrite port v s (Nat.and_self _)) rfl
  | trafficSample s0 s1 => exact reach_of_view h (view_execTrafficSample s0 s1 s (Nat.and_self _)) rfl
  | frameReceived port f => exact reach_of_view h (view_execFrameReceived port f s (Nat.and_self _)) rfl
  | xon port => exact reach_of_view h (view_execXon port s (Nat.and_self _)) rfl
  | pauseRefresh port => exact reach_of_view h (view_execPauseRefresh port s (Nat.and_self _)) rfl
  | pauseFrameReceived port f => exact reach_of_view h (view_execPauseFrameReceived port f s (Nat.and_self _)) rfl
  | pauseExpiry port tc => exact reach_of_view h (view_execPauseExpiry port tc s (Nat.and_self _)) rfl
  | pauseWdog port tc => exact reach_of_view h (view_execPauseWdog port tc s (Nat.and_self _)) rfl
  | pauseWdogBreakEnd port tc => exact reach_of_view h (view_execPauseWdogBreakEnd port tc s (Nat.and_self _)) rfl
  | frameTransmitStart port => exact reach_of_view h (view_execFrameTransmitStart port s (Nat.and_self _)) rfl
  | tasConfigChange port => exact reach_of_view h (view_execTasConfigChange port s (Nat.and_self _)) rfl
  | tasSwap port => exact reach_of_view h (view_execTasSwap port s (Nat.and_self _)) rfl
  | gateEntryAdvance port => exact reach_of_view h (view_execGateEntryAdvance port s (Nat.and_self _)) rfl
  | tasEnableWrite port v => exact reach_of_view h (view_execTasEnableWrite port v s (Nat.and_self _)) rfl
  | ptpEventMessage m => exact reach_of_view h (view_execPtpEventMessage m s (Nat.and_self _)) rfl
  | ptpHoldover => exact reach_of_view h (view_execPtpHoldover s (Nat.and_self _)) rfl
  | ppsInEdge => exact reach_of_view h (view_execPpsInEdge s (Nat.and_self _)) rfl
  | ppsOutEdge => exact reach_of_view h (view_execPpsOutEdge s (Nat.and_self _)) rfl
  | ptpCtrlStep => exact reach_of_view h (view_execPtpCtrlStep s (Nat.and_self _)) rfl
  | ptpTimeNsRead => exact reach_of_view h (view_execPtpTimeNsRead s (Nat.and_self _)) rfl
  | ptpPpsInNsRead => exact reach_of_view h (view_execPtpPpsInNsRead s (Nat.and_self _)) rfl
  | ptpTsqData0Read q => exact reach_of_view h (view_execPtpTsqData0Read q s (Nat.and_self _)) rfl
  | updVerificationDone badBlocks => exact reach_of_view h (view_execUpdVerificationDone badBlocks s (Nat.and_self _)) rfl
  | partialBlockTimeout => exact reach_of_view h (view_execPartialBlockTimeout s (Nat.and_self _)) rfl
  | updSessionAbandon => exact reach_of_view h (view_execUpdSessionAbandon s (Nat.and_self _)) rfl
  | cfForwardRetry => exact reach_of_view h (view_execCfForwardRetry s (Nat.and_self _)) rfl
  | selfActivation => exact reach_of_view h (view_execSelfActivation s (Nat.and_self _)) rfl
  | activationStepDone e => exact reach_of_view h (view_execActivationStepDone e s (Nat.and_self _)) rfl
  | selfTestPass => exact reach_of_view h (view_execSelfTestPass s (Nat.and_self _)) rfl
  | confirmTimeout => exact reach_of_view h (view_execConfirmTimeout s (Nat.and_self _)) rfl
  | authRefusalEnd addr => exact reach_of_view h (view_execAuthRefusalEnd addr s (Nat.and_self _)) rfl
  | evrFlashCopy => exact reach_of_view h (view_execEvrFlashCopy s (Nat.and_self _)) rfl
  | evrCursorHiWrite v => exact reach_of_view h (view_execEvrCursorHiWrite v s (Nat.and_self _)) rfl
  | evrAdvance => exact reach_of_view h (view_execEvrAdvance s (Nat.and_self _)) rfl
  | evrRefresh => exact reach_of_view h (view_execEvrRefresh s (Nat.and_self _)) rfl
  | evrToOldest => exact reach_of_view h (view_execEvrToOldest s (Nat.and_self _)) rfl
  | evrToNewest => exact reach_of_view h (view_execEvrToNewest s (Nat.and_self _)) rfl
  | evrClear => exact reach_of_view h (view_execEvrClear s (Nat.and_self _)) rfl
  | lensFillDone => exact reach_of_view h (view_execLensFillDone s (Nat.and_self _)) rfl
  | evrSkippedRead => exact reach_of_view h (view_execEvrSkippedRead s (Nat.and_self _)) rfl
  | evrNewestLoRead => exact reach_of_view h (view_execEvrNewestLoRead s (Nat.and_self _)) rfl
  | evrOldestLoRead => exact reach_of_view h (view_execEvrOldestLoRead s (Nat.and_self _)) rfl
  | evrMemFault flashRing bank => exact reach_of_view h (view_execEvrMemFault flashRing bank s (Nat.and_self _)) rfl
  | resetPin => exact reach_of_view h (view_execResetPin s (Nat.and_self _)) rfl
  | sideBandSoftReset v => exact reach_of_view h (view_execSideBandSoftReset v s (Nat.and_self _)) rfl
  | resetCloseDone ended => exact reach_of_view h (view_execResetCloseDone ended s (Nat.and_self _)) rfl
  | referenceLoss => exact reach_of_view h (view_execReferenceLoss s (Nat.and_self _)) rfl
  | cpWatchdog cp => exact reach_of_view h (view_execCpWatchdog cp s (Nat.and_self _)) rfl
  | engineWatchdog e => exact reach_of_view h (view_execEngineWatchdog e s (Nat.and_self _)) rfl
  | supLockstepFailure sup => exact reach_of_view h (view_execSupLockstepFailure sup s (Nat.and_self _)) rfl
  | ledgerFault l => exact reach_of_view h (view_execLedgerFault l s (Nat.and_self _)) rfl
  | serviceResetEnd => exact reach_of_view h (view_execServiceResetEnd s (Nat.and_self _)) rfl
  | serviceResetTimeout => exact reach_of_view h (view_execServiceResetTimeout s (Nat.and_self _)) rfl
  | startUpPhaseDone verified => exact reach_of_view h (view_execStartUpPhaseDone verified s (Nat.and_self _)) rfl
  | serviceInstant => exact reach_of_view h (view_execServiceInstant s (Nat.and_self _)) rfl
  | mbx31Doorbell => exact reach_of_view h (view_execMbx31Doorbell s (Nat.and_self _)) rfl
  | mbx31Cancel => exact reach_of_view h (view_execMbx31Cancel s (Nat.and_self _)) rfl
  | spiWrite addr data => exact reach_of_view h (view_execSpiWrite addr data s (Nat.and_self _)) rfl
  | spiRead addr words waitBytes => exact reach_of_view h (view_execSpiRead addr words waitBytes s (Nat.and_self _)) rfl
  | spiStatus => exact reach_of_view h (view_execSpiStatus s (Nat.and_self _)) rfl
  | i2cWrite dev addr data => exact reach_of_view h (view_execI2cWrite dev addr data s (Nat.and_self _)) rfl
  | i2cRead dev addr words => exact reach_of_view h (view_execI2cRead dev addr words s (Nat.and_self _)) rfl
  | i2cSclTimeout => exact reach_of_view h (view_execI2cSclTimeout s (Nat.and_self _)) rfl
  | postedWriteApply => exact reach_of_view h (view_execPostedWriteApply s (Nat.and_self _)) rfl
  | clkMeasSelWrite v => exact reach_of_view h (view_execClkMeasSelWrite v s (Nat.and_self _)) rfl
  | clkMeasDone kHz => exact reach_of_view h (view_execClkMeasDone kHz s (Nat.and_self _)) rfl
  | cfForwardResponse a => exact reach_of_view h (view_execCfForwardResponse a s (Nat.and_self _)) rfl
  | lowPowerIdle port => exact reach_of_view h (view_execLowPowerIdle port s (Nat.and_self _)) rfl
  | holdupChargeTimeout => exact reach_of_view h (view_execHoldupChargeTimeout s (Nat.and_self _)) rfl
  | attestBusyTimeout adm => exact reach_of_view h (view_execAttestBusyTimeout adm s (Nat.and_self _)) rfl
  | delayReqTimer port => exact reach_of_view h (view_execDelayReqTimer port s (Nat.and_self _)) rfl
  | ppsOutFall => exact reach_of_view h (view_execPpsOutFall s (Nat.and_self _)) rfl
  | resetRelease straps => exact reach_of_view h (view_execResetRelease straps s (Nat.and_self _)) rfl
  | localAckTimeout qp => exact reach_of_view h (view_execLocalAckTimeout qp s (Nat.and_self _)) rfl
  | ptpCfgWrite v => exact reach_of_view h (view_execPtpCfgWrite v s (Nat.and_self _)) rfl

/-- A step on an empty queue is a tick; on any other it runs the front command on the queue's rest (log 2). -/
theorem step_eq_next_cases {s t : State} (h : step s = .next t) :
    (s.pending = [] ∧ t = s.tick) ∨ ∃ i rest, s.pending = i :: rest ∧ exec i { s with pending := rest } = .next t := by
  unfold step at h
  split at h
  next hq => exact .inl ⟨hq, (Host.Outcome.next.inj h).symm⟩
  next i rest hq => exact .inr ⟨i, rest, hq, h⟩

/-- No command reaches the part, its identity words, the queue or the powered time. -/
theorem reach_spares (i : Instr) :
    .part ∉ Safety.reach i ∧ .ident ∉ Safety.reach i ∧ .pending ∉ Safety.reach i ∧ .clock ∉ Safety.reach i := by
  cases i <;> exact ⟨by simp [Safety.reach], by simp [Safety.reach], by simp [Safety.reach], by simp [Safety.reach]⟩

/-- Behind the clock, no part of a tick moves powered time. -/
theorem State.tickParts_clock (s : State) :
    (((((((s.tickPtp).tickPort 0).tickPort 1).tickStamps).tickUnits).tickDma).tickIdle).life.clock = s.life.clock := by
  have hview : view 167772152 ((((((s.tickPtp).tickPort 0).tickPort 1).tickStamps).tickUnits).tickDma).tickIdle = view 167772152 s := by
    rw [view_tickIdle _ (by decide), view_tickDma _ (by decide), view_tickUnits _ (by decide), view_tickStamps _ (by decide),
      view_tickPort _ _ (by decide), view_tickPort _ _ (by decide), view_tickPtp _ (by decide)]
  exact of_view_clock hview (by decide)

/-- A tick moves powered time by its 1,000 ns while the AON island is on, and not otherwise (log 2). -/
theorem State.tick_clock (s : State) : s.tick.life.clock = if s.life.aonOn = true then s.life.clock + 1000 else s.life.clock := by
  cases haon : s.life.aonOn with
  | false => simp [State.tick, haon]
  | true =>
    simp only [State.tick, haon, Bool.not_true, Bool.false_eq_true, if_false, if_true]
    split
    · rfl
    · rw [State.tickParts_clock]
      rfl

/-- Settles O50: a tick by its frame and its clock, a command by its reach. -/
theorem everyStepKeepsIdentityQueueAndTime : Obligations.EveryStepKeepsIdentityQueueAndTime := by
  intro s t h
  rcases step_eq_next_cases h with ⟨hq, rfl⟩ | ⟨i, rest, hq, hexec⟩
  · have hview : view 234881016 s.tick = view 234881016 s := view_tick s (by decide)
    exact ⟨of_view_part hview (by decide), of_view_ident hview (by decide), by rw [of_view_pending hview (by decide), hq]; rfl,
      by simp [State.tick_clock, hq]⟩
  · have hreach := everyCommandHasItsReach i _ t hexec
    obtain ⟨hpart, hident, hpending, hclock⟩ := reach_spares i
    refine ⟨hreach _ hpart, hreach _ hident, by rw [hq]; exact hreach _ hpending, ?_⟩
    rw [if_neg fun hempty => by simp [hq] at hempty]
    exact hreach _ hclock

/-- A command that does not reach the power arbiter keeps its token balance. -/
theorem tokOk_exec_of_not_mem {i : Instr} {s t : State} (hpwr : .pwr ∉ Safety.reach i) (hexec : exec i s = .next t)
    (h : tokOk (view 268402687 s)) : tokOk (view 268402687 (outState (exec i s) s)) := by
  have hsame : t.pwr = s.pwr := everyCommandHasItsReach i s t hexec _ hpwr
  rw [hexec, outState_next]
  show t.pwr.granted + t.pwr.free = t.pwr.budget
  rw [hsame]
  exact h

/-- Every command keeps the token balance: its own lemma where it reaches the power arbiter. -/
theorem tokOk_exec {i : Instr} {s t : State} (hexec : exec i s = .next t) (h : tokOk (view 268402687 s)) : tokOk (view 268402687 t) := by
  rw [← outState_next t s, ← hexec]
  cases i with
  | put cp => exact tok_execPut cp s h
  | get cp => exact tok_execGet cp s h
  | delete cp => exact tok_execDelete cp s h
  | existsKey cp => exact tok_execExistsKey cp s h
  | discardRange cp => exact tok_execDiscardRange cp s h
  | list cp => exact tok_execList cp s h
  | mget cp => exact tok_execMget cp s h
  | putPart cp => exact tok_execPutPart cp s h
  | flush cp => exact tok_execFlush cp s h
  | abort adm => exact tok_execAbort adm s h
  | ksCreate => exact tok_execKsCreate s h
  | ksDeleteTakesEffect adm => exact tok_execKsDeleteTakesEffect adm s h
  | format => exact tok_execFormat s h
  | sanitize => exact tok_execSanitize s h
  | sanitizeDone => exact tok_execSanitizeDone s h
  | setFeature => exact tok_execSetFeature s h
  | updBlock => exact tok_execUpdBlock s h
  | updActivate => exact tok_execUpdActivate s h
  | attest => exact tok_execAttest s h
  | attestSigningDone => exact tok_execAttestSigningDone s h
  | resync => exact tok_execResync s h
  | putValueLanded adm => exact tok_execPutValueLanded adm s h
  | writeWaitResume adm => exact tok_execWriteWaitResume adm s h
  | cmd rx dg => exact tok_execCmd rx dg s h
  | arpNdEchoRequest rx kind len => exact tok_execArpNdEchoRequest rx kind len s h
  | doorbell qp offset data => exact tok_execDoorbell qp offset data s h
  | entryFetchResponse qp entries => exact tok_execEntryFetchResponse qp entries s h
  | hostDisconnect qp => exact tok_execHostDisconnect qp s h
  | connectionFailure qp => exact tok_execConnectionFailure qp s h
  | payloadTransferNak adm => exact tok_execPayloadTransferNak adm s h
  | drainPartialRowTimer st => exact tok_execDrainPartialRowTimer st s h
  | drainRowProgrammed job => exact tok_execDrainRowProgrammed job s h
  | mapRecordDurable jseq => exact tok_execMapRecordDurable jseq s h
  | writeThroughDone adm => exact tok_execWriteThroughDone adm s h
  | journalPageTimer => exact tok_execJournalPageTimer s h
  | journalPageProgrammed => exact tok_execJournalPageProgrammed s h
  | checkpointSlice => exact tok_execCheckpointSlice s h
  | reclaimSweep range => exact tok_execReclaimSweep range s h
  | programUnitDone ch pos ok => exact tok_execProgramUnitDone ch pos ok s h
  | pageReadDone read o => exact tok_execPageReadDone read o s h
  | dieResetRetry ch pos ok => exact tok_execDieResetRetry ch pos ok s h
  | channelRetrain ch ok => exact tok_execChannelRetrain ch ok s h
  | segmentSeal seg => exact tok_execSegmentSeal seg s h
  | gcSourceStart => exact tok_execGcSourceStart s h
  | gcRowProgrammed job => exact tok_execGcRowProgrammed job s h
  | copyDone seg => exact tok_execCopyDone seg s h
  | eraseDone seg failed => exact tok_execEraseDone seg failed s h
  | scrubBlock ch pos slot o highErrors => exact tok_execScrubBlock ch pos slot o highErrors s h
  | dramError ch e => exact tok_execDramError ch e s h
  | pwrclsChange pads => exact tok_execPwrclsChange pads s h
  | ilimitEvaluation sample => exact tok_execIlimitEvaluation sample s h
  | ilimitClamp vin10mV => exact tok_execIlimitClamp vin10mV s h
  | tokenRequest cls tokens => exact tok_execTokenRequest cls tokens s h
  | tokenReturn grant => exact tok_execTokenReturn grant s h
  | holdVoltageStep v10mV => exact tok_execHoldVoltageStep v10mV s h
  | holdVoltageFall v10mV fell10mVIn1s => exact tok_execHoldVoltageFall v10mV fell10mVIn1s s h
  | holdAbsentTimeout rise10mV => exact tok_execHoldAbsentTimeout rise10mV s h
  | capacitanceMeasurementDue => exact tok_execCapacitanceMeasurementDue s h
  | capacitanceMeasurementDone uF ms => exact tok_execCapacitanceMeasurementDone uF ms s h
  | measurementRetry => exact tok_execMeasurementRetry s h
  | bankRetry => exact tok_execBankRetry s h
  | underVoltageTrip => exact tok_execUnderVoltageTrip s h
  | holdupDrainEnd => exact tok_execHoldupDrainEnd s h
  | holdAt12v => exact tok_execHoldAt12v s h
  | restartQualification straps => exact tok_execRestartQualification straps s h
  | thermalSample ctrl16 dies16 => exact tok_execThermalSample ctrl16 dies16 s h
  | thermalTrip => exact tok_execThermalTrip s h
  | psIdleExpiry ps => exact tok_execPsIdleExpiry ps s h
  | wakeEvent w => exact tok_execWakeEvent w s h
  | powerStateTransitionDone => exact tok_execPowerStateTransitionDone s h
  | pwrCtrlSnapshot => exact tok_execPwrCtrlSnapshot s h
  | pwrCtrlMeasure => exact tok_execPwrCtrlMeasure s h
  | pwrClassWrite v => exact tok_execPwrClassWrite v s h
  | pwrIlimitWrite v => exact tok_execPwrIlimitWrite v s h
  | registerWrite addr v => exact tok_execRegisterWrite addr v s h
  | dmaError ch err written => exact tok_execDmaError ch err written s h
  | mirrorHelloAck rx body => exact tok_execMirrorHelloAck rx body s h
  | mirrorPut m => exact tok_execMirrorPut m s h
  | mirrorDelete m => exact tok_execMirrorDelete m s h
  | mirrorRange m => exact tok_execMirrorRange m s h
  | mirrorAck m => exact tok_execMirrorAck m s h
  | heartbeat m => exact tok_execHeartbeat m s h
  | heartbeatSend => exact tok_execHeartbeatSend s h
  | repairReq m => exact tok_execRepairReq m s h
  | repairRsp m => exact tok_execRepairRsp m s h
  | repairTimeout read => exact tok_execRepairTimeout read s h
  | ksCfg m => exact tok_execKsCfg m s h
  | syncMark m => exact tok_execSyncMark m s h
  | refuse m => exact tok_execRefuse m s h
  | refusedProbe ks => exact tok_execRefusedProbe ks s h
  | mirrorClose m => exact tok_execMirrorClose m s h
  | deltaResyncStart => exact tok_execDeltaResyncStart s h
  | linkUp port l => exact tok_execLinkUp port l s h
  | linkDown port => exact tok_execLinkDown port s h
  | trainingFailure port rate => exact tok_execTrainingFailure port rate s h
  | portReset port selfTestOk => exact tok_execPortReset port selfTestOk s h
  | renegotiate port => exact tok_execRenegotiate port s h
  | macnFcCfgWrite port v => exact tok_execMacnFcCfgWrite port v s h
  | trafficSample s0 s1 => exact tok_execTrafficSample s0 s1 s h
  | frameReceived port f => exact tok_execFrameReceived port f s h
  | updVerificationDone badBlocks => exact tok_execUpdVerificationDone badBlocks s h
  | selfActivation => exact tok_execSelfActivation s h
  | activationStepDone e => exact tok_execActivationStepDone e s h
  | confirmTimeout => exact tok_execConfirmTimeout s h
  | evrFlashCopy => exact tok_execEvrFlashCopy s h
  | evrMemFault flashRing bank => exact tok_execEvrMemFault flashRing bank s h
  | resetPin => exact tok_execResetPin s h
  | sideBandSoftReset v => exact tok_execSideBandSoftReset v s h
  | resetCloseDone ended => exact tok_execResetCloseDone ended s h
  | referenceLoss => exact tok_execReferenceLoss s h
  | cpWatchdog cp => exact tok_execCpWatchdog cp s h
  | engineWatchdog e => exact tok_execEngineWatchdog e s h
  | supLockstepFailure sup => exact tok_execSupLockstepFailure sup s h
  | ledgerFault l => exact tok_execLedgerFault l s h
  | serviceResetEnd => exact tok_execServiceResetEnd s h
  | serviceResetTimeout => exact tok_execServiceResetTimeout s h
  | startUpPhaseDone verified => exact tok_execStartUpPhaseDone verified s h
  | mbx31Doorbell => exact tok_execMbx31Doorbell s h
  | mbx31Cancel => exact tok_execMbx31Cancel s h
  | spiWrite addr data => exact tok_execSpiWrite addr data s h
  | spiRead addr words waitBytes => exact tok_execSpiRead addr words waitBytes s h
  | i2cWrite dev addr data => exact tok_execI2cWrite dev addr data s h
  | i2cRead dev addr words => exact tok_execI2cRead dev addr words s h
  | postedWriteApply => exact tok_execPostedWriteApply s h
  | cfForwardResponse a => exact tok_execCfForwardResponse a s h
  | holdupChargeTimeout => exact tok_execHoldupChargeTimeout s h
  | attestBusyTimeout adm => exact tok_execAttestBusyTimeout adm s h
  | resetRelease straps => exact tok_execResetRelease straps s h
  | localAckTimeout qp => exact tok_execLocalAckTimeout qp s h
  | _ => exact tokOk_exec_of_not_mem (by simp [Safety.reach]) hexec h

/-- Settles O51: a tick and every command keep the balance. -/
theorem everyStepBalancesTheTokens : Obligations.EveryStepBalancesTheTokens := by
  intro s t hbalance h
  rcases step_eq_next_cases h with ⟨_, rfl⟩ | ⟨i, rest, _, hexec⟩
  · exact tok_tick s hbalance
  · exact tokOk_exec hexec hbalance

/-- A command that does not reach the DRAM keeps its byte memories. -/
theorem dramOk_exec_of_not_mem {i : Instr} {s t : State} (hdram : .dram ∉ Safety.reach i) (hexec : exec i s = .next t)
    (h : dramOk (view 268427263 s)) : dramOk (view 268427263 (outState (exec i s) s)) := by
  have hsame : t.dram = s.dram := everyCommandHasItsReach i s t hexec _ hdram
  rw [hexec, outState_next]
  rw [dramOk_view, dramOk, hsame]
  exact h

/-- Every command keeps the canonical form of the DRAM: its own lemma where it reaches the DRAM. -/
theorem dramOk_exec {i : Instr} {s t : State} (hexec : exec i s = .next t) (h : dramOk (view 268427263 s)) : dramOk (view 268427263 t) := by
  rw [← outState_next t s, ← hexec]
  cases i with
  | format => exact dram_execFormat s h
  | sanitize => exact dram_execSanitize s h
  | sanitizeDone => exact dram_execSanitizeDone s h
  | updActivate => exact dram_execUpdActivate s h
  | dramError ch e => exact dram_execDramError ch e s h
  | restartQualification straps => exact dram_execRestartQualification straps s h
  | registerWrite addr v => exact dram_execRegisterWrite addr v s h
  | dmaPauseDrainEnd ch written => exact dram_execDmaPauseDrainEnd ch written s h
  | dmaHandOver ch => exact dram_execDmaHandOver ch s h
  | dmaError ch err written => exact dram_execDmaError ch err written s h
  | updVerificationDone badBlocks => exact dram_execUpdVerificationDone badBlocks s h
  | selfActivation => exact dram_execSelfActivation s h
  | confirmTimeout => exact dram_execConfirmTimeout s h
  | resetPin => exact dram_execResetPin s h
  | sideBandSoftReset v => exact dram_execSideBandSoftReset v s h
  | resetCloseDone ended => exact dram_execResetCloseDone ended s h
  | referenceLoss => exact dram_execReferenceLoss s h
  | cpWatchdog cp => exact dram_execCpWatchdog cp s h
  | engineWatchdog e => exact dram_execEngineWatchdog e s h
  | supLockstepFailure sup => exact dram_execSupLockstepFailure sup s h
  | ledgerFault l => exact dram_execLedgerFault l s h
  | serviceResetTimeout => exact dram_execServiceResetTimeout s h
  | startUpPhaseDone verified => exact dram_execStartUpPhaseDone verified s h
  | spiWrite addr data => exact dram_execSpiWrite addr data s h
  | spiRead addr words waitBytes => exact dram_execSpiRead addr words waitBytes s h
  | i2cWrite dev addr data => exact dram_execI2cWrite dev addr data s h
  | i2cRead dev addr words => exact dram_execI2cRead dev addr words s h
  | postedWriteApply => exact dram_execPostedWriteApply s h
  | resetRelease straps => exact dram_execResetRelease straps s h
  | _ => exact dramOk_exec_of_not_mem (by simp [Safety.reach]) hexec h

/-- Settles O52: a tick and every command keep the canonical form. -/
theorem everyStepKeepsTheDramCanonical : Obligations.EveryStepKeepsTheDramCanonical := by
  intro s t hmem hsram h
  rcases step_eq_next_cases h with ⟨_, rfl⟩ | ⟨i, rest, _, hexec⟩
  · exact dram_tick s ⟨hmem, hsram⟩
  · exact dramOk_exec hexec ⟨hmem, hsram⟩

end Sys2Proof.Machine
end

section
/-! What holds of commands before and behind their own rows: no mailbox runs out of service, checks come first, a completion retires its command. -/

namespace Sys2Proof.Machine

/-- Out of service no CP's mailbox has its turn (14 R434). -/
theorem State.frontOf_of_not_running {s : State} (h : s.running = false) (cp op : Nat) : s.frontOf cp op = none := by
  unfold State.frontOf
  split
  · rfl
  · split <;> simp [h]

/-- Nor has the active SUP's. -/
theorem State.supFront_of_not_running {s : State} (h : s.running = false) (op : Nat) : s.supFront op = none := by
  unfold State.supFront
  split
  · rfl
  · split <;> simp [h]

theorem State.runFront_of_not_running {s : State} (h : s.running = false) (cp op : Nat) (f : State → Cmd → State) : s.runFront cp op f = s :=
  State.runFront_none (State.frontOf_of_not_running h cp op) f

theorem State.runSup_of_not_running {s : State} (h : s.running = false) (op : Nat) (f : State → Cmd → State) : s.runSup op f = s :=
  State.runSup_none (State.supFront_of_not_running h op) f

theorem State.runCfg_of_not_running {s : State} (h : s.running = false) (sel : Nat → Bool) (f : State → Cmd → State) : s.runCfg sel f = s := by
  simp [State.runCfg, State.supFront_of_not_running h]

/-- Settles O55: every command of a mailbox goes through the front of its mailbox, which is empty out of service. -/
theorem nothingRunsOutOfService : Obligations.NothingRunsOutOfService := by
  intro s c h hc
  simp only [List.mem_cons, List.not_mem_nil, or_false] at hc
  rcases hc with ⟨cp, hc⟩ | hc
  · rcases hc with rfl | rfl | rfl | rfl | rfl | rfl | rfl | rfl | rfl
    all_goals simp only [exec, execPut, execGet, execDelete, execExistsKey, execDiscardRange, execList, execMget, execPutPart, execFlush,
      State.runFront_of_not_running h]
  · rcases hc with rfl | rfl | rfl | rfl | rfl | rfl | rfl | rfl | rfl | rfl | rfl | rfl | rfl | rfl | rfl | rfl | rfl | rfl | rfl | rfl | rfl | rfl | rfl
    all_goals simp only [exec, execSummary, execKsCreate, execKsDelete, execKsSetLimit, execFormat, execSanitize, execIdent, execSetFeature, execGetFeature,
      execLogRead, execLogClear, execUpdOffer, execUpdBlock, execUpdActivate, execUpdConfirm, execAttest, execCertRead, execPair, execUnpair, execSetPolicy,
      execSetLag, execResync, execMirrorState, State.runSup_of_not_running h, State.runCfg_of_not_running h]

/-- A command that fails a check of the ordered list completes with that check's status. -/
theorem State.checked_of_fail {s : State} {c : Cmd} {st : Status} (hfail : s.precheck c = some st) (f : State → Cmd → State) :
    s.checked c f = s.fail c st := by
  simp [State.checked, hfail]

/-- The front command of the active SUP's mailbox that fails a check completes with that check's status. -/
theorem State.runSup_fail {s : State} {op : Nat} {c : Cmd} {st : Status} (hfront : s.supFront op = some c) (hfail : s.precheck c = some st)
    (f : State → Cmd → State) : s.runSup op f = s.fail c st := by
  simp [State.runSup, hfront, State.checked_of_fail hfail]

/-- A refused command lacks no payload. -/
theorem State.lacksPayload_of_fail {s : State} {c : Cmd} {st : Status} (hfail : s.precheck c = some st) : s.lacksPayload c = false := by
  simp [State.lacksPayload, hfail]

/-- A check made after admission comes ahead of the others. -/
theorem State.precheck_of_admissionStatus {s : State} {c : Cmd} {st : Status} (h : s.admissionStatus c = some st) : s.precheck c = some st := by
  simp [State.precheck, h]

/-- Settles O56: the front command by the runner of its mailbox, and checks a to c in the order they are made. -/
theorem checksComeFirst : Obligations.ChecksComeFirst := by
  refine ⟨fun s cp c st i op hi hfront hpayload hfail => ?_, fun s c st i op hi hfront hfail => ?_,
    fun s c => ⟨fun hop => ?_, fun hop hmode hsan hserved => ?_, fun hop hmode hsan hdenied => ?_⟩⟩
  · simp only [List.mem_cons, Prod.mk.injEq, List.not_mem_nil, or_false] at hi
    rcases hi with ⟨rfl, rfl⟩ | ⟨rfl, rfl⟩ | ⟨rfl, rfl⟩ | ⟨rfl, rfl⟩ | ⟨rfl, rfl⟩ | ⟨rfl, rfl⟩ | ⟨rfl, rfl⟩ | ⟨rfl, rfl⟩ | ⟨rfl, rfl⟩
    case inr.inr.inr.inr.inl =>
      obtain ⟨p, hcame⟩ := Option.isSome_iff_exists.mp (hpayload rfl)
      simp [exec, execDiscardRange, State.runFront_front hfront, hcame, State.checked_of_fail hfail]
    all_goals simp [exec, execPut, execGet, execDelete, execExistsKey, execList, execMget, execPutPart, execFlush, State.runFront_front hfront,
      State.checked_of_fail hfail, State.lacksPayload_of_fail hfail, hfail]
  · simp only [List.mem_cons, Prod.mk.injEq, List.not_mem_nil, or_false] at hi
    rcases hi with ⟨rfl, rfl⟩ | ⟨rfl, rfl⟩ | ⟨rfl, rfl⟩ | ⟨rfl, rfl⟩ | ⟨rfl, rfl⟩ | ⟨rfl, rfl⟩ | ⟨rfl, rfl⟩ | ⟨rfl, rfl⟩ | ⟨rfl, rfl⟩ | ⟨rfl, rfl⟩ |
      ⟨rfl, rfl⟩ | ⟨rfl, rfl⟩ | ⟨rfl, rfl⟩ | ⟨rfl, rfl⟩ | ⟨rfl, rfl⟩ | ⟨rfl, rfl⟩ | ⟨rfl, rfl⟩ | ⟨rfl, rfl⟩
    all_goals exact congrArg Host.Outcome.next (State.runSup_fail hfront hfail _)
  · exact State.precheck_of_admissionStatus (by simp [State.admissionStatus, hop])
  · simp only [List.mem_cons, List.not_mem_nil, or_false, not_or] at hserved
    obtain ⟨hsummary, hident, habort, hfeature⟩ := hserved
    exact State.precheck_of_admissionStatus (by simp [State.admissionStatus, hop, hmode, hsan, hsummary, hident, habort, hfeature])
  · exact State.precheck_of_admissionStatus (by simp [State.admissionStatus, hop, hmode, hsan, hdenied])

/-- A byte memory in canonical form is fixed by what its reads answer (log 4). -/
theorem eq_of_readCell_eq {m n : List Host.Cell} (hm : memWf m = true) (hn : memWf n = true) (h : ∀ a : Nat, readCell m a = readCell n a) : m = n := by
  induction m generalizing n with
  | nil =>
    cases n with
    | nil => rfl
    | cons d r => exact absurd (by simpa [readCell] using (h d.1).symm) (memWf_head hn)
  | cons c m ih =>
    cases n with
    | nil => exact absurd (by simpa [readCell] using h c.1) (memWf_head hm)
    | cons d n =>
      have hself (e : Host.Cell) (r : List Host.Cell) : readCell (e :: r) e.1 = e.2 := by simp [readCell]
      have hbelow {e : Host.Cell} {r : List Host.Cell} {a : Nat} (hw : memWf (e :: r) = true) (ha : a < e.1) : readCell (e :: r) a = 0 := by
        refine readCell_from fun f hf => ?_
        rcases List.mem_cons.mp hf with rfl | hf
        · exact ha
        · exact Nat.le_trans ha (Nat.le_of_succ_le (memWf_from hw f hf))
      have haddr : c.1 = d.1 := by
        rcases Nat.lt_trichotomy c.1 d.1 with hlt | heq | hgt
        · exact absurd (((hself c m).symm.trans (h c.1)).trans (hbelow hn hlt)) (memWf_head hm)
        · exact heq
        · exact absurd (((hself d n).symm.trans (h d.1).symm).trans (hbelow hm hgt)) (memWf_head hn)
      have hval : c.2 = d.2 := by rw [← hself c m, h c.1, haddr, hself d n]
      have hrest (a : Nat) : readCell m a = readCell n a := by
        by_cases ha : c.1 = a
        · rw [readCell_from (ha ▸ memWf_from hm), readCell_from (ha ▸ haddr ▸ memWf_from hn)]
        · simpa [readCell, ha, haddr ▸ ha] using h a
      rw [Prod.ext haddr hval, ih (memWf_tail hm) (memWf_tail hn) hrest]

/-- A byte string written is read back whole. -/
theorem readCells_writeCells {m : List Host.Cell} (hm : memWf m = true) (x : Nat) (b : Bytes) : readCells (writeCells m x b) x b.length = b := by
  refine List.ext_getElem (by simp [readCells]) fun i hi hb => ?_
  simp [readCells, readCell_writeCells_in hm hb]

/-- Settles O58. -/
theorem memoryKeepsItsForm : Obligations.MemoryKeepsItsForm :=
  ⟨fun _ x b hm => ⟨writeCells_wf hm, readCells_writeCells hm x b⟩, fun _ _ _ _ h => readCell_writeCells_out h, fun _ _ hm hn h => eq_of_readCell_eq hm hn h⟩

theorem CmdLedger.admitOne_balances {l : CmdLedger} (h : Safety.CmdsBalance l) : Safety.CmdsBalance l.admitOne := by
  simp only [Safety.CmdsBalance, CmdLedger.admitOne] at h ⊢
  omega

theorem CmdLedger.finish_balances {l : CmdLedger} (h : Safety.CmdsBalance l) (hout : 0 < l.outstanding) : Safety.CmdsBalance l.finish := by
  simp only [Safety.CmdsBalance, CmdLedger.finish] at h ⊢
  omega

theorem raise_balances {l : CreditLedger} (h : Safety.CreditsBalance l) (asked free : Nat) : Safety.CreditsBalance (raise l asked free) := by
  simp only [Safety.CreditsBalance, raise] at h ⊢
  omega

/-- A raised window stays within what was asked for, and within the free credits it takes (R139). -/
theorem raise_inUse_le (l : CreditLedger) (asked free : Nat) :
    (raise l asked free).inUse ≤ max l.inUse asked ∧ (raise l asked free).inUse ≤ l.inUse + free := by
  simp only [raise]
  omega

/-- Settles O59. -/
theorem sourceLedgersBalance : Obligations.SourceLedgersBalance :=
  ⟨fun _ h => ⟨CmdLedger.admitOne_balances h, CmdLedger.finish_balances h⟩,
   fun l asked free h => ⟨raise_balances h asked free, raise_inUse_le l asked free⟩⟩

/-- Behind the command's retirement, a completion changes no command. -/
theorem State.complete_cmds (s : State) (c : Cmd) (st : Status) (r0 r1 : Nat) (b : Bytes) :
    (s.complete c st r0 r1 b).cmds = s.cmds.filter fun x => x.adm != c.adm := by
  have hview : view 135005792 (s.complete c st r0 r1 b) = view 135005792 (s.retireCmd c st) := by
    unfold State.complete
    rw [view_endCopies _ _ _ (by decide), view_deliver _ _ _ (by decide), view_copyPayload _ _ _ (by decide)]
  exact of_view_cmds hview (by decide)

theorem State.deliver_of_mbx {c : Cmd} (hsrc : c.src = .mbx) (s : State) (k : Completion) : s.deliver c k = s.deliverMbx k := by
  simp [State.deliver, hsrc]

/-- On the side-band mailbox the completion is delivered to the mailbox's registers. -/
theorem State.complete_mbx {s : State} {c : Cmd} (hsrc : c.src = .mbx) (st : Status) (r0 r1 : Nat) (b : Bytes) :
    ∃ (t : State) (k : Completion), (s.complete c st r0 r1 b).mbx = (t.deliverMbx k).mbx ∧ k.payload = b := by
  simp only [State.complete, State.deliver_of_mbx hsrc]
  exact ⟨_, _, of_view_mbx (m := 134218240) (view_endCopies _ _ _ (by decide)) (by decide), rfl⟩

/-- Settles O57: the frame of what stands behind the retirement, and the registers a delivery to the mailbox writes. -/
theorem completionRetiresItsCommand : Obligations.CompletionRetiresItsCommand := by
  refine ⟨fun s c st r0 r1 b _ => s.complete_cmds c st r0 r1 b, fun s c st r0 r1 b hsrc hb => ?_⟩
  obtain ⟨t, k, hmbx, hk⟩ := State.complete_mbx (s := s) hsrc st r0 r1 b
  have hlen : (k.payload.take 16320).length = b.length := by rw [hk, List.length_take, Nat.min_eq_right hb]
  rw [hmbx]
  refine ⟨rfl, ?_, ?_⟩
  · simp [State.deliverMbx, State.setMbx]
  · show (BitVec.ofNat 16 (32 + (k.payload.take 16320).length)).toNat = _
    rw [hlen, BitVec.toNat_ofNat]
    omega

end Sys2Proof.Machine
end

section
/-! The step and the state after reset. -/

namespace Sys2Proof.Machine

/-- Settles O1: it is the second equation of `step`. -/
theorem stepRunsFrontCommand : Obligations.StepRunsFrontCommand :=
  fun _ _ _ => rfl

/-- A step on an empty queue is a tick (log 2). -/
theorem step_of_pending_nil {s : State} (h : s.pending = []) : step s = .next s.tick := by
  simp [step, h]

/-- No word spells a command, and so none comes in front of the queue (log 3). -/
theorem State.withFetchWord_eq (s : State) (nbits w : Nat) : s.withFetchWord nbits w = s := rfl

/-- Settles O2. -/
theorem emptyQueueTicksAndNoWordSpells : Obligations.EmptyQueueTicksAndNoWordSpells :=
  ⟨fun _ h => step_of_pending_nil h, fun nbits w s => ⟨rfl, s.withFetchWord_eq nbits w⟩⟩

/-- The ports of the state after reset balance their cells (01 R35). -/
theorem State.reset_cellsBalance (p : Fin 2) : Safety.CellsBalance (State.reset.port p) := by
  match p with
  | 0 => exact ⟨rfl, rfl⟩
  | 1 => exact ⟨rfl, rfl⟩

/-- Settles O53: the state after reset is a closed term. -/
theorem resetMeetsTheInvariants : Obligations.ResetMeetsTheInvariants := by
  refine ⟨⟨rfl, rfl, rfl, rfl⟩, ?_, ?_, State.reset_cellsBalance, rfl, rfl, rfl, rfl, rfl, rfl, rfl, rfl, rfl, rfl⟩
  · rfl
  · rfl

end Sys2Proof.Machine
end

section
/-! The key commands at the front of their executor (03 R91-R101): the front of a mailbox, then one equation per outcome of a command's own part. -/

namespace Sys2Proof.Machine

/-- The front command carries the opcode it was asked for, in service. -/
theorem State.frontOf_some {s : State} {cp op : Nat} {c : Cmd} (h : s.frontOf cp op = some c) : c.entry.opcode = op ∧ s.running = true := by
  unfold State.frontOf at h
  split at h
  · cases h
  · split at h
    · cases h
    · split at h
      next hturn =>
        cases h
        simp only [Bool.and_eq_true, beq_iff_eq] at hturn
        exact ⟨hturn.1.1.1, hturn.1.1.2⟩
      next => cases h

/-- The front command of a CP's mailbox that passes the common checks runs its own part. -/
theorem State.runFront_checked_pass {s : State} {cp op : Nat} {c : Cmd} (hfront : s.frontOf cp op = some c) (hpass : s.precheck c = none)
    (f : State → Cmd → State) : (s.runFront cp op fun s c => s.checked c f) = f s c := by
  rw [State.runFront_front hfront, State.checked_pass hpass]

/-- A command whose full-key checks need no page goes on behind them (R172). -/
theorem State.withChecks_of_ready {s : State} {c : Cmd} {keys : List (Nat × Bytes)} {own : Bool} (h : (s.keyChecks c keys own).1 = false)
    (f : State → Cmd → State) : s.withChecks c keys own f = f (s.keyChecks c keys own).2 c := by
  simp [State.withChecks, h]

/-- So does a write that the module takes. -/
theorem State.withKey_of_ready {s : State} {c : Cmd} (hro : roRefuses (s.roAt c.adm) c.entry.opcode = false)
    (h : (s.keyChecks c [(c.entry.ks, c.key)] true).1 = false) (f : State → Cmd → State) :
    s.withKey c f = f (s.keyChecks c [(c.entry.ks, c.key)] true).2 c := by
  simp [State.withKey, hro, State.withChecks_of_ready h]

/-- A write that no later write of this module has overtaken is no conflict (R308). -/
theorem State.orConflict_of_fresh {s : State} {c : Cmd} (h : s.stale c = false) (f : State → State) : s.orConflict c f = f s := by
  simp [State.orConflict, h]

/-- PUT whose gate is open reserves its record and has its value transferred (R91). -/
theorem State.putGate_go {s : State} {c : Cmd} {k : KeySpace} (hspace : (s.dropSeen c.entry.ks c.adm c.key).spaceOf c = some k)
    (hfresh : (s.dropSeen c.entry.ks c.adm c.key).stale c = false) (hgate : (s.dropSeen c.entry.ks c.adm c.key).valueGate c k c.entry.valueLen = .go) :
    s.putGate c = ((s.dropSeen c.entry.ks c.adm c.key).reserveValue c).1.transfer c ((s.dropSeen c.entry.ks c.adm c.key).reserveValue c).2 0
      c.entry.valueLen := by
  simp [State.putGate, hspace, State.orConflict_of_fresh hfresh, hgate]

/-- DELETE of a stored key whose gate is open writes its record (R93). -/
theorem State.deleteGate_go {s : State} {c : Cmd} {k : KeySpace} {e : IdxEntry} (hro : roRefuses (s.roAt c.adm) c.entry.opcode = false)
    (hlookup : s.lookup c.entry.ks c.key = some e) (hfind : (s.find c.entry.ks c.key).1.isSome = true) (hspace : s.spaceOf c = some k)
    (hfresh : (s.find c.entry.ks c.key).2.stale c = false) (hpause : (s.find c.entry.ks c.key).2.pauseGate k c false false = false)
    (hroom : (s.find c.entry.ks c.key).2.roomGate 1 0 = true) :
    s.deleteGate c = (s.find c.entry.ks c.key).2.writeRecord c .tombstone [] := by
  rcases hf : s.find c.entry.ks c.key with ⟨found, t⟩
  rw [hf] at hfind hfresh hpause hroom
  obtain ⟨x, rfl⟩ := Option.isSome_iff_exists.mp hfind
  simp only at hfresh hpause hroom
  simp [State.deleteGate, hro, hlookup, hf, hspace, State.orConflict_of_fresh hfresh, hpause, hroom]

/-- DISCARD_RANGE whose gate is open writes its record (R94). -/
theorem State.discardGate_go {s : State} {c : Cmd} {k : KeySpace} (hro : roRefuses (s.roAt c.adm) c.entry.opcode = false) (hspace : s.spaceOf c = some k)
    (hpause : s.pauseGate k c false false = false) (hheld : s.rangesHeld < 1024) (hroom : s.roomGate 1 0 = true) :
    s.discardGate c = s.writeRecord c .range (c.entry.tailOf (c.payload.getD []) (c.entry.arg 40 1)) := by
  simp [State.discardGate, hro, hspace, hpause, Nat.not_le.mpr hheld, hroom]

/-- A non-final opening part whose gate is open, with room for its assembly and none open on its key: it reserves for the whole value, stores its bytes and
opens the assembly (R51, R52, R56). -/
theorem State.openGate_go {s : State} {c : Cmd} {k : KeySpace} (hfinal : c.entry.isFinal = false)
    (hspace : (s.dropSeen c.entry.ks c.adm c.key).spaceOf c = some k)
    (hgate : (s.dropSeen c.entry.ks c.adm c.key).valueGate c k c.entry.valueLen = .go) (hroom : (s.dropSeen c.entry.ks c.adm c.key).asmRoom c = true)
    (hnone : (s.dropSeen c.entry.ks c.adm c.key).asmOf c = none) :
    s.openGate c =
      let b := (s.dropSeen c.entry.ks c.adm c.key).reserveValue c
      let part := c.entry.tailOf (c.payload.getD []) c.entry.partLen
      let t := b.1.storePart c b.2 0 part
      (t.setKv fun kv => { kv with
        assemblies := kv.assemblies ++ [{ id := t.kv.nextAsm, src := c.src, ks := c.entry.ks, key := c.key, total := c.entry.valueLen,
                                          got := part.length, rec_ := b.2, lastPart := t.now, openAdm := c.adm }]
        nextAsm := kv.nextAsm + 1 }).ok { c with rec_ := some b.2 } part.length 0 := by
  simp [State.openGate, hspace, hgate, hroom, hnone, hfinal]

/-- A further, non-final part that continues its assembly stores its bytes behind the others (R53, R100). -/
theorem State.nextPart_go {s : State} {c : Cmd} {a : Assembly} (hfinal : c.entry.isFinal = false) (hro : roRefuses (s.roAt c.adm) c.entry.opcode = false)
    (hasm : s.asmOf c = some a) (htotal : a.total = c.entry.arg 44 4) (hgot : a.got = c.entry.arg 40 4) (hfits : a.got + c.entry.partLen ≤ a.total) :
    s.nextPart c = ((s.setKv fun kv => { kv with assemblies := kv.assemblies.map (fun x =>
        if x.id = a.id then { x with got := x.got + c.entry.partLen, lastPart := s.now } else x) }).storePart c a.rec_ a.got
          (c.entry.tailOf (c.payload.getD []) c.entry.partLen)).ok { c with rec_ := some a.rec_ } (a.got + c.entry.partLen) 0 := by
  simp [State.nextPart, hro, hasm, ← htotal, ← hgot, hfinal, Nat.not_lt.mpr hfits]

/-- DISCARD_RANGE and the parts of a value run once their payload has come. -/
theorem exec_discardRange_of_front {s : State} {cp : Fin 8} {c : Cmd} (hfront : s.frontOf cp.val 0x05 = some c) (hpass : s.precheck c = none)
    (hcame : c.payload.isSome = true) : exec (.discardRange cp) s = .next (s.discardGate c) := by
  obtain ⟨p, hp⟩ := Option.isSome_iff_exists.mp hcame
  simp [exec, execDiscardRange, State.runFront_front hfront, hp, State.checked_pass hpass]

theorem exec_putPart_of_front {s : State} {cp : Fin 8} {c : Cmd} (hfront : s.frontOf cp.val 0x08 = some c) (hpass : s.precheck c = none)
    (hcame : c.payload.isSome = true) : exec (.putPart cp) s = .next (s.putPart c) := by
  obtain ⟨p, hp⟩ := Option.isSome_iff_exists.mp hcame
  simp [exec, execPutPart, State.runFront_front hfront, hp, State.checked_pass hpass]

/-- Settles O3: the front of the mailbox, the common checks, then the open gate of each write. -/
theorem writesPastTheirChecks : Obligations.WritesPastTheirChecks := by
  refine ⟨?_, ?_, ?_, ?_, ?_⟩
  · intro cp s c k hfront hpass hro hready u hspace hfresh hgate
    have hop := (State.frontOf_some hfront).1
    refine congrArg Host.Outcome.next ((State.runFront_checked_pass hfront hpass _).trans ?_)
    rw [State.withKey_of_ready (hop ▸ hro) hready, State.putGate_go hspace hfresh hgate]
  · intro cp s c k e hfront hpass hro hready u hro' hlookup hfind hspace hfresh hpause hroom
    refine congrArg Host.Outcome.next ((State.runFront_checked_pass hfront hpass _).trans ?_)
    rw [State.withKey_of_ready hro hready, State.deleteGate_go hro' hlookup hfind hspace hfresh hpause hroom]
  · intro cp s c k hfront hpass hcame hro hspace hpause hheld hroom
    rw [exec_discardRange_of_front hfront hpass hcame, State.discardGate_go hro hspace hpause hheld hroom]
  · intro cp s c k hfront hpass hcame hopens hfinal hro hready u hspace hgate hroom hnone
    rw [exec_putPart_of_front hfront hpass hcame, State.putPart, if_pos hopens, State.withKey_of_ready hro hready,
      State.openGate_go hfinal hspace hgate hroom hnone]
  · intro cp s c a hfront hpass hcame hopens hfinal hro hasm htotal hgot hfits
    rw [exec_putPart_of_front hfront hpass hcame, State.putPart, if_neg (Bool.eq_false_iff.mp hopens),
      State.nextPart_go hfinal hro hasm htotal hgot hfits]

/-- The last byte of a PUT's value makes its record valid; in Landing mode the write becomes visible (R182, R191). -/
theorem exec_putValueLanded_landing {adm id : Nat} {s : State} {c : Cmd} {p : Bytes} {r : LRec} (hrun : s.running = true) (hcmd : s.cmd? adm = some c)
    (hst : c.st = .filling) (hrec : c.rec_ = some id) (hcame : c.payload = some p) (hop : c.entry.opcode = 0x01)
    (hvalid : ((s.moved adm).setRec id fun r =>
      { r with val := r.val ++ c.entry.tailOf p (c.entry.arg 40 4), st := .valid, adm := c.adm, epoch := s.life.bootEpoch, visAt := s.now }).rec? id = some r)
    (hland : r.wt = false) :
    exec (.putValueLanded adm) s = .next (((s.moved adm).setRec id fun r =>
      { r with val := r.val ++ c.entry.tailOf p (c.entry.arg 40 4), st := .valid, adm := c.adm, epoch := s.life.bootEpoch, visAt := s.now }).becomeVisible
        id r.loc false) := by
  simp [exec, execPutValueLanded, hcmd, hst, hrec, hcame, hrun, hop, hvalid, hland]

/-- A write that has waited its 100 ms ends with ST_BUSY, behind EV_INDEX_STASH_FULL where a new key met a full stash (R75, R177). -/
theorem exec_writeWaitTimeout_of_waitedOut {adm : Nat} {s : State} {c : Cmd} (hrun : s.running = true) (hcmd : s.cmd? adm = some c)
    (hout : s.waitedOut c = true) (hsrc : c.src ≠ .mirror) :
    exec (.writeWaitTimeout adm) s = .next ((if (c.entry.opcode = 0x01 ∨ c.entry.opcode = 0x08) ∧ s.stashFull = true ∧
      s.lookup c.entry.ks c.key = none then s.logEv evIndexStashFull uPrism c.entry.ks 0 else s).fail c stBusy) := by
  simp [exec, execWriteWaitTimeout, hcmd, hout, hrun, hsrc, and_assoc]

/-- A waiting write tries the gate of its opcode again (R26). -/
theorem exec_writeWaitResume_of_waiting {adm t : Nat} {s : State} {c : Cmd} (hrun : s.running = true) (hcmd : s.cmd? adm = some c) (hst : c.st = .waiting t) :
    (c.entry.opcode = 0x01 → exec (.writeWaitResume adm) s = .next (s.putGate c)) ∧
    (c.entry.opcode = 0x08 → exec (.writeWaitResume adm) s = .next (s.openGate c)) ∧
    (c.entry.opcode = 0x03 → exec (.writeWaitResume adm) s = .next (s.deleteGate c)) ∧
    (c.entry.opcode = 0x05 → exec (.writeWaitResume adm) s = .next (s.discardGate c)) := by
  refine ⟨fun hop => ?_, fun hop => ?_, fun hop => ?_, fun hop => ?_⟩
  all_goals simp [exec, execWriteWaitResume, hcmd, hst, hrun, hop]

/-- An open assembly without a part for 30 s is discarded (R55). -/
theorem exec_assemblyExpiry_of_due {asm : Nat} {s : State} {a : Assembly} (hasm : (s.kv.assemblies.find? fun x => x.id == asm) = some a)
    (hpast : s.past a.lastPart (30 * oneSec) = true) (hopen : s.asmOpen a = true) : exec (.assemblyExpiry asm) s = .next (s.discardAsm asm) := by
  simp [exec, execAssemblyExpiry, hasm, hpast, hopen]

/-- Settles O4. -/
theorem writesInProgressMoveOn : Obligations.WritesInProgressMoveOn := by
  refine ⟨?_, ?_, ?_, ?_⟩
  · intro adm id s c p r hrun hcmd hst hrec hcame hop t hvalid hland
    exact exec_putValueLanded_landing hrun hcmd hst hrec hcame hop hvalid hland
  · intro adm s c hrun hcmd hout hsrc full
    refine ⟨fun hfull => ?_, fun hfull => ?_⟩
    · rw [exec_writeWaitTimeout_of_waitedOut hrun hcmd hout hsrc, if_pos hfull]
    · rw [exec_writeWaitTimeout_of_waitedOut hrun hcmd hout hsrc, if_neg hfull]
  · exact fun adm t s c hrun hcmd hst => exec_writeWaitResume_of_waiting hrun hcmd hst
  · exact fun asm s a hasm hpast hopen => exec_assemblyExpiry_of_due hasm hpast hopen

/-- What GET finds under a locator that holds, within the value and without an expected write identifier (R92). -/
theorem State.getOne_ok {s : State} {c : Cmd} {x : IdxEntry} {len adm : Nat} {ep : BitVec 16} (hinfo : s.infoAt x.loc = some (len, adm, ep))
    (hlost : x.loc.isLost = false) (hseq : c.entry.arg 48 6 = 0) (hoff : c.entry.arg 40 4 ≤ len) :
    s.getOne c (some x) = { status := stOk, len := len, r1 := writeId adm ep,
                            data := slice (s.valueAt x.loc) (c.entry.arg 40 4) (min c.respRoom (len - c.entry.arg 40 4)) } := by
  simp [State.getOne, hinfo, hlost, hseq, Nat.not_lt.mpr hoff]

/-- A GET that found its value completes with ST_OK, its length, what is returned and its write identifier; the value goes out under a reference to the
Landing record it lies in (R92, R186). -/
theorem State.answerGets_get_ok {c : Cmd} {g : Got} (s : State) (hop : c.entry.opcode = 0x02) (hok : g.status = stOk) :
    s.answerGets { c with gets := [g] } =
      let ids := g.rec_.toList.filter fun id => !c.refs.contains id
      ((s.takeRefs ids).copyOut { c with gets := [g] } [(0, g, c.entry.arg 40 4)]).complete { c with gets := [g], refs := c.refs ++ ids } stOk
        (g.len + 2 ^ 32 * g.data.length) g.r1 g.data := by
  have hids : [g].filterMap (fun g => g.rec_) = g.rec_.toList := by cases hr : g.rec_ <;> simp [hr]
  simp only [State.answerGets, hids]
  simp [Cmd.valuesOut, State.respondGets, hop, hok]

/-- A GET or an EXISTS that found no key completes with ST_NOT_FOUND (R92, R93). -/
theorem State.answerGets_notFound {c : Cmd} (s : State) (hop : c.entry.opcode = 0x02 ∨ c.entry.opcode = 0x04) :
    s.answerGets { c with gets := [{ status := stNotFound }] } =
      (s.copyOut { c with gets := [{ status := stNotFound }] } []).complete { c with gets := [{ status := stNotFound }] } stNotFound 0 0 [] := by
  rcases hop with hop | hop
  all_goals simp [State.answerGets, Cmd.valuesOut, State.respondGets, State.takeRefs, hop, stNotFound, stOk]

/-- An EXISTS of a stored key completes with the value's length and its write identifier (R93). -/
theorem State.answerGets_exists_ok {c : Cmd} (s : State) (len r1 : Nat) (hop : c.entry.opcode = 0x04) :
    let c' := { c with gets := [{ status := stOk, len := len, r1 := r1 }] }
    s.answerGets c' = (s.copyOut c' []).complete c' stOk len r1 [] := by
  simp [State.answerGets, Cmd.valuesOut, State.respondGets, State.takeRefs, hop, stNotFound, stOk]

section
variable {s t : State} {c : Cmd} {x : IdxEntry} {len adm : Nat} {ep : BitVec 16}

/-- GET of a key that is not stored (R92). -/
theorem State.getKey_none (hfind : s.find c.entry.ks c.key = (none, t)) :
    s.getKey c = (t.dropSeen c.entry.ks c.adm c.key).answerGets { c with gets := [{ status := stNotFound }] } := by
  simp [State.getKey, hfind, State.getOne]

/-- GET of a value at hand is answered at once (R92). -/
theorem State.getKey_served (hfind : s.find c.entry.ks c.key = (some x, t)) (hserved : t.servedAtOnce x.loc false = true) :
    s.getKey c = ((t.hitValue x.loc).dropSeen c.entry.ks c.adm c.key).answerGets
      { c with gets := [t.gotAt x.loc (c.entry.arg 40 4) (t.getOne c (some x)).data.length (t.getOne c (some x))] } := by
  simp [State.getKey, hfind, hserved]

/-- GET of a value on flash leaves the mailbox and reads its pages (R491). -/
theorem State.getKey_read (hfind : s.find c.entry.ks c.key = (some x, t)) (hserved : t.servedAtOnce x.loc false = false)
    (hok : (t.getOne c (some x)).status = stOk) :
    let g := t.gotAt x.loc (c.entry.arg 40 4) (t.getOne c (some x)).data.length (t.getOne c (some x))
    s.getKey c = ((((t.leave c.adm fun _ => { c with gets := [g], st := .reading }).startRead c.adm 0 c.entry.ks c.key x.loc (c.entry.arg 40 4)
      g.data.length false).dropSeen c.entry.ks c.adm c.key)).pumpReads c.adm := by
  simp [State.getKey, hfind, hserved, hok, State.gotAt]

/-- EXISTS of a key that is not stored (R93). -/
theorem State.existsKey_none (hfind : s.find c.entry.ks c.key = (none, t)) :
    s.existsKey c = (t.dropSeen c.entry.ks c.adm c.key).answerGets { c with gets := [{ status := stNotFound }] } := by
  simp [State.existsKey, hfind]

/-- EXISTS of a stored key whose header is at hand is answered at once (R93). -/
theorem State.existsKey_served (hfind : s.find c.entry.ks c.key = (some x, t)) (hinfo : t.infoAt x.loc = some (len, adm, ep)) (hlost : x.loc.isLost = false)
    (hserved : t.servedAtOnce x.loc true = true) :
    s.existsKey c = ((t.hitValue x.loc).dropSeen c.entry.ks c.adm c.key).answerGets
      { c with gets := [{ status := stOk, len := len, r1 := writeId adm ep }] } := by
  simp [State.existsKey, hfind, hinfo, hlost, hserved]

/-- EXISTS of a key whose header stands on flash leaves the mailbox and reads its page (R491). -/
theorem State.existsKey_read (hfind : s.find c.entry.ks c.key = (some x, t)) (hinfo : t.infoAt x.loc = some (len, adm, ep)) (hlost : x.loc.isLost = false)
    (hserved : t.servedAtOnce x.loc true = false) :
    s.existsKey c = ((((t.leave c.adm fun _ => { c with gets := [{ status := stOk, len := len, r1 := writeId adm ep }], st := .reading }).startRead
      c.adm 0 c.entry.ks c.key x.loc 0 0 true).dropSeen c.entry.ks c.adm c.key)).pumpReads c.adm := by
  simp [State.existsKey, hfind, hinfo, hlost, hserved]

end

/-- GET and EXISTS at the front run behind the common checks and the full-key checks of their key. -/
theorem exec_get_of_front {s : State} {cp : Fin 8} {c : Cmd} (hfront : s.frontOf cp.val 0x02 = some c) (hpass : s.precheck c = none)
    (hready : (s.keyChecks c [(c.entry.ks, c.key)] false).1 = false) :
    exec (.get cp) s = .next ((s.keyChecks c [(c.entry.ks, c.key)] false).2.getKey c) :=
  congrArg Host.Outcome.next ((State.runFront_checked_pass hfront hpass _).trans (State.withChecks_of_ready hready _))

theorem exec_existsKey_of_front {s : State} {cp : Fin 8} {c : Cmd} (hfront : s.frontOf cp.val 0x04 = some c) (hpass : s.precheck c = none)
    (hready : (s.keyChecks c [(c.entry.ks, c.key)] false).1 = false) :
    exec (.existsKey cp) s = .next ((s.keyChecks c [(c.entry.ks, c.key)] false).2.existsKey c) :=
  congrArg Host.Outcome.next ((State.runFront_checked_pass hfront hpass _).trans (State.withChecks_of_ready hready _))

/-- Settles O5: GET and EXISTS, each by what its lookup finds and whether it is at hand. -/
theorem getAndExistsAnswer : Obligations.GetAndExistsAnswer := by
  refine ⟨⟨?_, ?_⟩, ⟨?_, ?_⟩, ⟨?_, ?_⟩⟩
  · intro cp s c x len adm ep hfront hpass hready u t hfound hinfo hlost hseq hoff hserved data g ids
    have hget := State.getOne_ok hinfo hlost hseq hoff
    rw [exec_get_of_front hfront hpass hready, State.getKey_served (Prod.ext hfound rfl) hserved, hget,
      State.answerGets_get_ok _ (State.frontOf_some hfront).1 rfl]
    rfl
  · intro cp s c hfront hpass hready u hfound
    rw [exec_get_of_front hfront hpass hready, State.getKey_none (Prod.ext hfound rfl), State.answerGets_notFound _ (.inl (State.frontOf_some hfront).1)]
  · intro cp s c x len adm ep hfront hpass hready u t hfound hinfo hlost hseq hoff hserved data g
    have hget := State.getOne_ok hinfo hlost hseq hoff
    rw [exec_get_of_front hfront hpass hready, State.getKey_read (Prod.ext hfound rfl) hserved (by rw [hget]), hget]
    rfl
  · intro cp s c x len adm ep hfront hpass hready u t hfound hinfo hlost hserved
    rw [exec_existsKey_of_front hfront hpass hready, State.existsKey_read (Prod.ext hfound rfl) hinfo hlost hserved]
  · intro cp s c x len adm ep hfront hpass hready u t hfound hinfo hlost hserved c'
    rw [exec_existsKey_of_front hfront hpass hready, State.existsKey_served (Prod.ext hfound rfl) hinfo hlost hserved,
      State.answerGets_exists_ok _ _ _ (State.frontOf_some hfront).1]
  · intro cp s c hfront hpass hready u hfound c'
    rw [exec_existsKey_of_front hfront hpass hready, State.existsKey_none (Prod.ext hfound rfl),
      State.answerGets_notFound _ (.inr (State.frontOf_some hfront).1)]

end Sys2Proof.Machine
end

section
/-! MGET, LIST, FLUSH and ABORT (03 R95-R104; 02 R69). -/

namespace Sys2Proof.Machine

/-- A command whose whole payload has come lacks none. -/
theorem State.lacksPayload_of_came {s : State} {c : Cmd} (hcame : c.payload.isSome = true) : s.lacksPayload c = false := by
  obtain ⟨p, hp⟩ := Option.isSome_iff_exists.mp hcame
  simp [State.lacksPayload, hp]

/-- MGET at the front runs behind the common checks and the full-key checks of its keys. -/
theorem exec_mget_of_front {s : State} {cp : Fin 8} {c : Cmd} (hfront : s.frontOf cp.val 0x07 = some c) (hpass : s.precheck c = none)
    (hcame : c.payload.isSome = true) (hready : (s.keyChecks c (s.mgetKeys c) false).1 = false) :
    exec (.mget cp) s = .next ((s.keyChecks c (s.mgetKeys c) false).2.mget c) := by
  simp [exec, execMget, State.runFront_front hfront, State.lacksPayload_of_came hcame, State.checked_pass hpass, State.withChecks_of_ready hready]

/-- An MGET with a key outside its payload is refused (R97). -/
theorem State.mget_of_not_fits {s : State} {c : Cmd} (h : c.elemsFit = false) : s.mget c = s.fail c stInvalid := by
  simp [State.mget, h]

/-- So is one without room for its offset list (R98). -/
theorem State.mget_of_short {s : State} {c : Cmd} (h : c.elemsFit = true) (hroom : c.respRoom < 16 * c.entry.arg 40 2) :
    s.mget c = s.fail c stBufferShort := by
  simp [State.mget, h, hroom]

/-- An MGET with elements on flash waits for their reads, with references to its Landing records (R491). -/
theorem State.mget_of_reads {s : State} {c : Cmd} (h : c.elemsFit = true) (hroom : 16 * c.entry.arg 40 2 ≤ c.respRoom)
    (hreads : (((s.mgetFind c).1.mgetStart c (s.mgetFind c).2).flash.reads.any fun r => r.serves c.adm) = true) :
    let refs := (s.mgetFind c).2.filterMap fun g => g.1.rec_
    s.mget c = ((((s.mgetFind c).1.mgetStart c (s.mgetFind c).2).takeRefs refs).setCmd c.adm fun x => { x with refs := refs }).pumpReads c.adm := by
  unfold State.mget
  rw [h, if_neg (by simp), if_neg (Nat.not_lt.mpr hroom)]
  exact if_pos hreads

/-- An MGET whose elements are all at hand is answered at once. -/
theorem State.mget_of_served {s : State} {c : Cmd} (h : c.elemsFit = true) (hroom : 16 * c.entry.arg 40 2 ≤ c.respRoom)
    (hreads : (((s.mgetFind c).1.mgetStart c (s.mgetFind c).2).flash.reads.any fun r => r.serves c.adm) = false) :
    s.mget c = ((s.mgetFind c).1.mgetStart c (s.mgetFind c).2).answerGets { c with gets := (s.mgetFind c).2.map fun x => x.1 } := by
  unfold State.mget
  rw [h, if_neg (by simp), if_neg (Nat.not_lt.mpr hroom)]
  exact if_neg (Bool.eq_false_iff.mp hreads)

/-- The answer of an MGET: the counts of the elements returned and cut off, the end of its values, the offset list with the values behind it (R98). -/
theorem State.answerGets_mget {c : Cmd} (s : State) (gs : List Got) (hop : c.entry.opcode = 0x07) :
    let p := placeValues gs (alignTo 64 (16 * gs.length)) c.respRoom false
    let out := (p.1.zip gs).filterMap fun x => if x.1.2.2 = stOk then some (x.1.1, x.2, 0) else none
    let ids := (gs.filterMap fun g => g.rec_).filter fun id => !c.refs.contains id
    let top := ((p.2.1.filter fun x => !x.2.isEmpty).getLast?.map fun x => x.1 + x.2.length).getD (16 * gs.length)
    s.answerGets { c with gets := gs } = ((s.takeRefs ids).copyOut { c with gets := gs } out).complete { c with gets := gs, refs := c.refs ++ ids } stOk
      ((p.1.filter fun x => x.2.2 == stOk).length + 65536 * (p.1.filter fun x => x.2.2 == stBufferShort).length) top
      (layOut (p.1.flatMap fun x => le 4 x.1 ++ le 4 x.2.1 ++ le 2 x.2.2.toNat ++ le 6 0) p.2.1) := by
  unfold State.answerGets Cmd.valuesOut State.respondGets
  simp only [hop]
  rfl

/-- Settles O6. -/
theorem mgetReturnsItsValues : Obligations.MgetReturnsItsValues := by
  intro cp s c hfront hpass hcame hready u
  rw [exec_mget_of_front hfront hpass hcame hready]
  refine ⟨fun hfit => ?_, fun hfit hroom => ?_, fun hfit hroom => ⟨fun hreads => ?_, fun hreads => ?_⟩⟩
  · rw [State.mget_of_not_fits hfit]
  · rw [State.mget_of_short hfit hroom]
  · rw [State.mget_of_reads hfit hroom hreads]
  · rw [State.mget_of_served hfit hroom hreads, State.answerGets_mget _ _ (State.frontOf_some hfront).1]

/-- LIST at the front runs behind the common checks. -/
theorem exec_list_of_front {s : State} {cp : Fin 8} {c : Cmd} (hfront : s.frontOf cp.val 0x06 = some c) (hpass : s.precheck c = none)
    (hcame : c.payload.isSome = true) : exec (.list cp) s = .next (s.listKeys c) := by
  simp [exec, execList, State.runFront_front hfront, State.lacksPayload_of_came hcame, State.checked_pass hpass]

section
variable {s : State} {c : Cmd} {k : KeySpace} (hspace : s.spaceOf c = some k)
include hspace

/-- LIST of an unordered key space is refused, whatever its response buffer (log 72). -/
theorem State.listKeys_of_unordered (h : k.ordered = false) : s.listKeys c = s.fail c stInvalid := by
  simp [State.listKeys, hspace, h]

/-- LIST with a response buffer under 256 bytes is refused (R95). -/
theorem State.listKeys_of_short (h : k.ordered = true) (hlen : c.entry.respLen < 256) : s.listKeys c = s.fail c stBufferShort := by
  simp [State.listKeys, hspace, h, hlen]

/-- LIST that misses index nodes reads them first (R180). -/
theorem State.listKeys_of_due (h : k.ordered = true) (hlen : 256 ≤ c.entry.respLen)
    (hdue : s.nodesDue k c.key (takeFit (c.entry.arg 40 2) c.respRoom (s.listShown c k)) ≠ []) :
    s.listKeys c = s.readNodes c (s.nodesDue k c.key (takeFit (c.entry.arg 40 2) c.respRoom (s.listShown c k))) := by
  simp [State.listKeys, hspace, h, Nat.not_lt.mpr hlen, hdue]

/-- LIST whose index nodes are at hand returns its page (R95, R96). -/
theorem State.listKeys_of_ready (h : k.ordered = true) (hlen : 256 ≤ c.entry.respLen)
    (hdue : s.nodesDue k c.key (takeFit (c.entry.arg 40 2) c.respRoom (s.listShown c k)) = []) :
    let page := takeFit (c.entry.arg 40 2) c.respRoom (s.listShown c k)
    s.listKeys c = ((s.useNodes k c.key page).freeSkip k.tree.length).complete c stOk
      (page.length + 65536 * b2n (decide (page.length = (s.listShown c k).length))) (page.flatMap listEntry).length (page.flatMap listEntry) := by
  simp [State.listKeys, hspace, h, Nat.not_lt.mpr hlen, hdue]

end

/-- Settles O7. -/
theorem listReturnsItsPage : Obligations.ListReturnsItsPage := by
  intro cp s c k hfront hpass hcame hspace
  rw [exec_list_of_front hfront hpass hcame]
  refine ⟨fun hord => ?_, fun hord hlen => ?_, fun hord hlen => ⟨fun hdue => ?_, fun hdue => ?_⟩⟩
  · rw [State.listKeys_of_unordered hspace hord]
  · rw [State.listKeys_of_short hspace hord hlen]
  · rw [State.listKeys_of_due hspace hord hlen hdue]
  · rw [State.listKeys_of_ready hspace hord hlen hdue]

/-- FLUSH with nothing outstanding but itself covers nothing and completes at once (R101). -/
theorem State.flush_of_nothing {s : State} {c : Cmd} (hcmds : s.cmds = [c]) (hrecs : s.land.recs = []) (hsend : s.mir.sendq = []) :
    s.flush c = s.ok c 0 0 := by
  simp [State.flush, hcmds, hrecs, hsend]

/-- FLUSH that covers a record still in the Landing leaves the mailbox and waits (R69). -/
theorem State.flush_of_held {s : State} {c : Cmd} {r : LRec} (hmem : r ∈ s.land.recs) (hwt : r.wt = false) (hsup : r.superseded = false)
    (hsrc : r.src ≠ .mirror) (hadm : r.adm < c.adm) (hks : c.entry.ks = 0xFF ∨ r.ks = c.entry.ks) (hst : r.st = .visible) :
    ∃ f : FlushWait, f.adm = c.adm ∧ r.adm ∈ f.covered ∧
      s.flush c = ((s.leave c.adm fun x => { x with st := .flushing }).setKv fun k => { k with flushes := k.flushes ++ [f] }).pumpDrain := by
  have hheld : r.adm ∈ (s.land.recs.filter fun r => !r.wt && !r.superseded && r.src != .mirror && decide (r.adm < c.adm) &&
      (c.entry.ks == 0xFF || r.ks == c.entry.ks) && (r.st == .visible || r.st == .draining)).map fun r => r.adm :=
    List.mem_map_of_mem (List.mem_filter.mpr ⟨hmem, by simp [hwt, hsup, hsrc, hadm, hks, hst]⟩)
  unfold State.flush
  extract_lets scope waiting held acks
  rw [if_neg (by simp [List.ne_nil_of_mem (show r.adm ∈ held from hheld)])]
  exact ⟨_, rfl, List.mem_append_right _ hheld, rfl⟩

/-- FLUSH at the front runs behind the common checks. -/
theorem exec_flush_of_front {s : State} {cp : Fin 8} {c : Cmd} (hfront : s.frontOf cp.val 0x09 = some c) (hpass : s.precheck c = none) :
    exec (.flush cp) s = .next (s.flush c) :=
  congrArg Host.Outcome.next (State.runFront_checked_pass hfront hpass _)

/-- A FLUSH whose writes are all done completes (R101). -/
theorem exec_flushDone_of_done {adm : Nat} {s : State} {c : Cmd} {f : FlushWait} (hrun : s.running = true) (hcmd : s.cmd? adm = some c)
    (hflush : (s.kv.flushes.find? fun x => x.adm == adm) = some f) (hcovered : f.covered = []) (hacks : f.acks = []) :
    exec (.flushDone adm) s = .next ((s.setKv fun k => { k with flushes := k.flushes.filter fun x => x.adm != adm }).ok c 0 0) := by
  simp [exec, execFlushDone, hcmd, hflush, hrun, hcovered, hacks]

/-- Settles O8. -/
theorem flushWaitsForItsWrites : Obligations.FlushWaitsForItsWrites := by
  refine ⟨?_, ?_, ?_⟩
  · intro cp s c hfront hpass hcmds hrecs hsend
    rw [exec_flush_of_front hfront hpass, State.flush_of_nothing hcmds hrecs hsend]
  · intro cp s c r hfront hpass hmem hwt hsup hsrc hadm hks hst
    obtain ⟨f, hf, hcovers, hwaits⟩ := State.flush_of_held (s := s) hmem hwt hsup hsrc hadm hks hst
    exact ⟨f, hf, hcovers, by rw [exec_flush_of_front hfront hpass, hwaits]⟩
  · exact fun adm s c f hrun hcmd hflush hcovered hacks => exec_flushDone_of_done hrun hcmd hflush hcovered hacks

/-- ABORT past its checks decides at once (R102). -/
theorem exec_abort_of_posted {adm : Nat} {s : State} {c : Cmd} (hrun : s.running = true) (hps : s.pwr.ps = 0) (hcmd : s.cmd? adm = some c)
    (hop : c.entry.opcode = 0x0A) (hst : c.st = .posted) (hpass : s.precheck c = none) : exec (.abort adm) s = .next (s.decideAbort c) := by
  simp [exec, execAbort, hcmd, hop, hst, hrun, hps, State.checked_pass hpass]

/-- ABORT with its own tag is refused. -/
theorem State.decideAbort_of_own {s : State} {c : Cmd} (h : BitVec.ofNat 16 (c.entry.arg 40 2) = c.entry.tag) : s.decideAbort c = s.fail c stInvalid := by
  simp [State.decideAbort, h]

/-- ABORT of the one command of its source under that tag, where no completion is unwritten: another ABORT refuses it, a commit point decides (R102,
R103). -/
theorem State.decideAbort_of_one {s : State} {c x : Cmd} (htag : BitVec.ofNat 16 (c.entry.arg 40 2) ≠ c.entry.tag) (hcpl : s.unwritten c.src = [])
    (hmine : (s.cmds.filter fun y => y.src == c.src && y.entry.tag == BitVec.ofNat 16 (c.entry.arg 40 2) && decide (y.adm < c.adm)) = [x]) :
    s.decideAbort c = if x.entry.opcode = 0x0A then s.fail c stInvalid
      else if x.cancellable = true then (s.cancel x).ok c 0 0 else s.fail c stAlreadyDone := by
  simp [State.decideAbort, htag, hcpl, hmine]

/-- ABORT of no command that is still there. -/
theorem State.decideAbort_of_none {s : State} {c : Cmd} (htag : BitVec.ofNat 16 (c.entry.arg 40 2) ≠ c.entry.tag) (hcpl : s.unwritten c.src = [])
    (hmine : (s.cmds.filter fun y => y.src == c.src && y.entry.tag == BitVec.ofNat 16 (c.entry.arg 40 2) && decide (y.adm < c.adm)) = []) :
    s.decideAbort c = s.fail c stAlreadyDone := by
  simp [State.decideAbort, htag, hcpl, hmine]

/-- Settles O9. -/
theorem abortDecidesOnItsTarget : Obligations.AbortDecidesOnItsTarget := by
  intro adm s c hrun hps hcmd hop hst hpass tag mine
  rw [exec_abort_of_posted hrun hps hcmd hop hst hpass]
  refine ⟨fun hown => ?_, fun x htag hcpl hmine => ⟨fun habort => ?_, fun habort hcan => ?_, fun habort hcan => ?_⟩, fun htag hcpl hmine => ?_⟩
  · rw [State.decideAbort_of_own hown]
  · rw [State.decideAbort_of_one htag hcpl hmine, if_pos habort]
  · rw [State.decideAbort_of_one htag hcpl hmine, if_neg habort, if_pos hcan]
  · rw [State.decideAbort_of_one htag hcpl hmine, if_neg habort, if_neg (Bool.eq_false_iff.mp hcan)]
  · rw [State.decideAbort_of_none htag hcpl hmine]

end Sys2Proof.Machine
end

section
/-! The commands of the active SUP past their checks (03 R106-R120; 02 R44, R45, R67, R74; 12 R390-R393, R403-R405; 13 R418, R419). -/

namespace Sys2Proof.Machine

/-- The front command of the active SUP's mailbox that passes the common checks answers what its own part answers. -/
theorem next_runSup {s t : State} {op : Nat} {c : Cmd} {f : State → Cmd → State} (hfront : s.supFront op = some c) (hpass : s.precheck c = none)
    (h : f s c = t) : (.next (s.runSup op f) : Host.Outcome State Fault Refusal) = .next t :=
  congrArg Host.Outcome.next ((State.runSup_front hfront hpass f).trans h)

/-- A key space that exists at a position stands in the table under its number. -/
theorem any_inSpace_of_any_ks {spaces : List KeySpace} {ks adm : Nat} (h : (spaces.any fun k => k.ks == ks) = false) :
    (spaces.any fun k => inSpace ks adm k) = false := by
  rw [List.any_eq_false] at h ⊢
  intro k hk hin
  exact h k hk (by simp only [inSpace, Bool.and_eq_true] at hin; exact hin.1.1)

/-- KS_CREATE of a free number without a policy makes the key space (R107). -/
theorem State.ksCreate_go {s : State} {c : Cmd} (hkeys : c.entry.arg 56 4 ≤ s.prism.keyLimit) (hfree : (s.kv.spaces.any fun k => k.ks == c.entry.ks) = false)
    (hpol : policyOf (bitsOf (c.entry.arg 40 1) 2 1) = .off) (hro : roRefuses (s.roAt c.adm) 0x10 = false) :
    s.ksCreate c = (s.newSpace c.entry.ks c.adm (bitOf (c.entry.arg 40 1) 0) ⟨c.entry.arg 48 8, c.entry.arg 56 4⟩ .off
      (bitOf (c.entry.arg 40 1) 3) false).writeKeys.ok c 0 0 := by
  unfold State.ksCreate
  simp only [Nat.not_lt.mpr hkeys, any_inSpace_of_any_ks hfree, hfree, hpol, hro]
  rfl

/-- KS_DELETE of another key space than 0 marks it and leaves the mailbox (R44, R108). -/
theorem State.ksDelete_go {s : State} {c : Cmd} (hks : c.entry.ks ≠ 0) (hro : roRefuses (s.roAt c.adm) 0x11 = false) :
    s.ksDelete c = (s.setSpaces (inSpace c.entry.ks c.adm) fun k => { k with deletedAt := some c.adm }).leave c.adm fun x => { x with st := .deleting } := by
  simp [State.ksDelete, hks, hro]

/-- A KS_DELETE with no earlier command outstanding takes effect; one of an unmirrored key space tells no peer (R44, R45). -/
theorem exec_ksDeleteTakesEffect_go {adm : Nat} {s : State} {c : Cmd} {k : KeySpace} (hrun : s.running = true) (hcmd : s.cmd? adm = some c)
    (hst : c.st = .deleting) (hspace : (s.kv.spaces.find? fun k => k.ks == c.entry.ks && k.deletedAt == some adm) = some k)
    (hearlier : s.earlierOut adm = false) (hpol : k.policyNow = .off) :
    exec (.ksDeleteTakesEffect adm) s = .next (
      (((s.setKv fun v => { v with spaces := v.spaces.filter fun x => !(x.ks == k.ks && x.deletedAt == some adm) }).forgetSpace k.ks).writeKeys.reviewCapacity).ok
        c k.bytes k.keys) := by
  simp [exec, execKsDeleteTakesEffect, hcmd, hspace, hst, hrun, hearlier, hpol]

/-- KS_SET_LIMIT of a key space puts the limits it names in force from its admission position on (R67, R109). -/
theorem State.ksSetLimit_space {s : State} {c : Cmd} {k : KeySpace} (hany : (bitOf (c.entry.arg 40 1) 0 || bitOf (c.entry.arg 40 1) 1) = true)
    (hks : c.entry.ks ≠ 0xFF) (hspace : s.spaceOf c = some k) :
    s.ksSetLimit c = (s.setSpaces (inSpace c.entry.ks c.adm) fun x => { x with limits := (c.adm,
      ⟨if bitOf (c.entry.arg 40 1) 0 then c.entry.arg 48 8 else (k.limitsAt c.adm).capacity,
       if bitOf (c.entry.arg 40 1) 1 then c.entry.arg 56 4 else (k.limitsAt c.adm).keys⟩) :: x.limits }).limitSet c (k.limitsAt c.adm).capacity
        (k.limitsAt c.adm).keys := by
  have hnone : ¬ ((!bitOf (c.entry.arg 40 1) 0 && !bitOf (c.entry.arg 40 1) 1) = true) := by
    rw [← Bool.not_or, hany]
    decide
  unfold State.ksSetLimit
  simp only [hnone, hks, hspace, if_false, Bool.false_eq_true]

/-- A landed KS_SET_LIMIT completes with the values before. -/
theorem State.limitSet_landed {s : State} {c : Cmd} (a b : Nat)
    (h : (s.setKv fun v => { v with tableAt := v.tableAt.or (some s.now) }).isDurable c = false) :
    s.limitSet c a b = (s.setKv fun v => { v with tableAt := v.tableAt.or (some s.now) }).ok c a b :=
  if_neg (Bool.eq_false_iff.mp h)

/-- A durable one waits for the table in configuration data (R67). -/
theorem State.limitSet_durable {s : State} {c : Cmd} (a b : Nat)
    (h : (s.setKv fun v => { v with tableAt := v.tableAt.or (some s.now) }).isDurable c = true) :
    s.limitSet c a b = (((s.setKv fun v => { v with tableAt := v.tableAt.or (some s.now) }).leave c.adm fun x =>
      { x with st := .tableWait, committed := true, res0 := a, res1 := b }).setKv fun v => { v with tableWaits := v.tableWaits ++ [c.adm] }) :=
  if_pos h

/-- Settles O10. -/
theorem keySpaceCommandsPastTheirChecks : Obligations.KeySpaceCommandsPastTheirChecks := by
  refine ⟨?_, ?_, ?_, ?_, ?_⟩
  · exact fun s c hfront hpass hkeys hfree hpol hro => next_runSup hfront hpass (State.ksCreate_go hkeys hfree hpol hro)
  · exact fun s c hfront hpass hks hro => next_runSup hfront hpass (State.ksDelete_go hks hro)
  · exact fun adm s c k hrun hcmd hst hspace hearlier hpol => exec_ksDeleteTakesEffect_go hrun hcmd hst hspace hearlier hpol
  · exact fun s c k hfront hpass hany hks hspace => next_runSup hfront hpass (State.ksSetLimit_space hany hks hspace)
  · exact fun s c a b => ⟨State.limitSet_landed a b, State.limitSet_durable a b⟩

/-- FORMAT or SANITIZE with no earlier command outstanding, no update session and no pairing starts: everything stored is destroyed and the tokens of its
work are asked for (R111, R403, R405). -/
theorem State.trySanitize_go {s : State} (hrun : s.running = true) (hst : s.sec.san.state = 1) (hstage : s.sec.san.stage = 0)
    (hearlier : (s.sec.san.adm.any fun a => s.earlierOut a) = false) (hupd : s.upd.state = 0) (hroll : s.upd.rollback = false)
    (hpair : s.mir.pairing = none) :
    s.trySanitize = (((s.setSec fun x => { x with san := { x.san with stage := 1, runFrom := some s.now } }).destroyAll).logEv
      evSanitize uCrypto s.sec.san.mode 1).askMedium := by
  unfold State.trySanitize
  simp [hrun, hst, hstage, hearlier, hupd, hroll, hpair]

/-- Without its tokens it asks for them. -/
theorem exec_sanitizeDone_of_waiting {s : State} (hrun : s.running = true) (hst : s.sec.san.state = 1) (hstage : s.sec.san.stage = 1)
    (hgrant : s.grantFor .medium = none) : exec .sanitizeDone s = .next s.askMedium := by
  simp [exec, execSanitizeDone, hrun, hst, hstage, hgrant]

/-- With them it formats the module, returns them and completes its command (R403, R408). -/
theorem exec_sanitizeDone_of_granted {s : State} {c : Cmd} {a : Nat} (hrun : s.running = true) (hst : s.sec.san.state = 1) (hstage : s.sec.san.stage = 1)
    (hgrant : (s.grantFor .medium).isSome = true) (hadm : s.sec.san.adm = some a) :
    let u := ((s.formatted).returnFor .medium).logEv evSanitize uCrypto s.sec.san.mode 0
    let t := u.setSec fun y => { y with san := { y.san with
      state := 2, adm := none, elapsedNs := s.sec.san.elapsedNs + (s.sec.san.runFrom.map fun t => u.now - t).getD 0, runFrom := none } }
    t.cmd? a = some c → exec .sanitizeDone s = .next (t.ok c 0 0) := by
  intro u t hcmd
  obtain ⟨g, hg⟩ := Option.isSome_iff_exists.mp hgrant
  refine congrArg Host.Outcome.next ?_
  simp only [hrun, hst, hstage, hg, hadm]
  show (match t.cmd? a with | some c => t.ok c 0 0 | none => t) = t.ok c 0 0
  rw [hcmd]

/-- Settles O12. -/
theorem sanitizeRuns : Obligations.SanitizeRuns := by
  refine ⟨?_, ?_, ?_, ?_, ?_⟩
  · exact fun s c hfront hpass => next_runSup hfront hpass rfl
  · exact fun s c hfront hpass => next_runSup hfront hpass rfl
  · exact fun s hrun hst hstage hearlier hupd hroll hpair => State.trySanitize_go hrun hst hstage hearlier hupd hroll hpair
  · exact fun s hrun hst hstage hgrant => exec_sanitizeDone_of_waiting hrun hst hstage hgrant
  · exact fun s c a hrun hst hstage hgrant hadm => exec_sanitizeDone_of_granted hrun hst hstage hgrant hadm

/-- A structure of fixed length goes out where the response buffer takes it (R106, R113, R323). -/
theorem State.summaryCmd_of_room {s : State} {c : Cmd} (h : 4096 ≤ c.respRoom) : s.summaryCmd c = (s.complete c stOk 0 0 (s.summaryBlock c)).freeNext := by
  simp [State.summaryCmd, Nat.not_lt.mpr h]

theorem State.identCmd_of_room {s : State} {c : Cmd} (h : 1024 ≤ c.respRoom) : s.identCmd c = s.complete c stOk 0 0 s.identStruct := by
  simp [State.identCmd, Nat.not_lt.mpr h]

theorem State.mirrorStateCmd_of_room {s : State} {c : Cmd} (h : 2112 ≤ c.respRoom) : s.mirrorStateCmd c = s.complete c stOk 2112 0 s.mirrorStruct := by
  simp [State.mirrorStateCmd, Nat.not_lt.mpr h]

/-- GET_FEATURE of a known feature returns its values at the command's position (R115). -/
theorem State.getFeatureCmd_of_known {s : State} {c : Cmd} (hknown : s.featureStatus (c.entry.arg 40 2) c.entry.ks c.adm = none)
    (hfree : c.entry.arg 40 2 ≠ 0x000C) :
    s.getFeatureCmd c = s.ok c (s.featureValue (c.entry.arg 40 2) c.entry.ks c.adm).1 (s.featureValue (c.entry.arg 40 2) c.entry.ks c.adm).2 := by
  simp [State.getFeatureCmd, hknown, hfree]

/-- SET_FEATURE of a known feature with values in range puts them in force and returns the old ones (R116). -/
theorem State.setFeatureCmd_of_ok {s : State} {c : Cmd} (hknown : s.featureStatus (c.entry.arg 40 2) c.entry.ks c.adm = none)
    (hport : c.entry.arg 40 2 ≠ 0x0020) (hok : s.featureOk (c.entry.arg 40 2) (c.entry.arg 48 8) (c.entry.arg 56 8) = true) :
    s.setFeatureCmd c = (s.putFeature (c.entry.arg 40 2) c.entry.ks c.adm (c.entry.arg 48 8) (c.entry.arg 56 8)).ok c
      (s.featureValue (c.entry.arg 40 2) c.entry.ks c.adm).1 (s.featureValue (c.entry.arg 40 2) c.entry.ks c.adm).2 := by
  simp [State.setFeatureCmd, hknown, hport, hok]

/-- LOG_READ of the deferred errors (R73, R118). -/
theorem State.logReadCmd_deferred {s : State} {c : Cmd} (hlog : c.entry.arg 40 1 = 2) (hroom : 256 ≤ c.respRoom) (hstart : c.entry.arg 48 8 ≤ 255) :
    let got := (s.kv.deferred.drop (c.entry.arg 48 8)).take (min (c.entry.arg 56 4) (c.respRoom / 256))
    s.logReadCmd c = s.complete c stOk got.length (c.entry.arg 48 8 + got.length) (got.flatMap Deferred.bytes) := by
  simp [State.logReadCmd, hlog, Nat.not_lt.mpr hroom, Nat.not_lt.mpr hstart]

/-- LOG_READ of the event history (R418). -/
theorem State.logReadCmd_events {s : State} {c : Cmd} (hlog : c.entry.arg 40 1 = 1) (hroom : 32 ≤ c.respRoom) (hstart : c.entry.arg 48 8 ≤ s.evr.next) :
    let first := max (c.entry.arg 48 8) s.evr.oldest
    let got := (s.evr.held.filter fun e => decide (first ≤ e.seq)).take (min (c.entry.arg 56 4) (c.respRoom / 32))
    s.logReadCmd c = s.complete c stOk got.length ((got.getLast?.map fun e => e.seq + 1).getD first) (got.flatMap EvRec.bytes) := by
  unfold State.logReadCmd
  simp only [hlog, Nat.not_lt.mpr hroom, Nat.not_lt.mpr hstart, if_false]

/-- CERT_READ within a certificate and with room for its rest (R390). -/
theorem State.certReadCmd_of_room {s : State} {c : Cmd} (hcert : c.entry.arg 40 1 ≤ 2)
    (hoff : c.entry.arg 44 4 ≤ ((Config.cert (c.entry.arg 40 1)).take 2048).length)
    (hroom : ((Config.cert (c.entry.arg 40 1)).take 2048).length - c.entry.arg 44 4 ≤ c.respRoom) :
    s.certReadCmd c = s.complete c stOk ((Config.cert (c.entry.arg 40 1)).take 2048).length 0
      (((Config.cert (c.entry.arg 40 1)).take 2048).drop (c.entry.arg 44 4)) := by
  unfold State.certReadCmd
  simp only [Nat.not_lt.mpr hcert, Nat.not_lt.mpr hoff, Nat.not_lt.mpr hroom]
  rfl

/-- LOG_CLEAR empties the log it names (R74, R419). -/
theorem State.logClearCmd_deferred {s : State} {c : Cmd} (hlog : c.entry.arg 40 1 = 2) :
    s.logClearCmd c = ((s.setKv fun k => { k with deferred := [], defOverflow := 0 }).logEv evLogCleared uEvr 2 s.kv.deferred.length).ok c 0 0 := by
  simp [State.logClearCmd, hlog]

theorem State.logClearCmd_events {s : State} {c : Cmd} (hlog : c.entry.arg 40 1 = 1) : s.logClearCmd c = (s.clearLog1).ok c 0 0 := by
  simp [State.logClearCmd, hlog]

/-- Settles O13. -/
theorem structuresFeaturesAndLogs : Obligations.StructuresFeaturesAndLogs := by
  refine ⟨⟨?_, ?_, ?_, ?_, ?_, ?_, ?_⟩, ?_, ?_, ?_, fun s => rfl⟩
  · exact fun s c hfront hpass hroom => next_runSup hfront hpass (State.summaryCmd_of_room hroom)
  · exact fun s c hfront hpass hroom => next_runSup hfront hpass (State.identCmd_of_room hroom)
  · exact fun s c hfront hpass hroom => next_runSup hfront hpass (State.mirrorStateCmd_of_room hroom)
  · exact fun s c hfront hpass hknown hfree => next_runSup hfront hpass (State.getFeatureCmd_of_known hknown hfree)
  · exact fun s c hfront hpass hlog hroom hstart => next_runSup hfront hpass (State.logReadCmd_deferred hlog hroom hstart)
  · exact fun s c hfront hpass hlog hroom hstart => next_runSup hfront hpass (State.logReadCmd_events hlog hroom hstart)
  · exact fun s c hfront hpass hcert hoff hroom => next_runSup hfront hpass (State.certReadCmd_of_room hcert hoff hroom)
  · exact fun s c hfront hpass hknown hport hok => next_runSup hfront hpass (State.setFeatureCmd_of_ok hknown hport hok)
  · exact fun s c hfront hpass hlog => next_runSup hfront hpass (State.logClearCmd_deferred hlog)
  · exact fun s c hfront hpass hlog => next_runSup hfront hpass (State.logClearCmd_events hlog)

/-- ATTEST with room for its quote joins those that wait for the signer (R392, R393). -/
theorem State.attestCmd_of_room {s : State} {c : Cmd} (h : 864 ≤ c.respRoom) :
    s.attestCmd c = ((s.leave c.adm fun x => { x with st := .signWait s.now }).setSec fun x => { x with attestQ := x.attestQ ++ [c.adm] }).pumpSign := by
  simp [State.attestCmd, Nat.not_lt.mpr h]

/-- The end of a signing completes the ATTEST that is signed (R392). -/
theorem exec_attestSigningDone_of_signing {s : State} {c : Cmd} {g : Nat} (hgrant : s.pumpSign.sec.signGrant = some g)
    (hsigning : (s.pumpSign.cmds.find? fun x => x.st == .signing) = some c) :
    exec .attestSigningDone s = .next (
      (((((s.pumpSign).freeNext).setSec fun x => { x with signGrant := none, quote := [] }).returnGrant g).complete c stOk 864 0
        (fit 480 s.pumpSign.sec.quote ++ pssSign Config.identityKey (sha256 s.pumpSign.sec.quote) (be 32 s.pumpSign.freeVal))).pumpSign) := by
  refine congrArg Host.Outcome.next ?_
  simp only [hgrant, hsigning]

/-- While a quote is being signed the signer takes no other. -/
theorem State.pumpSign_of_signing {s : State} {g : Nat} (h : s.sec.signGrant = some g) : s.pumpSign = s := by
  simp [State.pumpSign, h]

/-- An ATTEST that has waited 100 ms while another one is signed ends with ST_BUSY (R120). -/
theorem exec_attestBusyTimeout_of_waited {adm t g : Nat} {s : State} {c : Cmd} (hgrant : s.sec.signGrant = some g) (hcmd : s.cmd? adm = some c)
    (hst : c.st = .signWait t) (hpast : s.past t (100 * ms) = true) :
    exec (.attestBusyTimeout adm) s = .next (((s.releaseHeld c).fail c stBusy).pumpSign) := by
  refine congrArg Host.Outcome.next ?_
  simp only [State.pumpSign_of_signing hgrant, hcmd, hst, hpast, if_true]

/-- Settles O14. -/
theorem attestRuns : Obligations.AttestRuns := by
  refine ⟨?_, ?_, ?_⟩
  · exact fun s c hfront hpass hroom => next_runSup hfront hpass (State.attestCmd_of_room hroom)
  · exact fun s c g hgrant hsigning => exec_attestSigningDone_of_signing hgrant hsigning
  · exact fun adm t g s c hgrant hcmd hst hpast => exec_attestBusyTimeout_of_waited hgrant hcmd hst hpast

end Sys2Proof.Machine
end

section
/-! Mirror: the actions of MIRROR_CFG past their checks, the handshake, what a message does on arrival, and the timers (09 R297-R321). -/

namespace Sys2Proof.Machine

/-- A MIRROR_CFG whose action is the selected one answers what that action's own part answers, past the common checks (R309). -/
theorem next_runCfg {s t : State} {c : Cmd} {sel : Nat → Bool} {f : State → Cmd → State} (hfront : s.supFront 0x40 = some c) (hpass : s.precheck c = none)
    (hsel : sel (c.entry.arg 40 1) = true) (h : f s c = t) : (.next (s.runCfg sel f) : Host.Outcome State Fault Refusal) = .next t := by
  simp [State.runCfg, hfront, hsel, State.checked_pass hpass, h]

/-- SET_LAG within its bounds stores them (R304). -/
theorem State.setLagCmd_go {s : State} {c : Cmd} (hclean : cfgClean (c.payload.getD []) [(64, 12)] = true) (hspace : (s.spaceOf c).isSome = true)
    (hb : 1048576 ≤ fieldAt (c.payload.getD []) 64 8) (hb' : fieldAt (c.payload.getD []) 64 8 ≤ 1073741824)
    (ht : 100 ≤ fieldAt (c.payload.getD []) 72 4) (ht' : fieldAt (c.payload.getD []) 72 4 ≤ 60000) :
    s.setLagCmd c = (s.setSpaces (inSpace c.entry.ks c.adm) fun k =>
      { k with lagBytes := fieldAt (c.payload.getD []) 64 8, lagMs := fieldAt (c.payload.getD []) 72 4 }).ok c 0 0 := by
  obtain ⟨k, hk⟩ := Option.isSome_iff_exists.mp hspace
  simp [State.setLagCmd, hclean, hk, Nat.not_lt.mpr hb, Nat.not_lt.mpr hb', Nat.not_lt.mpr ht, Nat.not_lt.mpr ht']

/-- UNPAIR with no mirrored key space completes and ends the pairing (R310, R311). -/
theorem State.unpairCmd_of_none_mirrored {s : State} {c : Cmd} (hks : c.entry.ks = 0) (hclean : cfgClean (c.payload.getD []) [] = true)
    (hpair : s.mir.pairing.isSome = true) (hopen : s.mir.unpairAt = none) (hnone : s.mirrored = []) :
    s.unpairCmd c = (((s.setMir fun m => { m with unpairAt := some c.adm, resyncq := [] }).ok c 0 0).endUnpair) := by
  obtain ⟨pr, hpr⟩ := Option.isSome_iff_exists.mp hpair
  simp [State.unpairCmd, hks, hclean, hpr, hopen, hnone]

/-- SET_POLICY of a mirrored key space on a connected link sends the policy to the peer and waits (R312). -/
theorem State.setPolicyCmd_of_mirrored {s : State} {c : Cmd} {k : KeySpace} (hclean : cfgClean (c.payload.getD []) [(56, 1)] = true)
    (hpol : fieldAt (c.payload.getD []) 56 1 ≤ 2) (hspace : s.spaceOf c = some k) (hlink : s.mir.state = 2) (hopen : s.mir.unpairAt = none)
    (hon : k.policyNow ≠ .off) :
    s.setPolicyCmd c = (s.sendCfg k.ks 3 k.ordered (policyOf (fieldAt (c.payload.getD []) 56 1))).1.leave c.adm fun x =>
      { x with st := .mirrorWait, lseq := (s.sendCfg k.ks 3 k.ordered (policyOf (fieldAt (c.payload.getD []) 56 1))).2 } := by
  simp [State.setPolicyCmd, hclean, Nat.not_lt.mpr hpol, hspace, hlink, hopen, hon]

/-- RESYNC of the whole module from here starts a full copy of every mirrored key space that is not hidden (R318). -/
theorem State.resyncCmd_of_all {s : State} {c : Cmd} (hclean : cfgClean (c.payload.getD []) [(56, 2)] = true)
    (hsrc : fieldAt (c.payload.getD []) 56 1 = 0) (hall : fieldAt (c.payload.getD []) 57 1 = 1) (hks : c.entry.ks = 0) (hlink : s.mir.state = 2)
    (hopen : s.mir.unpairAt = none) :
    s.resyncCmd c = ((((s.mirrored.filter fun k => !k.hidden).foldl (fun s k => s.startFull k.ks) s).ok c 0 0).mirrorTurn) := by
  simp [State.resyncCmd, hclean, hsrc, hall, hks, hlink, hopen]

/-- PAIR of an unpaired module stores the pairing, opens the link and completes (R310). -/
theorem State.pairCmd_of_unpaired {s : State} {c : Cmd} (hact : c.entry.arg 40 1 = 1) (hks : c.entry.ks = 0)
    (hclean : cfgClean (c.payload.getD []) [(2, 20), (24, 32)] = true) (hport : fieldAt (c.payload.getD []) 2 1 ≤ 1)
    (halt : fieldAt (c.payload.getD []) 3 1 = 0xFF) (hudp : 1024 ≤ fieldAt (c.payload.getD []) 20 2) (hferry : fieldAt (c.payload.getD []) 20 2 ≠ 4791)
    (hskiff : fieldAt (c.payload.getD []) 20 2 ≠ s.stored.skiffPort) (hlink : s.mir.state ≠ 2)
    (husable : s.portUsable (Fin.ofNat 2 (fieldAt (c.payload.getD []) 2 1)) = true) (hpair : s.mir.pairing = none) :
    let pr : Pairing := { port := Fin.ofNat 2 (fieldAt (c.payload.getD []) 2 1), alt := none, addr := slice (c.payload.getD []) 4 16,
                          udp := fieldAt (c.payload.getD []) 20 2, secret := slice (c.payload.getD []) 24 32,
                          rank := if s.ident.mac0.toNat < (Config.peerMac (slice (c.payload.getD []) 4 16)).toNat then 0 else 1 }
    s.pairCmd c = ((s.setMir fun m => { m with pairing := some pr, unpairAt := none }).openLink).ok c 0 0 := by
  have hother : ¬ 255 = fieldAt (c.payload.getD []) 2 1 := by omega
  simp [-Fin.ofNat_eq_cast, State.pairCmd, hact, hks, hclean, Nat.not_lt.mpr hport, halt, hother, Nat.not_lt.mpr hudp, hferry, hskiff, hlink, husable, hpair]

/-- Settles O15. -/
theorem mirrorCfgActions : Obligations.MirrorCfgActions := by
  refine ⟨?_, ?_, ?_, ?_, ?_⟩
  · intro s c hfront hpass hact hclean hspace hb hb' ht ht'
    exact next_runCfg hfront hpass (by simp [hact]) (State.setLagCmd_go hclean hspace hb hb' ht ht')
  · intro s c hfront hpass hact hks hclean hpair hopen hnone
    exact next_runCfg hfront hpass (by simp [hact]) (State.unpairCmd_of_none_mirrored hks hclean hpair hopen hnone)
  · intro s c k hfront hpass hact hclean hpol hspace hlink hopen hon
    exact next_runCfg hfront hpass (by simp [hact]) (State.setPolicyCmd_of_mirrored hclean hpol hspace hlink hopen hon)
  · intro s c hfront hpass hact hclean hsrc hall hks hlink hopen
    exact next_runCfg hfront hpass (by simp [hact]) (State.resyncCmd_of_all hclean hsrc hall hks hlink hopen)
  · intro s c hfront hpass hact hks hclean hport halt hudp hferry hskiff hlink husable hpair
    exact next_runCfg hfront hpass (by simp [hact]) (State.pairCmd_of_unpaired hact hks hclean hport halt hudp hferry hskiff hlink husable hpair)

/-- A message that belongs in a turn, on a connected link: in order it is queued, an earlier one is acknowledged again, one behind a gap is dropped; REFUSE
apart, nothing of it is taken before `mirrorHeard` (R298, R300). -/
theorem State.mirrorReceive_of_turn {s : State} {typ : Nat} {m : MirrorMsg} (hlink : s.mir.state = 2) (hworks : s.mirrorWorks = true) (hack : typ ≠ 6)
    (hbeat : typ ≠ 7) (hrefuse : typ ≠ 12) :
    s.mirrorReceive typ m =
      if (s.mirrorHeard m).mir.state ≠ 2 then s.mirrorHeard m
      else if unwrap 32 s.mir.rxNext m.lseq = s.mir.rxNext then (s.mirrorHeard m).mirrorNext s.mir.rxNext typ m
      else if unwrap 32 s.mir.rxNext m.lseq < (s.mirrorHeard m).mir.rxNext then (s.mirrorHeard m).mirrorPlain 6 0 [] []
      else s.mirrorHeard m := by
  unfold State.mirrorReceive
  by_cases hin : unwrap 32 s.mir.rxNext m.lseq = s.mir.rxNext
  · simp [hlink, hworks, hack, hbeat, hrefuse, hin]
  · simp [hlink, hworks, hack, hbeat, hrefuse, hin]

/-- ACK and HEARTBEAT let the engine take its turn (R300). -/
theorem State.mirrorReceive_of_ack {s : State} {typ : Nat} {m : MirrorMsg} (hlink : s.mir.state = 2) (hworks : s.mirrorWorks = true) (htyp : typ = 6 ∨ typ = 7) :
    s.mirrorReceive typ m = if (s.mirrorHeard m).mir.state ≠ 2 then s.mirrorHeard m else (s.mirrorHeard m).mirrorTurn := by
  unfold State.mirrorReceive
  rcases htyp with rfl | rfl
  · simp [hlink, hworks]
  · simp [hlink, hworks]

/-- A REFUSE in order takes effect on arrival, and then counts in its turn (R306; log 20). -/
theorem State.mirrorReceive_of_refuse {s : State} {m : MirrorMsg} (hlink : s.mir.state = 2) (hworks : s.mirrorWorks = true)
    (hin : unwrap 32 s.mir.rxNext m.lseq = s.mir.rxNext) :
    let t := (s.takeRefuse (fieldAt m.body 4 4) (BitVec.ofNat 16 (fieldAt m.body 0 2))).mirrorHeard m
    s.mirrorReceive 12 m = if t.mir.state ≠ 2 then t else t.mirrorNext s.mir.rxNext 12 m := by
  unfold State.mirrorReceive
  simp [hlink, hworks, hin]

/-- Settles O38. -/
theorem mirrorMessagesAreTaken : Obligations.MirrorMessagesAreTaken := by
  refine ⟨fun c typ m s hc hlink hworks => ?_, fun c m s hc hlink hworks => ?_, fun m s hlink hworks hin => ?_, fun m s => rfl⟩
  · simp only [List.mem_cons, Prod.mk.injEq, List.not_mem_nil, or_false] at hc
    rcases hc with ⟨rfl, rfl⟩ | ⟨rfl, rfl⟩ | ⟨rfl, rfl⟩ | ⟨rfl, rfl⟩ | ⟨rfl, rfl⟩ | ⟨rfl, rfl⟩ | ⟨rfl, rfl⟩ | ⟨rfl, rfl⟩
    all_goals exact congrArg Host.Outcome.next (State.mirrorReceive_of_turn hlink hworks (by decide) (by decide) (by decide))
  · simp only [List.mem_cons, List.not_mem_nil, or_false] at hc
    rcases hc with rfl | rfl
    all_goals exact congrArg Host.Outcome.next (State.mirrorReceive_of_ack hlink hworks (by decide))
  · exact congrArg Host.Outcome.next (State.mirrorReceive_of_refuse hlink hworks hin)

/-- The peer's HELLO is answered with a HELLO_ACK, behind a new start of a link that has carried messages (R297). -/
theorem exec_mirrorHello_of_peer {rx : Rx} {body : Bytes} {s : State} {pr : Pairing} (hpeer : s.fromPeerAt rx = true) (hpair : s.mir.pairing = some pr) :
    exec (.mirrorHello rx body) s = .next (
      let again := s.mir.state = 2 && s.mir.portInUse == some rx.port && (s.mir.rxNext ≠ 1 || s.mir.lack ≠ 1)
      let t := (if again then s.peerGone else s).setMir fun m => { m with peerPcp := some rx.pcp }
      t.freeNext.mirrorTxOn rx.port (t.freeNext.mirrorDg 2 0 0 0 0 0
        (t.freeNext.helloBody (le 16 t.freeVal) (helloProof pr.secret (body.take 16) (le 16 t.freeVal) (slice body 16 24)
          (fit 24 t.freeNext.ident.serial)) t.freeNext.fwActive))) := by
  refine congrArg Host.Outcome.next ?_
  simp only [hpeer, hpair]
  rfl

section
variable {rx : Rx} {body : Bytes} {s : State} {pr : Pairing} {t : Nat} (hpeer : s.fromPeerAt rx = true) (hpair : s.mir.pairing = some pr)
  (hsent : s.mir.helloSent = some t)
include hpeer hpair hsent

/-- A HELLO_ACK that fails its proof ends the exchange (R297). -/
theorem exec_mirrorHelloAck_of_wrong
    (hproof : slice body 49 32 ≠ helloProof pr.secret s.mir.nonce (body.take 16) (fit 24 s.ident.serial) (slice body 16 24)) :
    exec (.mirrorHelloAck rx body) s = .next (
      (s.setMir fun m => { m with authFailed := true, helloSent := none }).logEv evMirrorAuth uMirror rx.port.val 0) := by
  simp [exec, execMirrorHelloAck, hpeer, hpair, hsent, hproof]

variable (hproof : slice body 49 32 = helloProof pr.secret s.mir.nonce (body.take 16) (fit 24 s.ident.serial) (slice body 16 24))
include hproof

/-- One with the right proof connects the link (R297). -/
theorem exec_mirrorHelloAck_connects (hlink : s.mir.state ≠ 2) :
    exec (.mirrorHelloAck rx body) s = .next (((s.setMir fun m =>
      { m with state := 2, stateAt := s.now, portInUse := some rx.port, linkLost := none, helloSent := none, peerPcp := m.peerPcp.or (some rx.pcp),
               peerSerial := slice body 16 24, peerFw := fieldAt body 40 8, lastRx := s.now,
               rttUs := min ((s.now - t) / 1000) 65535 }).logEv evMirrorState uMirror s.mir.state 2).mirrorTurn) := by
  simp [exec, execMirrorHelloAck, hpeer, hpair, hsent, hproof, hlink]

/-- On a connected link it moves the link to the port that answered (R301). -/
theorem exec_mirrorHelloAck_moves (hlink : s.mir.state = 2) :
    exec (.mirrorHelloAck rx body) s = .next ((s.setMir fun m =>
      { m with state := 2, portInUse := some rx.port, linkLost := none, helloSent := none, peerPcp := m.peerPcp.or (some rx.pcp),
               peerSerial := slice body 16 24, peerFw := fieldAt body 40 8, lastRx := s.now,
               rttUs := min ((s.now - t) / 1000) 65535 }).mirrorTurn) := by
  simp [exec, execMirrorHelloAck, hpeer, hpair, hsent, hproof, hlink]

end

/-- CLOSE ends the link as a loss of the peer does (R310; log 20). -/
theorem State.applyOther_close {s : State} {r : MRecv} (h : r.typ = 13) : s.applyOther r = s.peerGone := by
  simp [State.applyOther, h]

/-- Settles O37. -/
theorem theMirrorLinkOpens : Obligations.TheMirrorLinkOpens := by
  refine ⟨fun rx body s pr hpeer hpair => exec_mirrorHello_of_peer hpeer hpair, ?_, ?_, ?_, fun m s hlink hworks hstill hin => ?_,
    fun s r htyp => State.applyOther_close htyp⟩
  · exact fun rx body s pr t hpeer hpair hsent hproof hlink => exec_mirrorHelloAck_connects hpeer hpair hsent hproof hlink
  · exact fun rx body s pr t hpeer hpair hsent hproof hlink => exec_mirrorHelloAck_moves hpeer hpair hsent hproof hlink
  · exact fun rx body s pr t hpeer hpair hsent hproof => exec_mirrorHelloAck_of_wrong hpeer hpair hsent hproof
  · refine congrArg Host.Outcome.next ?_
    rw [State.mirrorReceive_of_turn hlink hworks (by decide) (by decide) (by decide), if_neg (not_not_intro hstill), if_pos hin]

/-- What the heartbeat timer does while the peer is not connected: a HELLO, where one is due (R297, R301). -/
theorem exec_heartbeatSend_of_opening {s : State} {pr : Pairing} (hpair : s.mir.pairing = some pr) (hworks : s.mirrorWorks = true)
    (hauth : s.mir.authFailed = false) (hlink : s.mirrorTurn.mir.state = 1 ∨ s.mirrorTurn.mir.state = 3) :
    exec .heartbeatSend s = .next (if (s.mirrorTurn.mir.helloSent.all fun a => s.mirrorTurn.past a (50 * ms)) && s.mirrorTurn.mir.unpairAt.isNone
      then s.mirrorTurn.sendHello pr.port else s.mirrorTurn) := by
  simp [exec, execHeartbeatSend, hpair, hworks, hauth, hlink]

/-- On a connected link whose port in use has link: a HEARTBEAT after 50 ms without a message (R300). -/
theorem exec_heartbeatSend_of_connected {s : State} {pr : Pairing} (hpair : s.mir.pairing = some pr) (hworks : s.mirrorWorks = true)
    (hauth : s.mir.authFailed = false) (hlink : s.mirrorTurn.mir.state = 2) (hlost : s.mirrorTurn.mir.linkLost = none) :
    exec .heartbeatSend s = .next (if s.mirrorTurn.past s.mirrorTurn.mir.lastTx (50 * ms) then s.mirrorTurn.mirrorPlain 7 0 [] [] else s.mirrorTurn) := by
  simp [exec, execHeartbeatSend, hpair, hworks, hauth, hlink, hlost]

/-- On a connected link whose port in use has lost its link, a HELLO goes out of the other port as well (R301). -/
theorem exec_heartbeatSend_of_linkLost {s : State} {pr : Pairing} (hpair : s.mir.pairing = some pr) (hworks : s.mirrorWorks = true)
    (hauth : s.mir.authFailed = false) {p : Fin 2} (hlink : s.mirrorTurn.mir.state = 2) (hlost : s.mirrorTurn.mir.linkLost.isSome = true)
    (hother : (if s.mirrorTurn.mir.portInUse == some pr.port then pr.alt else some pr.port) = some p) :
    let u := if (s.mirrorTurn.mir.helloSent.all fun a => s.mirrorTurn.past a (50 * ms)) then s.mirrorTurn.sendHello p else s.mirrorTurn
    exec .heartbeatSend s = .next (if u.past u.mir.lastTx (50 * ms) then u.mirrorPlain 7 0 [] [] else u) := by
  obtain ⟨t, ht⟩ := Option.isSome_iff_exists.mp hlost
  simp only [exec, execHeartbeatSend, hpair, hworks, hauth, hlink, ht, hother]
  simp

/-- What a probe of a refused key space sends: its oldest logged key that is not lost (R306). -/
theorem State.probeItem_of_logged {s : State} {ks : Nat} {e : LogEntry}
    (h : (s.mir.log.find? fun e => e.ks == ks && (s.lookup ks e.key).all fun x => !x.loc.isLost) = some e) :
    s.probeItem ks = some (.key ks e.key fResync) := by
  simp [State.probeItem, h]

section
variable {s : State} {k : KeySpace} {ks : Fin 64} {i : MSync} (hspace : s.space? ks.val = some k) (hrefused : k.ksState = 8)
  (hwhy : k.refuseStatus ≠ stInvalid) (hlink : s.mir.state = 2) (hworks : s.mirrorWorks = true)
  (hdue : (((s.mir.probeAt.find? fun p => p.1 == ks.val).map fun p => p.2).all fun t => s.past t (60 * oneSec)) = true)
  (hitem : s.probeItem ks.val = some i)
include hspace hrefused hwhy hlink hworks hdue hitem

/-- A due probe whose value is not at hand reads it first (R303, R306). -/
theorem exec_refusedProbe_reads (hread : (s.itemRead i).1 = false) : exec (.refusedProbe ks) s = .next (s.itemRead i).2 := by
  simp only [exec, execRefusedProbe, hspace, hrefused, hwhy, hlink, hworks, hdue, hitem, hread]
  rfl

/-- A due probe whose value is at hand is sent, and its number kept for the answer (R306). -/
theorem exec_refusedProbe_sends (hread : (s.itemRead i).1 = true) :
    exec (.refusedProbe ks) s = .next (
      let u := (s.itemRead i).2
      let t := (u.setMir fun m => { m with probeAt := (ks.val, u.now) :: m.probeAt.filter fun p => p.1 != ks.val }).sendItem i
      (t.setMir fun m => { m with logRanges := u.mir.logRanges }).setSpace ks.val fun k => { k with probeLseq := some (t.mir.lseqNext - 1) }) := by
  simp only [exec, execRefusedProbe, hspace, hrefused, hwhy, hlink, hworks, hdue, hitem, hread]
  rfl

end

/-- How a key space out of sync starts again: by its seed, its delta, or a full copy in the direction that R318 gives. -/
theorem State.startSync_cases (s : State) (k : KeySpace) :
    let u := s.setMir fun m => { m with fullKs := m.fullKs.filter fun x => x != k.ks }
    (k.seeding = true → s.startSync k = s) ∧
    (k.seeding = false → k.seedDue = true → s.startSync k = s.offerSeed k.ks) ∧
    (k.seeding = false → k.seedDue = false → s.mir.fullKs.contains k.ks = false → s.startSync k = s.startDelta k.ks) ∧
    (k.seeding = false → k.seedDue = false → s.mir.fullKs.contains k.ks = true →
      (s.mir.interrupted = true → s.startSync k = (u.askFull k.ks 2).syncState k.ks 6) ∧
      (s.mir.interrupted = false → (s.mir.pairing.any fun p => p.rank == 0) = true → s.startSync k = u.startFull k.ks) ∧
      (s.mir.interrupted = false → (s.mir.pairing.any fun p => p.rank == 0) = false → s.startSync k = (u.askFull k.ks 3).syncState k.ks 6)) := by
  intro u
  unfold State.startSync
  refine ⟨fun h => if_pos h, fun h hdue => ?_, fun h hdue hfull => ?_, fun h hdue hfull => ⟨fun hint => ?_, fun hint hrank => ?_, fun hint hrank => ?_⟩⟩
  · rw [if_neg (Bool.eq_false_iff.mp h), if_pos hdue]
  · rw [if_neg (Bool.eq_false_iff.mp h), if_neg (Bool.eq_false_iff.mp hdue), if_neg (Bool.eq_false_iff.mp hfull)]
  · rw [if_neg (Bool.eq_false_iff.mp h), if_neg (Bool.eq_false_iff.mp hdue), if_pos hfull, if_pos hint]
  · rw [if_neg (Bool.eq_false_iff.mp h), if_neg (Bool.eq_false_iff.mp hdue), if_pos hfull, if_neg (Bool.eq_false_iff.mp hint), if_pos hrank]
  · rw [if_neg (Bool.eq_false_iff.mp h), if_neg (Bool.eq_false_iff.mp hdue), if_pos hfull, if_neg (Bool.eq_false_iff.mp hint),
      if_neg (Bool.eq_false_iff.mp hrank)]

/-- Settles O39. -/
theorem mirrorTimersRun : Obligations.MirrorTimersRun := by
  refine ⟨fun s pr hpair hworks hauth => ⟨fun hlink => ?_, fun hlink hlost => ?_, fun p hlink hlost hother => ?_⟩, ?_, ?_, ?_,
    fun ks s e h => State.probeItem_of_logged h, ?_, ?_, ?_, State.startSync_cases⟩
  · exact exec_heartbeatSend_of_opening hpair hworks hauth hlink
  · exact exec_heartbeatSend_of_connected hpair hworks hauth hlink hlost
  · exact exec_heartbeatSend_of_linkLost hpair hworks hauth hlink hlost hother
  · intro s hlink hworks hsent hdue
    simp [exec, execMirrorResendTimer, hlink, hworks, hsent, hdue]
  · intro read s r hread hdue
    simp only [exec, execRepairTimeout, hread, hdue, if_true]
  · intro ks s k i hspace hrefused hwhy hlink hworks hdue hitem
    exact ⟨exec_refusedProbe_reads hspace hrefused hwhy hlink hworks hdue hitem, exec_refusedProbe_sends hspace hrefused hwhy hlink hworks hdue hitem⟩
  · intro s hlink hworks hdue
    simp only [← Bool.or_eq_true] at hdue
    simp [exec, execPeerLost, hlink, hworks, hdue]
  · intro s hpair hserve hdue
    simp only [exec, execMirrorMarkStore, hpair, hserve, hdue]
    rfl
  · intro s hlink hworks
    simp only [exec, execDeltaResyncStart, hlink, hworks]
    rfl

end Sys2Proof.Machine
end

section
/-! The Skiff engine: sessions, their datagrams and how they end (O16-O18). -/

namespace Sys2Proof.Machine

/-- Checking a credential leaves the transports as they are (R398). -/
theorem State.checkCred_tr (s : State) (rx : Rx) (udp : Nat) (lead cred : Bytes) (role : Nat) :
    (s.checkCred rx udp lead cred role).1.tr = s.tr := by
  have h := congrArg State.tr (view_checkCred s rx udp lead cred role (m := 12582912) (by decide))
  exact h

/-- A HELLO to an address of the port, taken where HELLOs are (R126, R133). -/
theorem exec_hello_of_taken {s : State} {rx : Rx} {dg : Bytes} {h : SkiffIn} (hparse : parseSkiff dg = some h) (htyp : h.typ = 1)
    (haccept : s.accepting = true) (haddr : s.ownAddr rx.port rx.localAddr = true) (huse : s.portUsable rx.port = true)
    (hudp : rx.localUdp = s.stored.skiffPort) : exec (.hello rx dg) s = .next (s.takeHello rx (dg.drop 32)) := by
  simp [exec, execHello, hparse, htyp, haccept, haddr, huse, hudp]

/-- A HELLO with an accepted credential, where no session is open, opens one (R133). -/
theorem State.takeHello_granted {s : State} {rx : Rx} {b : Bytes} {role : Nat} (hnone : s.tr.sessions = []) (hfields : helloFieldsOk b = true)
    (hcred : (s.checkCred rx rx.hostUdp (b.take 16) (slice b 16 48) (fieldAt b 4 1)).2 = .granted role) :
    s.takeHello rx b = (s.checkCred rx rx.hostUdp (b.take 16) (slice b 16 48) (fieldAt b 4 1)).1.openSession rx b role := by
  have hkept := s.checkCred_tr rx rx.hostUdp (b.take 16) (slice b 16 48) (fieldAt b 4 1)
  unfold State.takeHello
  generalize s.checkCred rx rx.hostUdp (b.take 16) (slice b 16 48) (fieldAt b 4 1) = k at hcred hkept ⊢
  obtain ⟨t, cred⟩ := k
  dsimp only at hcred hkept
  simp [hnone, hfields, hcred, hkept]

/-- Settles O16. -/
theorem helloOpensASession : Obligations.HelloOpensASession := by
  refine ⟨fun rx dg s h x hparse htyp haccept haddr huse hudp hrepeat => ?_, ?_⟩
  · rw [exec_hello_of_taken hparse htyp haccept haddr huse hudp]
    simp only [State.takeHello, hrepeat]
  · intro rx dg s h role hparse htyp haccept haddr huse hudp hnone hfields k hcred
    rw [exec_hello_of_taken hparse htyp haccept haddr huse hudp, State.takeHello_granted hnone hfields hcred]

/-- The CMD in order on an open session is admitted; a copy of it leaves the hold pool and held CMDs behind it follow (R136, R137). -/
theorem State.takeCmd_admitted {s : State} {rx : Rx} {dg : Bytes} {y : Session} {h : SkiffIn} (hopen : y.st = .opened)
    (hnext : fwd 32 y.hostAck.toNat h.seq.toNat = fwd 32 y.hostAck.toNat y.nextExpected.toNat) (hnear : fwd 32 y.hostAck.toNat h.seq.toNat < 256)
    (hsvc : s.life.svc = none) (hquiet : h.flags / 8 % 2 = 0) (hadmit : (s.cmdNext y h.seq dg).2 = true) :
    s.takeCmd rx dg y h =
      State.drainHeld 256 ((s.cmdNext y h.seq dg).1.setTr fun t => { t with hold := t.hold.filter fun z => !(z.uid == y.uid && z.seq == h.seq) }) y.uid := by
  have hback : ¬ 2 ^ 31 < fwd 32 y.hostAck.toNat h.seq.toNat := by omega
  have hnew : ¬ fwd 32 y.hostAck.toNat h.seq.toNat < fwd 32 y.hostAck.toNat y.nextExpected.toNat := by omega
  have hroom : ¬ 256 ≤ fwd 32 y.hostAck.toNat h.seq.toNat := by omega
  unfold State.takeCmd
  extract_lets d n acked
  rw [if_neg hback, if_neg hnew, if_neg (by simp [hopen]), if_neg hroom, if_pos (by simp [d, n, hnext, hsvc])]
  dsimp only [acked]
  rw [if_pos hadmit, if_neg (by omega)]

/-- Settles O17. -/
theorem sessionDatagrams : Obligations.SessionDatagrams := by
  refine ⟨fun rx dg s x h ho => ?_, fun rx dg s x h ho => ?_, fun rx dg s x h ho hopen => ?_, ?_⟩
  · exact congrArg Host.Outcome.next (State.onSession_open ho _)
  · exact congrArg Host.Outcome.next (State.onSession_open ho _)
  · refine congrArg Host.Outcome.next ((State.onSession_open ho _).trans ?_)
    simp only [hopen, Session.takeAck_uid]
    rfl
  · intro rx dg s x y h ho hy hopen hnext hnear hsvc hquiet hadmit
    have huid : y.uid = x.uid := hy ▸ Session.takeAck_uid x h.ack s.now s.stored.skiffIdle
    simp only [exec, execCmd]
    rw [State.onSession_open ho, ← hy, State.takeCmd_admitted (s := s.setSession x.uid fun _ => y) hopen hnext hnear hsvc hquiet hadmit, huid]

/-- A fragment of a new datagram, where the pool has room, opens a reassembly (R127). -/
theorem exec_ipFragment_opens {s : State} {f : Fragment} (haccept : s.accepting = true) (huse : s.portUsable f.port = true)
    (hudp : s.skiffUdp f.dstUdp = true) (haddr : s.ownAddr f.port f.dstAddr = true)
    (hnew : (s.tr.reasm.find? fun r => r.port == f.port && r.srcAddr == f.srcAddr && r.ident == f.ident) = none) (hroom : s.tr.reasm.length < 1024)
    (hfits : f.offset + f.data.length ≤ 8712) :
    exec (.ipFragment f) s = .next (s.setTr fun t =>
      { t with reasm := t.reasm ++ [{ port := f.port, srcAddr := f.srcAddr, ident := f.ident, frags := [f], since := s.now }] }) := by
  have hpool : ¬ 1024 ≤ s.tr.reasm.length := by omega
  have hlen : ¬ 8712 < f.offset + f.data.length := by omega
  simp only [exec, execIpFragment, haccept, huse, hudp, haddr, hnew, hpool, hlen]
  rfl

/-- Settles O18. -/
theorem sessionsEndAndHeldDatagramsLeave : Obligations.SessionsEndAndHeldDatagramsLeave := by
  refine ⟨⟨fun sid s x hfind => ?_, fun sid s x t hfind hst hdue => ?_, fun sid s x hfind hdue => ?_⟩,
    fun sid seq s => rfl, ?_, fun port a n s => rfl, fun rx k n s huse hmain hlink hown => ?_⟩
  · simp only [exec, execCloseAck, hfind]
  · simp only [exec, execSessionFree, hfind, hst, hdue, if_true]
  · simp only [exec, execSessionExpiry, hfind, hdue, if_true]
  · exact fun f s haccept huse hudp haddr hnew hroom hfits => exec_ipFragment_opens haccept huse hudp haddr hnew hroom hfits
  · simp [exec, execArpNdEchoRequest, huse, hmain, hlink, hown]

end Sys2Proof.Machine
end

section
/-! The Ferry engine: queue pairs from their connection to their end (O19). -/

namespace Sys2Proof.Machine

/-- A connection request with an accepted credential (R149). -/
theorem exec_connectionReq_granted {rx : Rx} {priv : Bytes} {s : State} {role : Nat} (hvariant : s.part.ta = true) (haccept : s.accepting = true)
    (huse : s.portUsable rx.port = true) (haddr : s.ownAddr rx.port rx.localAddr = true) (hfields : reqFieldsOk priv = true)
    (hcred : (s.checkCred rx 0 (priv.take 40) (slice priv 40 48) (fieldAt priv 1 1)).2 = .granted role) :
    exec (.connectionReq rx priv) s = .next ((s.checkCred rx 0 (priv.take 40) (slice priv 40 48) (fieldAt priv 1 1)).1.openQp rx priv role) := by
  simp only [exec, execConnectionReq]
  generalize s.checkCred rx 0 (priv.take 40) (slice priv 40 48) (fieldAt priv 1 1) = k at hcred ⊢
  obtain ⟨t, cred⟩ := k
  dsimp only at hcred
  simp [hvariant, haccept, huse, haddr, hfields, hcred]

/-- A doorbell of 8 bytes for the tail, with both pointers in range, moves it (R151, R152). -/
theorem State.ringDoorbell_tail {s : State} {q : Qp} {data : Bytes} (hopen : q.st = .opened) (hlen : data.length = 8)
    (htail : fieldAt data 0 2 < q.sqEntries) (hhead : q.cqHead < q.cqEntries) :
    s.ringDoorbell q 0 data = (s.setQp q.uid fun q' => { q'.moveHead q.cqHead with sqTail := fieldAt data 0 2, retries := 0 }).fetchMore 128 q.uid := by
  unfold State.ringDoorbell
  simp [hopen, hlen, Nat.not_le.mpr htail, Nat.not_le.mpr hhead]

/-- That doorbell on a queue pair in service takes effect at once. -/
theorem exec_doorbell_tail {qp : Fin 1024} {data : Bytes} {s : State} {q : Qp} (hqp : s.qpOf qp.val = some q) (hopen : q.st = .opened)
    (hup : s.qpUp q = true) (hsvc : s.life.svc = none) (hlen : data.length = 8) (htail : fieldAt data 0 2 < q.sqEntries) (hhead : q.cqHead < q.cqEntries) :
    exec (.doorbell qp 0 data) s =
      .next ((s.setQp q.uid fun q' => { q'.moveHead q.cqHead with sqTail := fieldAt data 0 2, retries := 0 }).fetchMore 128 q.uid) := by
  rw [← State.ringDoorbell_tail (s := s) hopen hlen htail hhead]
  simp [exec, execDoorbell, hqp, hopen, hup, hlen, hsvc]

section
variable {qp : Fin 1024} {entries : List Bytes} {s : State} {q : Qp} {rest : List Nat} (hqp : s.qpOf qp.val = some q)
  (hreads : q.reads = entries.length :: rest) (hopen : q.st = .opened) (haccept : s.accepting = true) (hup : s.qpUp q = true)
include hqp hreads hopen haccept hup

/-- Fetched entries are admitted and fetching goes on (R154). -/
theorem exec_entryFetchResponse_in_service (hsvc : s.life.svc = none) :
    exec (.entryFetchResponse qp entries) s = .next (
      (((s.setQp q.uid fun q' => { q' with reads := rest, retries := 0, sentAt := s.now }).admitFetched q.uid entries).fetchMore 128 q.uid).pumpPay
        (.ferry q.uid)) := by
  have hkept : (s.setQp q.uid fun q' => { q' with reads := rest, retries := 0, sentAt := s.now }).life.svc = none := hsvc
  simp [exec, execEntryFetchResponse, hqp, hreads, hopen, haccept, hup, hkept]

/-- During a service reset they are kept (R164; log 74). -/
theorem exec_entryFetchResponse_in_reset (hsvc : s.life.svc.isSome = true) :
    exec (.entryFetchResponse qp entries) s = .next ((s.setQp q.uid fun q' => { q' with reads := rest, retries := 0, sentAt := s.now }).setQp
      q.uid fun q' => { q' with fetched := q'.fetched ++ [entries] }) := by
  have hkept : (s.setQp q.uid fun q' => { q' with reads := rest, retries := 0, sentAt := s.now }).life.svc.isSome = true := hsvc
  simp [exec, execEntryFetchResponse, hqp, hreads, hopen, haccept, hup, hkept]

end

/-- Changing a queue pair leaves the commands as they are. -/
theorem State.setQp_cmd? (s : State) (uid adm : Nat) (f : Qp → Qp) : (s.setQp uid f).cmd? adm = s.cmd? adm := rfl

/-- A fetched payload goes to its command (R155). -/
theorem exec_payloadFetchResponse_of_cmd {adm : Nat} {data : Bytes} {s : State} {q : Qp} {c : Cmd}
    (hread : (s.openQps.find? fun q => q.payReads.head? == some adm) = some q) (hup : s.qpUp q = true) (hcmd : s.cmd? adm = some c)
    (hlen : data.length = c.entry.reqLen) :
    let t := s.setQp q.uid fun q => { q with payReads := q.payReads.drop 1, retries := 0, sentAt := s.now }
    exec (.payloadFetchResponse adm data) s = .next (((t.takePayload c data).fetchMore 128 q.uid).pumpPay (.ferry q.uid)) := by
  simp [exec, execPayloadFetchResponse, hread, hup, State.setQp_cmd?, hcmd, hlen]

/-- The oldest completion that waits is written where its queue has room (R157, R159). -/
theorem exec_completionWrite_of_room {qp : Fin 1024} {s : State} {q : Qp} {k : Completion} {rest : List Completion} (hqp : s.qpOf qp.val = some q)
    (hwait : q.cplWait = k :: rest) (hroom : q.cqRoom = true) (hup : s.qpUp q = true) (hrnr : q.rnr = false) :
    exec (.completionWrite qp) s = .next (
      let tail := (q.cqTail + 1) % q.cqEntries
      let note := q.notifies s.now
      let t := (s.setQp q.uid fun q =>
        { q with cplWait := rest, posted := q.posted ++ [k.adm], cqTail := tail, phase := if tail = 0 then !q.phase else q.phase, defFlag := false,
                 unNotified := if note || q.notifyMode ≠ 2 then 0 else q.unNotified + 1,
                 oldestUn := if q.unNotified = 0 then s.now else q.oldestUn, cmds := q.cmds.finish, sentAt := s.now }).sendRoce q.rx q.qp
          (.writeCompletion (q.cqAddr + 32 * q.cqTail) ({ k with def_ := q.defFlag }.entry q.phase) (if note then some (q.imm tail) else none)) 48
      (((if note then t.spendReceive q.uid else t).fetchMore 128 q.uid).settleQp q.uid)) := by
  simp only [exec, execCompletionWrite, hqp, hwait, hroom, hup, hrnr]
  rfl

/-- The command whose payload transfer failed completes with ST_HOST_ACCESS and its connection ends (R84, R163). -/
theorem State.nakTransfer_of_cmd {adm : Nat} {s : State} {q : Qp} {c : Cmd} (hqp : s.qpOfTransfer adm = some q) (hcmd : s.cmd? adm = some c)
    (hearly : (c.cancellable || c.payload.isNone) = true) :
    s.nakTransfer adm = (((((s.setQp q.uid fun q => { q with st := .ended false }).failMoves c).releaseHeld c).fail c stHostAccess).endConnection
      q.uid false).discardOf (.ferry q.uid) := by
  simp only [State.nakTransfer, hqp, State.failTransfer, State.setQp_cmd?, hcmd, hearly, if_true]

/-- A completion that still waits to be written is replaced by ST_HOST_ACCESS, and an offer by it undone (R84, R163). -/
theorem State.nakTransfer_of_completion {adm : Nat} {s : State} {q : Qp} (hqp : s.qpOfTransfer adm = some q) (hcmd : s.cmd? adm = none) :
    s.nakTransfer adm = ((((s.setQp q.uid fun q => { q with st := .ended false }).setUpd fun u => u.undoOffer adm).setQp
      q.uid fun q => { q with cplWait := q.cplWait.map fun k => if k.adm = adm then
        { k with status := stHostAccess, result0 := 0, result1 := 0, early := false, part := none } else k }).endConnection q.uid false).discardOf
          (.ferry q.uid) := by
  simp only [State.nakTransfer, hqp, State.failTransfer, State.setQp_cmd?, hcmd]

/-- The timer of a notification that is due, with nothing left to write (R159). -/
theorem exec_notifyTimer_due {qp : Fin 1024} {s : State} {q : Qp} (hqp : s.qpOf qp.val = some q) (hmode : q.notifyMode = 2) (hsome : 0 < q.unNotified)
    (hdue : s.past q.oldestUn (q.notifyUs * 1000) = true) (hwait : q.cplWait = []) (hopen : q.st = .opened) (hup : s.qpUp q = true)
    (hrnr : q.rnr = false) :
    exec (.notifyTimer qp) s = .next
      (((s.setQp q.uid fun q' => { q' with unNotified := 0, sentAt := s.now }).sendRoce q.rx q.qp (.immediate (q.imm q.cqTail)) 0).spendReceive q.uid) := by
  simp [exec, execNotifyTimer, hqp, hmode, hsome, hdue, hwait, hopen, hup, hrnr]

/-- Settles O19. -/
theorem queuePairsMoveOnAndEnd : Obligations.QueuePairsMoveOnAndEnd := by
  refine ⟨⟨?_, ?_, ?_, fun uid entries s q hqp => ?_, ?_, ?_, ?_, ?_⟩, fun qp s q hqp => ⟨?_, ?_⟩, fun qp s q hqp hdue => ⟨fun hlast => ?_, fun hmore => ?_⟩,
    ?_, ?_, fun qp s hqp => ?_⟩
  · intro rx priv s role hvariant haccept huse haddr hfields k hcred
    exact exec_connectionReq_granted hvariant haccept huse haddr hfields hcred
  · exact fun qp data s q hqp hopen hup hsvc hlen htail hhead _ => exec_doorbell_tail hqp hopen hup hsvc hlen htail hhead
  · exact fun qp entries s q rest hqp hreads hopen hsvc haccept hup => exec_entryFetchResponse_in_service hqp hreads hopen haccept hup hsvc
  · simp only [State.admitFetched, hqp]
  · exact fun qp entries s q rest hqp hreads hopen hsvc haccept hup => exec_entryFetchResponse_in_reset hqp hreads hopen haccept hup hsvc
  · exact fun adm data s q c hread hup hcmd hlen => exec_payloadFetchResponse_of_cmd hread hup hcmd hlen
  · exact fun qp s q k rest hqp hwait hroom hup hrnr => exec_completionWrite_of_room hqp hwait hroom hup hrnr
  · exact fun qp s q hqp hmode hsome hdue hwait hopen hup hrnr => exec_notifyTimer_due hqp hmode hsome hdue hwait hopen hup hrnr
  · simp only [exec, execHostDisconnect, hqp]
  · simp only [exec, execConnectionFailure, hqp]
  · simp [exec, execLocalAckTimeout, hqp, hdue, hlast]
  · simp [exec, execLocalAckTimeout, hqp, hdue, Nat.not_le.mpr hmore]
  · exact fun adm s q c hqp hcmd hearly => congrArg Host.Outcome.next (State.nakTransfer_of_cmd hqp hcmd hearly)
  · exact fun adm s q hqp hcmd => congrArg Host.Outcome.next (State.nakTransfer_of_completion hqp hcmd)
  · simp only [exec, execQueuePairFree, hqp] <;> rfl

end Sys2Proof.Machine
end

section
/-! Firmware update: the commands, and what a session does by itself (O20-O24). -/

namespace Sys2Proof.Machine

-- UPD_OFFER.

/-- Whether an offered image is for this part, in its version range and not rejected before (R366 rules 3 and 4). -/
def State.offerFits (s : State) (h : Bytes) : Bool :=
  let known := fun (x : Slot) => x.state == 5 && x.hash == sha256 h
  bitOf (hdr h 4 1) s.part.hdrBit &&
    (s.life.recovery || (decide (verKey (hdr h 16 8) ≤ verKey s.fwActive) && decide (verKey s.fwActive ≤ verKey (hdr h 24 8)))) &&
    !(known s.upd.slotA || known s.upd.slotB)

/-- UPD_OFFER as the rules of R366 in order, the middle ones as one test. -/
theorem State.offer_eq (s : State) (c : Cmd) :
    s.offer c =
      let h := c.payload.getD []
      let src := s.srcOf c
      let t := s.heardFrom src
      if !headerOk h then t.fail c stInvalid
      else if c.respRoom < 128 then t.fail c stBufferShort
      else if s.runningSlot.hash == sha256 h then t.complete c stOk (blockCount h + 1) 0 (bitmap (List.range (blockCount h + 1)))
      else if !s.offerFits h then t.fail c stUpdIncompatible
      else if s.upd.state ≠ 0 && sha256 s.upd.header == sha256 h then
        ((t.setUpd fun u => { u with sources := if u.has src then u.sources else u.sources ++ [src], idleS := t.now }).noteOffer t c src).complete
          c stOk s.upd.held.length 0 (bitmap s.upd.held)
      else if s.upd.state ≠ 0 then
        if (s.upd.state = 1 || s.upd.state = 3) && s.upd.isFirst src then
          ((t.abandonUpdate.openUpdate src h).noteOffer t c src).complete c stOk 0 0 (bitmap [])
        else t.complete c stUpdBusy (hdr s.upd.header 8 8) ((s.upd.sources.head?.map UpdSrc.code).getD 0) []
      else ((t.openUpdate src h).noteOffer t c src).complete c stOk 0 0 (bitmap []) := by
  have hsplit : ∀ a b x y : Bool, (!(a && b && !(x || y))) = (!a || !b || x || y) := by decide
  unfold State.offer State.offerFits
  dsimp only
  rw [hsplit]

/-- Settles O20. -/
theorem updOfferRuns : Obligations.UpdOfferRuns := by
  intro s c hfront hpass h n u t known own fits
  have hrun : exec .updOffer s = .next (s.offer c) := next_runSup hfront hpass rfl
  rw [hrun, State.offer_eq]
  have hfits : s.offerFits h = fits := rfl
  have hown : s.upd.isFirst (s.srcOf c) = own := rfl
  have ht : s.heardFrom (s.srcOf c) = t := rfl
  simp only [ht, hown]
  refine ⟨fun hbad => ?_, fun hok hshort => ?_, fun hok hroom hsame => ?_, fun hok hroom hother => ?_⟩
  · rw [if_pos (by rw [show headerOk (c.payload.getD []) = false from hbad]; rfl)]
  · rw [if_neg (by rw [show headerOk (c.payload.getD []) = true from hok]; decide), if_pos hshort]
  · rw [if_neg (by rw [show headerOk (c.payload.getD []) = true from hok]; decide), if_neg (by omega), if_pos (beq_iff_eq.mpr hsame)]
  · rw [if_neg (by rw [show headerOk (c.payload.getD []) = true from hok]; decide), if_neg (by omega), if_neg (by simpa using hother)]
    rw [show s.offerFits (c.payload.getD []) = fits from hfits]
    refine ⟨fun hno => ?_, fun hyes hopen hsame => ?_, fun hyes hfresh hnew howner => ?_, fun hyes hopen hnew hlate => ?_, fun hyes hidle => ?_⟩
    · rw [if_pos (by rw [hno]; rfl)]
    · rw [if_neg (by rw [hyes]; decide), if_pos (by simp only [Bool.and_eq_true, decide_eq_true_eq, beq_iff_eq]; exact ⟨hopen, hsame⟩)]
    · have hopen : s.upd.state ≠ 0 := by change u.state ≠ 0; omega
      rw [if_neg (by rw [hyes]; decide), if_neg (by simp only [Bool.and_eq_true, beq_iff_eq]; exact fun e => hnew e.2), if_pos hopen,
        if_pos (by simp only [Bool.and_eq_true, Bool.or_eq_true, decide_eq_true_eq]; exact ⟨hfresh, howner⟩)]
    · rw [if_neg (by rw [hyes]; decide), if_neg (by simp only [Bool.and_eq_true, beq_iff_eq]; exact fun e => hnew e.2), if_pos hopen, if_neg]
      simp only [Bool.and_eq_true, Bool.or_eq_true, decide_eq_true_eq]
      rintro ⟨hfresh, howner⟩
      rcases hlate with hstate | hforeign
      · exact hstate hfresh
      · exact absurd howner (Bool.eq_false_iff.mp hforeign)
    · rw [if_neg (by rw [hyes]; decide), if_neg (by simp only [Bool.and_eq_true, decide_eq_true_eq]; exact fun e => e.1 hidle), if_neg (not_not_intro hidle)]

-- UPD_BLOCK.

/-- A command of the session moves no more than its timer: time and the rest of the session stay. -/
theorem State.heardFrom_now (s : State) (src : UpdSrc) : (s.heardFrom src).now = s.now := by
  rw [State.heardFrom_eq]
  rfl

theorem State.heardFrom_state (s : State) (src : UpdSrc) : (s.heardFrom src).upd.state = s.upd.state := by
  rw [State.heardFrom_eq]
  rfl

theorem State.heardFrom_badSigLast (s : State) (src : UpdSrc) : (s.heardFrom src).upd.badSigLast = s.upd.badSigLast := by
  rw [State.heardFrom_eq]
  rfl

theorem State.heardFrom_recovery (s : State) (src : UpdSrc) : (s.heardFrom src).life.recovery = s.life.recovery := by
  rw [State.heardFrom_eq]
  rfl

theorem State.heardFrom_compatible (s : State) (src : UpdSrc) : (s.heardFrom src).compatible = s.compatible := by
  rw [State.heardFrom_eq]
  rfl

/-- Settles O21. -/
theorem updBlockRuns : Obligations.UpdBlockRuns := by
  intro s c hfront hpass src i data t old goesOn all
  have hrun : exec .updBlock s = .next (s.block c) := next_runSup hfront hpass rfl
  have hblock : s.block c =
      if s.upd.state ≠ 1 || !s.upd.has src then t.fail c stUpdState
      else if blockCount s.upd.header < i || blockLen s.upd.header i < c.entry.arg 44 4 + data.length then t.fail c stInvalid
      else if s.upd.held.contains i then t.ok c 1 0
      else if !goesOn then t.fail c stSeq
      else if all.length = blockLen s.upd.header i then t.blockComplete c src i all
      else (t.setUpd fun u =>
        { u with partials := u.partials.filter (fun p => p.index != i) ++ [{ index := i, owner := src, data := all, at_ := t.now }] }).ok c 0 0 := rfl
  have hnow : t.now = s.now := s.heardFrom_now src
  rw [hrun, hblock, hnow]
  refine ⟨fun hno => ?_, fun hstate hsrc => ⟨fun hbeyond => ?_, fun hindex hlen => ⟨fun hheld => ?_, fun hheld => ⟨fun hgap => ?_, fun hgo hmore => ?_,
    fun hgo hfull => ?_⟩⟩⟩⟩
  · rw [if_pos (by simpa using hno)]
  all_goals rw [if_neg (by simp [hstate, hsrc])]
  · rw [if_pos (by simpa using hbeyond)]
  all_goals rw [if_neg (by simp [Nat.not_lt.mpr hindex, Nat.not_lt.mpr hlen])]
  · rw [if_pos hheld]
  all_goals rw [if_neg (Bool.eq_false_iff.mp hheld)]
  · rw [if_pos (by rw [hgap]; rfl)]
  all_goals rw [if_neg (by rw [hgo]; decide)]
  · rw [if_neg hmore]
  · rw [if_pos hfull]

-- UPD_ACTIVATE and UPD_CONFIRM.

/-- UPD_ACTIVATE by the state of the session (R370). -/
theorem State.activateCmd_eq (s : State) (c : Cmd) :
    s.activateCmd c =
      let t := s.heardFrom (s.srcOf c)
      match s.upd.state with
      | 3 => if s.life.recovery || s.compatible then t.beginActivation (some c.adm) else t.fail c stUpdIncompatible
      | 2 => (t.leave c.adm fun c => { c with st := .activating }).setUpd fun u => { u with waitAct := u.waitAct ++ [c.adm] }
      | 0 => t.fail c (if s.upd.badSigLast then stUpdBadSig else stUpdState)
      | _ => t.fail c stUpdState := by
  simp only [State.activateCmd, State.activate, State.heardFrom_state, State.heardFrom_badSigLast, State.heardFrom_recovery, State.heardFrom_compatible] <;> rfl

/-- Settles O22. -/
theorem updActivateAndConfirmRun : Obligations.UpdActivateAndConfirmRun := by
  refine ⟨?_, fun s c hfront hpass => ⟨fun hconf => ?_, fun hother => ?_⟩⟩
  · intro s c hfront hpass t
    have hrun : exec .updActivate s = .next (s.activateCmd c) := next_runSup hfront hpass rfl
    have ht : s.heardFrom (s.srcOf c) = t := rfl
    rw [hrun, State.activateCmd_eq, ht]
    refine ⟨fun hready hgo => ?_, fun hready hrec hcomp => ?_, fun hverify => ?_, fun hidle => ?_, fun h0 h2 h3 => ?_⟩
    · simp only [hready, if_pos (show (s.life.recovery || s.compatible) = true by simpa using hgo)]
    · simp only [hready, hrec, hcomp]
      rfl
    · simp only [hverify]
    · simp only [hidle]
    · dsimp only
      split
      · contradiction
      · contradiction
      · contradiction
      · rfl
  · exact next_runSup hfront hpass (if_pos hconf)
  · exact next_runSup hfront hpass (if_neg hother)

-- How a session ends.

/-- Changing one slot keeps the other ones. -/
theorem Update.setSlot_slot_of_ne {u : Update} {n k : Nat} (f : Slot → Slot) (hne : k ≠ n) (hk : k < 2) (hn : n < 2) : (u.setSlot n f).slot k = u.slot k := by
  obtain rfl | rfl : k = 0 ∨ k = 1 := by omega
  · obtain rfl : n = 1 := by omega
    rfl
  · obtain rfl : n = 0 := by omega
    rfl

/-- Sessions with the same three slots have the same slot of every number. -/
theorem Update.slot_congr {u v : Update} {n : Nat} (hA : u.slotA = v.slotA) (hB : u.slotB = v.slotB) (hR : u.slotR = v.slotR) : u.slot n = v.slot n := by
  simp only [Update.slot, hA, hB, hR]

/-- What confirmation makes of the slot of the previous image (R380). -/
theorem State.confirm_previous {s : State} (by_ : Nat) (hne : s.upd.confirmed ≠ s.upd.active) (hc : s.upd.confirmed < 2) (ha : s.upd.active < 2) :
    ((s.confirm by_).upd.slot s.upd.confirmed).state = if (s.upd.slot s.upd.confirmed).state = 3 then 4 else (s.upd.slot s.upd.confirmed).state := by
  have hslot : (s.confirm by_).upd.slot s.upd.confirmed =
      (((s.upd.setSlot s.upd.active fun x => { x with state := 3 }).setSlot s.upd.confirmed fun x =>
        { x with state := if s.upd.confirmed = s.upd.active then 3 else if x.state = 3 then 4 else x.state }).slot s.upd.confirmed) := by
    simp only [State.confirm, State.logEv_upd, State.endSession_slot]
    exact Update.slot_congr rfl rfl rfl
  rw [hslot, Update.setSlot_slot, Update.setSlot_slot_of_ne _ hne hc ha]
  exact if_neg hne

/-- Settles O23. -/
theorem updateSessionsEnd : Obligations.UpdateSessionsEnd := by
  refine ⟨fun s by_ => ⟨?_, ?_, ?_, ⟨_, _, rfl⟩, fun hne hc ha => State.confirm_previous by_ hne hc ha⟩, fun s hstate hidle => ?_,
    fun s => ⟨?_, ?_, ?_, ⟨_, rfl⟩⟩⟩
  · simp only [State.confirm, State.logEv_upd, State.endSession_confirmed]
    exact congrArg (· % 2) ((Update.setSlot_active _ _ _).trans (Update.setSlot_active _ _ _))
  · simp only [State.confirm, State.logEv_upd, State.endSession_result]
  · simp only [State.confirm, State.logEv_upd, State.endSession_state]
  · simp [exec, execUpdSessionAbandon, hstate, hidle]
  · simp only [State.abandonUpdate, State.logEv_upd, State.endSession_slot, State.endSession_target]
    exact (congrArg _ (Update.setSlot_target _ _ _)).trans (Update.setSlot_slot _ _ _)
  · simp only [State.abandonUpdate, State.logEv_upd, State.endSession_state]
  · simp only [State.abandonUpdate, State.logEv_upd, State.endSession_result]

-- What a session does by itself.

/-- Two changes of the forward that agree on it are one. -/
theorem State.setFwd_congr {s : State} {f g : Fwd → Fwd} (h : f s.upd.fwd = g s.upd.fwd) : s.setFwd f = s.setFwd g := by
  simp only [State.setFwd, State.setUpd, h]

/-- Verification that finds a bad block: the bad ones are wanted again (R369). -/
theorem State.verified_bad {t : State} {bad : List Nat} (h : (t.upd.held.any fun i => bad.contains i) = true) :
    t.verified bad = (t.setUpd fun u => { (u.setSlot u.target fun x => { x with blocks := x.blocks.filter (fun b => !bad.contains b.1) }) with
      state := 1, held := u.held.filter fun i => !bad.contains i }).decideWaiting :=
  if_pos h

/-- Verification of good blocks: the signature decides (R369). -/
theorem State.verified_good {t : State} {bad : List Nat} (h : (t.upd.held.any fun i => bad.contains i) = false) :
    t.verified bad =
      if (t.upd.slot t.upd.target).verifies then
        ((t.setUpd fun u => { (u.setSlot u.target fun x => { x with state := 2 }) with state := 3 }).logEv evUpdVerified uUpdate
          (verParam (t.upd.slot t.upd.target).version) ((t.now - t.upd.verifyAt) / ms)).decideWaiting
      else
        ((((t.fwdAbandon.setUpd fun u => u.setSlot u.target fun x => { x with state := 6 }).endSession 4).setUpd fun u =>
          { u with badSigLast := true }).logEv evUpdBadSig uUpdate (verParam (t.upd.slot t.upd.target).version) 0).decideWaiting :=
  if_neg (Bool.eq_false_iff.mp h)

/-- The end of a verification whose tokens are held. -/
theorem exec_updVerificationDone_of_held {bad : List Nat} {s : State} (hstate : s.upd.state = 2) (hrun : s.running = true)
    (hheld : (s.grantFor .verifying).isSome = true) : exec (.updVerificationDone bad) s = .next ((s.returnFor .verifying).verified bad) := by
  obtain ⟨g, hg⟩ := Option.isSome_iff_exists.mp hheld
  simp [exec, execUpdVerificationDone, hstate, hrun, hg]

/-- The neighbour has taken a block (R372). -/
theorem exec_cfForwardResponse_blockOk {s : State} {i : Nat} (hstate : s.upd.fwd.state = 2) (hrun : s.running = true)
    (hsent : s.upd.fwd.sent.contains i = true) (hnew : s.upd.fwd.held.contains i = false) :
    exec (.cfForwardResponse (.blockOk i)) s = .next (
      (s.setFwd fun f => { f.answered (some i) with held := f.held ++ [i], status := stOk, since := s.now }).fwdPump) := by
  have hsame : s.setFwd (fun f => { f.answered (some i) with held := if f.held.contains i then f.held else f.held ++ [i], status := stOk, since := s.now }) =
      s.setFwd (fun f => { f.answered (some i) with held := f.held ++ [i], status := stOk, since := s.now }) :=
    State.setFwd_congr (by dsimp only; rw [if_neg (Bool.eq_false_iff.mp hnew)])
  rw [← hsame]
  simp only [exec, execCfForwardResponse, hstate, hrun, hsent]
  rfl

section
variable {e : StepEnd} {s : State} (hrun : s.running = true) (hstate : s.upd.state = 4) (hrec : s.life.recovery = false) (hroll : s.upd.rollback = false)
  (hdrained : s.stepDrained = true)
include hrun hstate hrec hroll hdrained

/-- Step 2 of an activation reverts it where a required record does not convert (R378; log 68). -/
theorem exec_activationStepDone_refused (hstep : s.upd.step = 2) (hconv : e.converts = false) : exec (.activationStepDone e) s = .next s.refuseHandOver := by
  simp [exec, execActivationStepDone, hrun, hstate, hrec, hroll, hdrained, hstep, hconv]

/-- A step of an activation before its last one ends (R376). -/
theorem exec_activationStepDone_next (hfirst : 1 ≤ s.upd.step) (hstep : s.upd.step < 5) (hconv : s.upd.step = 2 → e.converts = true) :
    exec (.activationStepDone e) s = .next (
      ((s.logEv evUpdStep uUpdate s.upd.step e.holdUs).stepEffect s.upd.step s.upd.target).setUpd fun u => { u with step := u.step + 1 }) := by
  have hle : s.upd.step ≤ 5 := by omega
  simp only [exec, execActivationStepDone, hrun, hstate, hrec, hroll, hdrained, hfirst, hle, hstep]
  by_cases htwo : s.upd.step = 2
  · simp [htwo, hconv htwo]
  · simp [htwo]

/-- The last step of an activation ends (R376). -/
theorem exec_activationStepDone_last (hstep : s.upd.step = 5) :
    exec (.activationStepDone e) s = .next (((s.logEv evUpdStep uUpdate 5 e.holdUs).stepEffect 5 s.upd.target).stepsEnd) := by
  simp [exec, execActivationStepDone, hrun, hstate, hrec, hroll, hdrained, hstep]

end

/-- Settles O24. -/
theorem updateSessionsMoveOnAndConfirm : Obligations.UpdateSessionsMoveOnAndConfirm := by
  refine ⟨⟨?_, fun s => rfl, ?_, ?_, fun s op resp args payload => rfl, ?_, ?_, ?_⟩, ?_, ?_⟩
  · intro bad s hstate hrun hheld t
    rw [exec_updVerificationDone_of_held hstate hrun hheld]
    exact ⟨fun hbad => congrArg _ (State.verified_bad hbad), fun hgood => congrArg _ (State.verified_good hgood)⟩
  · intro s hstate hrun hdue hyoung
    simp [exec, execCfForwardRetry, hstate, hrun, hdue, hyoung]
  · intro s hstate hrun sid cookie
    simp [exec, execCfForwardResponse, hstate, hrun]
  · exact fun s i hstate hrun hsent hnew => exec_cfForwardResponse_blockOk hstate hrun hsent hnew
  · intro s hstate hrun hself hfirst hfwd hauto hcomp
    simp only [exec, execSelfActivation, hstate, hrun, hself, hfirst, hfwd, hauto, hcomp]
    rfl
  · intro e s hrun hstate hrec hroll hfirst hdrained
    exact ⟨fun hstep hconv => exec_activationStepDone_refused hrun hstate hrec hroll hdrained hstep hconv,
      fun hstep hconv => exec_activationStepDone_next hrun hstate hrec hroll hdrained hfirst hstep hconv,
      fun hstep => exec_activationStepDone_last hrun hstate hrec hroll hdrained hstep⟩
  · intro s hstate hrun htest
    simp [exec, execSelfTestPass, hstate, hrun, htest]
  · intro s hstate hdue
    simp [exec, execConfirmTimeout, hstate, hdue]

end Sys2Proof.Machine
end

section
/-! The drain, the journal, the index and the array by themselves (O25-O28). -/

namespace Sys2Proof.Machine

-- The drain.

section
variable {jseq : Nat} {s : State} {j : Job} {i : JobItem} {r : LRec} (hjob : (s.flash.jobs.find? fun j => j.items.any fun i => i.jseq == some jseq) = some j)
  (hitem : (j.items.find? fun i => i.jseq == some jseq) = some i) (hdur : s.jDurable jseq = true) (hnew : i.old = none)
  (hrec : i.land.bind s.rec? = some r) (hwt : r.wt = false)
include hjob hitem hdur hnew hrec hwt

/-- A durable map record whose write has been superseded: its copy is journalled as dead. -/
theorem exec_mapRecordDurable_overtaken (h : ((s.jrn.at_ jseq).any JRec.isMapSet && s.overtaken r) = true) :
    exec (.mapRecordDurable jseq) s = .next (s.journalDead j i r.ks) := by
  simp only [exec, execMapRecordDurable, hjob, hitem, hdur, hnew, hrec, hwt, h]
  rfl

/-- A durable map record moves its locator. -/
theorem exec_mapRecordDurable_current (h : ((s.jrn.at_ jseq).any JRec.isMapSet && s.overtaken r) = false) :
    exec (.mapRecordDurable jseq) s = .next (((s.itemDone j jseq).drained j.seg i r ((s.jrn.at_ jseq).any JRec.isMapSet)).pumpDrain) := by
  simp only [exec, execMapRecordDurable, hjob, hitem, hdur, hnew, hrec, hwt, h]
  rfl

end

/-- A write-through write whose record is durable becomes visible (R191). -/
theorem exec_writeThroughDone_durable {adm n : Nat} {s : State} {r : LRec} {j : Job} {i : JobItem}
    (hrec : (s.land.recs.find? fun r => r.wt && r.adm == adm && r.epoch == s.life.bootEpoch) = some r)
    (hjob : (s.flash.jobs.find? fun j => j.items.any fun i => i.land == some r.id) = some j)
    (hitem : (j.items.find? fun i => i.land == some r.id) = some i) (hseq : i.jseq = some n) (hdur : s.jDurable n = true) :
    exec (.writeThroughDone adm) s = .next (
      let t := ((s.itemDone j n).makeVisible r.id (flashLoc j.seg i.rec_) true).freeRec r.id
      (if r.kind == .value then t.cacheValue j.seg i.rec_.off else t).pumpDrain) := by
  simp [exec, execWriteThroughDone, hrec, hjob, hitem, hseq, hdur]

/-- Settles O25. -/
theorem theDrainMovesOn : Obligations.TheDrainMovesOn := by
  refine ⟨fun s => ⟨rfl, rfl⟩, fun job s j hjob hchans hjrn hkind hearly => ?_, fun job s j hjob hchans hjrn hkind hshut => ?_, ?_, ?_,
    fun ch pos ok s j hjob => ?_⟩
  · simp [exec, execDrainRowProgrammed, hjob, hchans, hjrn, hkind, hearly]
  · simp [exec, execGcRowProgrammed, hjob, hchans, hjrn, hkind, hshut]
  · exact fun jseq s j i r hjob hitem hdur hnew hrec hwt =>
      ⟨exec_mapRecordDurable_overtaken hjob hitem hdur hnew hrec hwt, exec_mapRecordDurable_current hjob hitem hdur hnew hrec hwt⟩
  · exact fun adm n s r j i hrec hjob hitem hseq hdur => exec_writeThroughDone_durable hrec hjob hitem hseq hdur
  · simp only [exec, execProgramUnitDone, hjob]

-- The journal and the index.

/-- A full segment whose units are programmed, with no job left on it, is sealed. -/
theorem exec_segmentSeal_full {seg : Nat} {s : State} {g : Segment} (hseg : s.seg? seg = some g) (hst : g.st = .full) (hprog : g.cap ≤ g.prog)
    (htail : g.tail = []) (hjobs : (s.flash.jobs.any fun j => j.seg == seg && !j.chans.isEmpty) = false) :
    exec (.segmentSeal seg) s = .next (
      ((s.setSeg seg fun g => { g with st := .sealed, sealedAt := s.now, rebuild := g.rebuild || s.onRetired g }).noteRebuild.journal
        (if g.short then .segSeal seg (g.rowOf g.next + g.lastUnits * g.unitRows - 1) (g.rowOf g.next) true
         else .segSeal seg (g.rows - 1) (g.rows - g.summaryRows g.recs.length) false) false).setJrn fun j => { j with sealsSince := j.sealsSince + 1 }) := by
  simp only [exec, execSegmentSeal, hseg, hst, hprog, htail, hjobs]
  rfl

/-- The sweep of a discarded range whose keys are at hand, or whose tokens are held (R180). -/
theorem exec_reclaimSweep_of_ready {range : Nat} {s : State} {r : Range} (hrange : (s.kv.ranges.find? fun r => r.id == range) = some r)
    (hserve : s.serving = true) (hending : s.rangeEnding range = false) (hbehind : s.sweepBehind r = false)
    (hland : (s.land.recs.any fun x => x.kind == .range && writeId x.adm x.epoch == range) = false)
    (hready : s.orderedKs r.ks = true ∨ (s.grantFor (.sweep range)).isSome = true) :
    exec (.reclaimSweep range) s = .next (
      let t := (s.keysBefore r).foldl (fun s key => s.reclaimKey r.ks r.adm key false) s
      (t.journalThen (.rangeDone range r.ks) (.rangeDone range) false).returnFor (.sweep range)) := by
  have hgo : (!s.orderedKs r.ks && (s.grantFor (.sweep range)).isNone) = false := by
    rcases hready with h | h
    · rw [h]
      rfl
    · obtain ⟨g, hg⟩ := Option.isSome_iff_exists.mp h
      rw [hg]
      exact Bool.and_false _
  simp only [exec, execReclaimSweep, hrange, hserve, hending, hbehind, hland, hgo]
  rfl

/-- Settles O26. -/
theorem theJournalAndTheIndexMoveOn : Obligations.TheJournalAndTheIndexMoveOn := by
  refine ⟨⟨fun s => rfl, fun s hfly hgrant => ?_, fun s hnone hserve hdue => ?_, fun s x hsome hgrant hdur hnodes => ?_, ?_⟩, fun s hserve => ?_, ?_⟩
  · obtain ⟨g, hg⟩ := Option.isSome_iff_exists.mp hgrant
    simp [exec, execJournalPageProgrammed, hfly, hg]
  · simp [exec, execCheckpointSlice, hnone, hserve, hdue]
  · simp [exec, execCheckpointSlice, hsome, hgrant, hdur, hnodes]
  · exact fun seg s g hseg hst hprog htail hjobs => exec_segmentSeal_full hseg hst hprog htail hjobs
  · simp only [exec, execStashReinsert, hserve, if_true]
  · exact fun range s r hrange hserve hending hbehind hland hready => exec_reclaimSweep_of_ready hrange hserve hending hbehind hland hready

-- The array: reads, dies and channels.

/-- How the read of a segment's page ends on its outcome: a die whose suspensions are spent is waited for, step 4 of the ladder may go first (R264,
R265, R273). -/
def State.endRead (s : State) (r : ReadOp) (gr : Grant) (g : Segment) (byte ch : Nat) (o : ReadOutcome) : State :=
  let pos := segPos r.seg
  if s.dieServes ch pos && s.suspendSpent ch pos then s
  else
    match if o == .parity || o == .failed then s.rebuildPage r g byte ch else none with
    | some t => t
    | none =>
      let t := if s.dieServes ch pos then (s.suspendDie ch pos).countRead r.seg ch (readsOf o) else s
      let t := if o == .parity || o == .failed then t.rowRead r g byte ch else t
      (((t.returnGrant gr.id).readMarks r.seg ch pos o).pageEnded r o).mirrorTurn

section
variable {read : Nat} {o : ReadOutcome} {s : State} {r : ReadOp} {gr : Grant} (hread : (s.flash.reads.find? fun r => r.id == read) = some r)
  (hgrant : s.grantFor (.read read) = some gr)
include hread hgrant

/-- A page of the spill table ends on the copy that decodes. -/
theorem exec_pageReadDone_spill (hspill : r.seg = spillSeg) : exec (.pageReadDone read o) s = .next ((s.returnGrant gr.id).pageEnded r .hard) := by
  simp only [exec, execPageReadDone, hread, hgrant, hspill, if_true]

/-- A page of a segment ends on the outcome at its channel. -/
theorem exec_pageReadDone_seg {g : Segment} (hnot : r.seg ≠ spillSeg) (hseg : s.seg? r.seg = some g) :
    exec (.pageReadDone read o) s = .next (s.endRead r gr g (r.plan.getD r.done r.off) (g.pageAt (r.plan.getD r.done r.off)).1
      (s.outcomeAt g (r.plan.getD r.done r.off) (g.pageAt (r.plan.getD r.done r.off)).1 o)) := by
  simp only [exec, execPageReadDone, hread, hgrant, hseg, hnot, if_false, State.endRead]
  cases s.dieServes (g.pageAt (r.plan.getD r.done r.off)).1 (segPos r.seg)
  · rfl
  · rfl

end

section
variable {s : State} {r : ReadOp} {gr : Grant} {g : Segment} {byte ch : Nat} {o : ReadOutcome}

/-- A page that decodes without its row ends on its die. -/
theorem State.endRead_decoded (hdie : s.dieServes ch (segPos r.seg) = true) (hfree : s.suspendSpent ch (segPos r.seg) = false)
    (hplain : ¬ (o = .parity ∨ o = .failed)) :
    s.endRead r gr g byte ch o =
      (((((s.suspendDie ch (segPos r.seg)).countRead r.seg ch (readsOf o)).returnGrant gr.id).readMarks r.seg ch (segPos r.seg) o).pageEnded r o).mirrorTurn := by
  have hno : (o == .parity || o == .failed) = false := by simpa using hplain
  simp only [State.endRead, hdie, hfree, hno]
  rfl

variable (hturn : s.dieServes ch (segPos r.seg) = true → s.suspendSpent ch (segPos r.seg) = false) (hfour : o = .parity ∨ o = .failed)
include hturn hfour

/-- Step 4 reads the row's other pages and ends, once nothing holds it up (R273). -/
theorem State.endRead_row (hready : s.rebuildPage r g byte ch = none) :
    s.endRead r gr g byte ch o =
      ((((((if s.dieServes ch (segPos r.seg) then (s.suspendDie ch (segPos r.seg)).countRead r.seg ch (readsOf o) else s).rowRead r g byte ch).returnGrant
        gr.id).readMarks r.seg ch (segPos r.seg) o).pageEnded r o).mirrorTurn) := by
  have hyes : (o == .parity || o == .failed) = true := by simpa using hfour
  have hgo : ¬ (s.dieServes ch (segPos r.seg) && s.suspendSpent ch (segPos r.seg)) = true := by
    rw [Bool.and_eq_true]
    exact fun h => absurd h.2 (Bool.eq_false_iff.mp (hturn h.1))
  simp only [State.endRead, if_neg hgo, hyes, hready]
  rfl

/-- Until then the read goes on as step 4 leaves it. -/
theorem State.endRead_waits {t : State} (hwait : s.rebuildPage r g byte ch = some t) : s.endRead r gr g byte ch o = t := by
  have hyes : (o == .parity || o == .failed) = true := by simpa using hfour
  have hgo : ¬ (s.dieServes ch (segPos r.seg) && s.suspendSpent ch (segPos r.seg)) = true := by
    rw [Bool.and_eq_true]
    exact fun h => absurd h.2 (Bool.eq_false_iff.mp (hturn h.1))
  simp only [State.endRead, if_neg hgo, hyes, hwait]
  rfl

end

/-- What step 4 of the ladder does before it reads the other pages of a row: it asks their tokens, or waits for a die (R273). -/
theorem State.rebuildPage_cases (s : State) (r : ReadOp) (g : Segment) (byte ch : Nat) :
    let others := (g.rowChans byte).filter fun c => c != ch && s.dieServes c (segPos g.seg)
    let held := (s.pwr.grants.filter fun x => x.why == .rebuild r.id).length
    (held = 0 → others ≠ [] → (s.pwr.queue.any fun q => q.why == .rebuild r.id) = false →
      s.rebuildPage r g byte ch = some (others.foldl (fun s _ => s.askTokens r.why.powerClass 4 (.rebuild r.id)) s)) ∧
    (others.length ≤ held → (others.any fun c => s.suspendSpent c (segPos g.seg)) = true → s.rebuildPage r g byte ch = some s) ∧
    (others.length ≤ held → (others.any fun c => s.suspendSpent c (segPos g.seg)) = false → s.rebuildPage r g byte ch = none) := by
  intro others held
  have heq : s.rebuildPage r g byte ch =
      if held < others.length then
        some (if held ≠ 0 || s.pwr.queue.any fun q => q.why == .rebuild r.id then s
          else others.foldl (fun s _ => s.askTokens r.why.powerClass 4 (.rebuild r.id)) s)
      else if others.any fun c => s.suspendSpent c (segPos g.seg) then some s
      else none := rfl
  rw [heq]
  refine ⟨fun hnone hsome hquiet => ?_, fun hall hspent => ?_, fun hall hfree => ?_⟩
  · have hfew : held < others.length := hnone ▸ List.length_pos_of_ne_nil hsome
    rw [if_pos hfew, if_neg (by simp [hnone, hquiet])]
  · rw [if_neg (Nat.not_lt.mpr hall), if_pos hspent]
  · rw [if_neg (Nat.not_lt.mpr hall), if_neg (Bool.eq_false_iff.mp hfree)]

/-- The outcome of a page on a channel: a retired die leaves parity, and parity fails where the row misses another page (R273, R276). -/
theorem State.outcomeAt_cases (s : State) (g : Segment) (byte ch : Nat) (o : ReadOutcome) :
    let missing := (g.rowChans byte).any fun c => c != ch && !s.dieServes c (segPos g.seg)
    (s.dieServes ch (segPos g.seg) = true → o ≠ .parity → s.outcomeAt g byte ch o = o) ∧
    (o ≠ .failed → (o = .parity ∨ s.dieServes ch (segPos g.seg) = false) → s.outcomeAt g byte ch o = if missing then .failed else .parity) ∧
    (s.outcomeAt g byte ch .failed = .failed) := by
  intro missing
  have heq : ∀ o, s.outcomeAt g byte ch o =
      if (if !s.dieServes ch (segPos g.seg) && o != .failed then ReadOutcome.parity else o) = .parity && missing then .failed
      else if !s.dieServes ch (segPos g.seg) && o != .failed then .parity else o := fun _ => rfl
  refine ⟨fun hdie hother => ?_, fun hok hrow => ?_, ?_⟩
  · rw [heq]
    simp [hdie, hother]
  · have hparity : (if !s.dieServes ch (segPos g.seg) && o != .failed then ReadOutcome.parity else o) = .parity := by
      rcases hrow with rfl | hgone
      · exact ite_self _
      · simp [hgone, hok]
    rw [heq, hparity]
    simp only [decide_true, Bool.true_and]
  · rw [heq]
    simp

/-- Settles O27. -/
theorem theArrayIsRetried : Obligations.TheArrayIsRetried := by
  refine ⟨fun read o s r gr hread hgrant => ⟨exec_pageReadDone_spill hread hgrant, ?_⟩, State.rebuildPage_cases, State.outcomeAt_cases, ?_, ?_⟩
  · intro g hnot hseg byte ch pos o' four read1
    rw [exec_pageReadDone_seg hread hgrant hnot hseg]
    have hread1 : s.dieServes ch pos = true → read1 = (s.suspendDie ch pos).countRead r.seg ch (readsOf o') := fun hdie => if_pos hdie
    exact ⟨fun hdie hfree hplain => by rw [hread1 hdie]; exact congrArg _ (State.endRead_decoded hdie hfree hplain),
      fun hturn hfour hready => congrArg _ (State.endRead_row hturn hfour hready), fun t hturn hfour hwait => congrArg _ (State.endRead_waits hturn hfour hwait)⟩
  · intro ch pos s d hdie tries
    simp only [exec, execDieResetRetry, hdie]
    refine ⟨rfl, fun hmore => ?_, fun hlast => ?_⟩
    · exact congrArg _ ((if_neg (by decide)).trans (if_pos hmore))
    · exact congrArg _ ((if_neg (by decide)).trans (if_neg (Nat.not_lt.mpr hlast)))
  · intro ch s hserve n tries
    simp only [exec, execChannelRetrain, hserve]
    refine ⟨rfl, fun hmore => ?_, fun hlast => ?_⟩
    · exact congrArg _ ((if_neg (by decide)).trans ((if_neg (by decide)).trans (if_pos hmore)))
    · exact congrArg _ ((if_neg (by decide)).trans ((if_neg (by decide)).trans (if_neg (Nat.not_lt.mpr hlast))))

-- The array: copies, erases, scrub and repacking.

/-- What the begin of a copy does to its source: one taken up again goes on with its counts (R248). -/
theorem State.startCopy_cases (s : State) (g : Segment) (why : Nat) :
    let begun := fun (t : State) => (t.setFlash fun f => { f with copy := some { seg := g.seg } }).journal (.segCopyBegin g.seg why) true
    (∀ w : Nat, g.st = .copying w → s.startCopy g why = begun (s.setSeg g.seg fun x => { x with st := .copying why })) ∧
    (g.st = .sealed → s.startCopy g why = begun (s.setSeg g.seg fun x => { x with st := .copying why, moved := 0, deadFound := 0 })) := by
  refine ⟨fun w hst => ?_, fun hst => ?_⟩
  · simp only [State.startCopy, hst, if_true]
  · simp only [State.startCopy, hst]
    rfl

/-- Behind a durable COPY_DONE the caches drop the source and its erase is journalled. -/
theorem exec_copyDone_durable {seg : Nat} {s : State} {g : Segment} (hseg : s.seg? seg = some g) (hst : g.st = .copied) (hshut : s.shutting = false)
    (hdur : s.jAllDurable (JRec.isCopyDone seg) = true) :
    exec (.copyDone seg) s = .next (
      let t := (s.setPrism fun p => { p with valueCache := p.valueCache.filter (fun x => x.1 != seg),
                                             headerCache := p.headerCache.filter (fun x => x.1 != seg),
                                             nodeCache := p.nodeCache.filter fun x => x.1 != seg }).setMir fun m =>
        { m with staged := m.staged.filter fun x => x.1 != seg }
      (t.setSeg seg fun g => { g with st := .erasing, eraseAsked := false }).journal (.eraseIntent seg) true) := by
  simp only [exec, execCopyDone, hseg, hst, hshut, hdur]
  rfl

/-- The erases of a segment end, whose tokens are all held: the segment is free. -/
theorem exec_eraseDone_of_held {seg : Nat} {failed : List (Fin 18)} {s : State} {g : Segment} (hseg : s.seg? seg = some g) (hst : g.st = .erasing)
    (hasked : g.eraseAsked = true) (hshut : s.shutting = false)
    (hheld : (((List.range 18).filter fun c => g.usesCh c && s.dieServes c (segPos seg)).all fun c => (s.grantFor (.erase seg c)).isSome) = true) :
    exec (.eraseDone seg failed) s = .next (
      let chs := (List.range 18).filter fun c => g.usesCh c && s.dieServes c (segPos seg)
      let t := ((List.range 18).filter fun c => (s.grantFor (.erase seg c)).isSome).foldl (fun s c => s.returnFor (.erase seg c)) s
      let t := t.setFlash fun f => { f with dies := f.dies.map fun d => if d.pos = segPos seg && chs.contains d.ch then { d with suspends := 0 } else d }
      let t := (dedup (g.retireCh.map (fun c => (c, 1)) ++ (failed.map fun c => (c.val, 2)))).foldl (fun s b =>
        s.retireBlock b.1 (segPos seg) (segSlot seg) b.2) t
      let t := t.freeSeg seg
      ((t.journal (.eraseDone seg (chs.map fun c => t.blockErases c seg)) false).endRebuild).reviewWear) := by
  simp only [exec, execEraseDone, hseg, hst, hasked, hshut, hheld]
  rfl

section
variable {ch : Fin 18} {pos : Fin 4} {slot : Nat} {o : ReadOutcome} {hi : Bool} {s : State} (hserve : s.serving = true)
  (hcredit : 120960000 ≤ s.scrubCredit ch.val pos.val slot) (hdata : s.holdsData ch.val pos.val slot = true)
  (hdie : s.dieServes ch.val pos.val = true) (hfree : s.suspendSpent ch.val pos.val = false)
include hserve hcredit hdata hdie hfree

/-- A due block asks the tokens of its sample, once (log 49). -/
theorem exec_scrubBlock_asks (hnone : s.grantFor (.scrub ch.val pos.val slot) = none)
    (hquiet : (s.pwr.queue.any fun q => q.why == .scrub ch.val pos.val slot) = false) :
    exec (.scrubBlock ch pos slot o hi) s = .next (s.askTokens 3 8 (.scrub ch.val pos.val slot)) := by
  have hdue : ¬ s.scrubCredit ch.val pos.val slot < 120960000 := Nat.not_lt.mpr hcredit
  simp only [exec, execScrubBlock, hserve, hdue, hdata, hdie, hfree, hnone, hquiet]
  rfl

/-- A due block whose tokens are held is sampled (R274, R276). -/
theorem exec_scrubBlock_samples (hsome : (s.grantFor (.scrub ch.val pos.val slot)).isSome = true) :
    let now := ((s.flash.dies.find? fun d => d.ch == ch.val && d.pos == pos.val).map fun d => d.credit).getD 0
    let t := ((s.suspendDie ch.val pos.val).returnFor (.scrub ch.val pos.val slot)).setFlash fun f =>
      { f with scrubMarks := ((ch.val, pos.val, slot), now) :: f.scrubMarks.filter fun m => m.1 != (ch.val, pos.val, slot) }
    exec (.scrubBlock ch pos slot o hi) s = .next (
      if slot < 7040 then
        match t.seg? (7040 * pos.val + slot) with
        | some g => t.scrubSeg g ch.val pos.val o hi
        | none => t
      else if o = .failed then t.retireMeta ch.val pos.val slot 3
      else t.recalibrate ch.val pos.val slot) := by
  have hdue : ¬ s.scrubCredit ch.val pos.val slot < 120960000 := Nat.not_lt.mpr hcredit
  obtain ⟨gr, hgr⟩ := Option.isSome_iff_exists.mp hsome
  simp only [exec, execScrubBlock, hserve, hdue, hdata, hdie, hfree, hgr]
  rfl

end

/-- Settles O28. -/
theorem theArrayIsKept : Obligations.TheArrayIsKept := by
  refine ⟨fun s g why hserve hcopy hsan hsource => ?_, fun s g why hserve hcopy hidle hsan hsource => ?_, State.startCopy_cases, ?_, ?_, fun s => rfl, ?_, ?_,
    fun s hserve hcool hslc => ?_⟩
  · simp [exec, execGcSourceStart, hserve, hcopy, hsan, hsource]
  · simp [exec, execGcSourceStart, hserve, hcopy, hidle, hsan, hsource]
  · exact fun seg s g hseg hst hshut hdur => exec_copyDone_durable hseg hst hshut hdur
  · exact fun seg failed s g hseg hst hasked hshut hheld => exec_eraseDone_of_held hseg hst hasked hshut hheld
  · intro ch pos slot o hi s hserve hcredit hdata hdie hfree hsome now t
    rw [exec_scrubBlock_samples hserve hcredit hdata hdie hfree hsome]
    refine ⟨fun g hslot hseg => ?_, fun hslot hok => ?_, fun hslot hfail => ?_⟩
    · exact congrArg _ ((if_pos hslot).trans (by rw [show _ = some g from hseg]))
    · exact congrArg _ ((if_neg (Nat.not_lt.mpr hslot)).trans (if_neg hok))
    · exact congrArg _ ((if_neg (Nat.not_lt.mpr hslot)).trans (if_pos hfail))
  · exact fun ch pos slot o hi s hserve hcredit hdata hdie hfree hnone hquiet => exec_scrubBlock_asks hserve hcredit hdata hdie hfree hnone hquiet
  · simp only [exec, execRepackStart, hserve, hcool, hslc]
    rfl

end Sys2Proof.Machine
end

section
/-! Power states, tokens, the hold-up bank and temperature (O29-O32). -/

namespace Sys2Proof.Machine

/-- The end of a power-state transition is a budget-change instant (R230, R234). -/
theorem exec_powerStateTransitionDone {s : State} (hbusy : s.pwr.psBusy = true) (hshut : s.shutting = false) (hmain : s.life.mainOn = true) :
    exec .powerStateTransitionDone s = .next (
      let new := s.pwr.psTarget
      let t := s.setPwr fun p => { p with ps := new, psBusy := false }
      let t := if 3 ≤ new.val then t.setPrism fun p => { p with cacheBuckets := [] } else t
      let t := ((if new = 4 then t.ps4Entry else t).budgetChange 4).pwrInt 5
      let t := if new = 0 then t.enterPs0 else t
      if s.pwr.ps = 4 ∧ new = 0 then t.ps4Exit else t) := by
  simp [exec, execPowerStateTransitionDone, hbusy, hshut, hmain]

/-- Settles O29. -/
theorem powerStatesChangeAndHighInputIsLogged : Obligations.PowerStatesChangeAndHighInputIsLogged := by
  refine ⟨⟨?_, fun w s hw => ?_, fun s => rfl, fun s hbusy hshut hmain => exec_powerStateTransitionDone hbusy hshut hmain⟩, fun v s hmain => ?_⟩
  · intro ps s hphase hsvc hidle hps htimer hcap hless hbusy hstays hdue
    simp only [exec, execPsIdleExpiry, hphase, hsvc, hidle, decide_eq_true hps, decide_eq_true htimer, hcap, hless, hbusy, hstays, hdue]
    rfl
  · cases w
    case psNowZero => exact absurd rfl hw
    all_goals rfl
  · simp only [exec, execVinHigh, hmain, if_true]

/-- Settles O30. -/
theorem tokensClassAndLimit : Obligations.TokensClassAndLimit := by
  refine ⟨⟨fun cls n s hmain => ?_, fun g s hgrant => ?_, fun s hmain => ?_⟩, fun pads s hnew hmain => ⟨fun hbad => ?_, fun hgood => ?_⟩,
    fun v i w s hmain => ⟨?_, ?_⟩, fun v s hmain => ⟨fun hgood => ?_, fun hbad => ?_⟩, fun v s hmain => ⟨fun hlow hhigh => ?_, fun hlow => ?_, fun hhigh => ?_⟩⟩
  · simp only [exec, execTokenRequest, hmain, if_true]
  · exact congrArg Host.Outcome.next (if_pos hgrant)
  · simp only [exec, execPwrCtrlSnapshot, hmain, if_true]
  · simp only [exec, execPwrclsChange, hnew, hmain, if_pos hbad]
    rfl
  · simp only [exec, execPwrclsChange, hnew, hmain, if_neg (Nat.not_le.mpr hgood)]
    rfl
  · simp only [exec, execIlimitEvaluation, hmain, if_true]
  · simp only [exec, execIlimitClamp, hmain, if_true]
  · simp [exec, execPwrClassWrite, hmain, Nat.not_le.mpr hgood]
  · simp [exec, execPwrClassWrite, hbad]
  · simp [exec, execPwrIlimitWrite, hmain, Nat.not_lt.mpr hlow, Nat.not_lt.mpr hhigh]
  · simp [exec, execPwrIlimitWrite, hlow]
  · simp [exec, execPwrIlimitWrite, hhigh]

-- The bank is watched.

section
variable {v : Nat} {s : State} (hmain : s.life.mainOn = true) (hshut : s.shutting = false)
include hmain hshut

/-- HOLD rises: what the step does on the state that has taken the voltage (R185, R217, R218). -/
theorem exec_holdVoltageStep_of_on :
    let t := (s.setHold fun h => { h with v10mV := v }).startMetering
    exec (.holdVoltageStep v) s = .next (
      if 3700 < v then t.bankFails .faulty
      else
        let u := if t.hold.capUf ≠ 0 && t.hold.charging && t.hold.vPub10mV < min 3500 (v / 50 * 50) then t.publish (min 3500 (v / 50 * 50)) 2 else t
        if u.hold.charging && 3500 ≤ v then u.charged else u) := by
  simp only [exec, execHoldVoltageStep, hmain, hshut]
  rfl

end

/-- The clauses of a rise of HOLD. -/
theorem exec_holdVoltageStep_cases {v : Nat} {s : State} (hmain : s.life.mainOn = true) (hshut : s.shutting = false) :
    let t := (s.setHold fun h => { h with v10mV := v }).startMetering
    let step := if t.hold.capUf ≠ 0 ∧ t.hold.vPub10mV < min 3500 (v / 50 * 50) then t.publish (min 3500 (v / 50 * 50)) 2 else t
    (3700 < v → exec (.holdVoltageStep v) s = .next (t.bankFails .faulty)) ∧
    (v ≤ 3700 → t.hold.charging = false → exec (.holdVoltageStep v) s = .next t) ∧
    (v < 3500 → t.hold.charging = true → exec (.holdVoltageStep v) s = .next step) ∧
    (3500 ≤ v → v ≤ 3700 → t.hold.charging = true → step.hold.charging = true → exec (.holdVoltageStep v) s = .next step.charged) := by
  intro t step
  have hcharging : t.hold.charging = true →
      (if t.hold.capUf ≠ 0 && t.hold.charging && t.hold.vPub10mV < min 3500 (v / 50 * 50) then t.publish (min 3500 (v / 50 * 50)) 2 else t) = step := by
    intro hch
    simp only [hch, Bool.and_true, Bool.and_eq_true, decide_eq_true_eq]
    rfl
  rw [exec_holdVoltageStep_of_on hmain hshut]
  refine ⟨fun hover => ?_, fun hle hidle => ?_, fun hlow hch => ?_, fun hfull hle hch hstill => ?_⟩
  · exact congrArg _ (if_pos hover)
  · refine congrArg _ ((if_neg (Nat.not_lt.mpr hle)).trans ?_)
    have hsame : (if t.hold.capUf ≠ 0 && t.hold.charging && t.hold.vPub10mV < min 3500 (v / 50 * 50) then t.publish (min 3500 (v / 50 * 50)) 2 else t) = t :=
      if_neg (by simp [hidle])
    dsimp only
    rw [hsame]
    exact if_neg (by simp [hidle])
  · refine congrArg _ ((if_neg (by omega)).trans ?_)
    dsimp only
    rw [hcharging hch]
    exact if_neg (by simp [hlow])
  · refine congrArg _ ((if_neg (Nat.not_lt.mpr hle)).trans ?_)
    dsimp only
    rw [hcharging hch]
    exact if_pos (by simp [hstill, hfull])

/-- HOLD falls: what is done with the main island on, outside a shutdown and a measurement (R217, R220). -/
theorem exec_holdVoltageFall_cases (v fell : Nat) (s : State) :
    let t := s.setHold fun h => { h with v10mV := v }
    let falls := 200 < fell ∨ (s.hold.charging = true ∧ v + 30 ≤ s.hold.chargeFrom10mV)
    let a := if s.hold.capUf ≠ 0 ∧ v + 50 ≤ s.hold.vPub10mV then t.publish (v / 50 * 50) 2 else t
    let b := if a.hold.st = .healthy ∧ v + 200 < 3500 then a.bankState .charging else a
    ((s.life.mainOn = false ∨ s.shutting = true ∨ s.hold.measuring = true) → exec (.holdVoltageFall v fell) s = .next t) ∧
    (s.life.mainOn = true → s.shutting = false → s.hold.measuring = false →
      (falls → exec (.holdVoltageFall v fell) s = .next (t.bankFails .faulty)) ∧
      (¬ falls → (v + 30 ≤ 3500 ∧ b.hold.bad = false ∧ b.hold.charging = false) → exec (.holdVoltageFall v fell) s = .next b.startCharge) ∧
      (¬ falls → ¬ (v + 30 ≤ 3500 ∧ b.hold.bad = false ∧ b.hold.charging = false) → exec (.holdVoltageFall v fell) s = .next b)) := by
  intro t falls a b
  have hexec : exec (.holdVoltageFall v fell) s = .next (
      if !s.life.mainOn || s.shutting || s.hold.measuring then t
      else if falls then t.bankFails .faulty
      else if v + 30 ≤ 3500 ∧ b.hold.bad = false ∧ b.hold.charging = false then b.startCharge else b) := by
    simp only [exec, execHoldVoltageFall, Bool.or_eq_true, Bool.and_eq_true, decide_eq_true_eq, Bool.not_eq_true', and_assoc]
    rfl
  rw [hexec]
  refine ⟨fun hoff => congrArg _ (if_pos ?_), fun hmain hshut hmeas => ?_⟩
  · simpa [or_assoc] using hoff
  · rw [if_neg (by simp [hmain, hshut, hmeas])]
    exact ⟨fun hfalls => congrArg _ (if_pos hfalls), fun hno hcharge => congrArg _ ((if_neg hno).trans (if_pos hcharge)),
      fun hno hcharge => congrArg _ ((if_neg hno).trans (if_neg hcharge))⟩

-- The bank is measured.

/-- A re-measurement at 35.0 V: deferred where the charge at 34.0 V would not do (R219). -/
theorem State.tryMeasure_cases {s : State} (hshut : s.shutting = false) (hmeas : s.hold.measuring = false) :
    let free34 : Int := usableEnergy s.hold.capUf 3400 - s.land.resLanding - s.land.resShutdown
    (s.hold.capUf ≠ 0 → free34 < 0 → s.tryMeasure = s.setHold fun h => { h with measureAsked := true, retryAt := s.now + 60 * oneSec }) ∧
    (s.hold.capUf ≠ 0 → 0 ≤ free34 → s.tryMeasure = (s.publish 3400 3).startMeasure) ∧
    (s.hold.capUf = 0 → s.tryMeasure = s.startMeasure) := by
  intro free34
  have heq : s.tryMeasure =
      if !(decide (s.hold.capUf = 0) || decide (0 ≤ free34)) then s.setHold fun h => { h with measureAsked := true, retryAt := s.now + 60 * oneSec }
      else (if s.hold.capUf = 0 then s else s.publish 3400 3).startMeasure := by
    simp only [State.tryMeasure, hshut, hmeas]
    rfl
  rw [heq]
  refine ⟨fun hcap hless => ?_, fun hcap hfits => ?_, fun hcap => ?_⟩
  · rw [if_pos (by simp [hcap, Int.not_le.mpr hless])]
  · rw [if_neg (by simp [hfits]), if_neg hcap]
  · rw [if_neg (by simp [hcap]), if_pos hcap]

/-- The state that has taken a measured capacitance, with its records (R218, R219, R221). -/
def State.measured (s : State) (c t : Nat) : State :=
  let m := (((s.setHold fun h =>
      { h with measuring := false, measureAsked := false, retrying := false, capUf := c, capAt := s.now, commissionDue := false,
               commissionUf := if s.hold.commissionDue then c else h.commissionUf,
               v10mV := if s.hold.measuring then 3500 else h.v10mV }).returnFor .measurement).logEv evHoldupMeasure uPower c t).pwrInt 6
  if s.hold.commissionDue = false ∧ 100 * c < 80 * s.hold.commissionUf then m.logEv evHoldupAged uPower s.hold.commissionUf c else m

/-- What a measured capacitance makes of the bank, at 35.0 V or in the metering window (R218-R221). -/
def State.settleMeasure (d : State) (at35 : Bool) (c : Nat) : State :=
  let b := if c < 500 then d.bankFails .absent
    else if c < 2200 then d.bankFails .belowRating
    else if at35 then (if d.hold.st = .healthy then d else (d.bankState .charging).bankState .healthy)
    else d.bankState .charging
  let p := b.publish (if at35 then 3500 else min 3500 (b.hold.v10mV / 50 * 50)) 1
  if at35 && 2200 ≤ c then p.startCharge else p

/-- At 35.0 V. -/
theorem State.settleMeasure_at35 (d : State) (c : Nat) :
    (c < 500 → d.settleMeasure true c = (d.bankFails .absent).publish 3500 1) ∧
    (500 ≤ c → c < 2200 → d.settleMeasure true c = (d.bankFails .belowRating).publish 3500 1) ∧
    (2200 ≤ c → d.hold.st = .healthy → d.settleMeasure true c = (d.publish 3500 1).startCharge) ∧
    (2200 ≤ c → d.hold.st ≠ .healthy → d.settleMeasure true c = (((d.bankState .charging).bankState .healthy).publish 3500 1).startCharge) := by
  unfold State.settleMeasure
  refine ⟨fun hlow => ?_, fun hmin hlow => ?_, fun hmin hst => ?_, fun hmin hst => ?_⟩
  · simp [hlow, show ¬ 2200 ≤ c by omega]
  · simp [hlow, show ¬ c < 500 by omega, show ¬ 2200 ≤ c by omega]
  · simp [hmin, hst, show ¬ c < 500 by omega, show ¬ c < 2200 by omega]
  · simp [hmin, hst, show ¬ c < 500 by omega, show ¬ c < 2200 by omega]

/-- In the metering window. -/
theorem State.settleMeasure_metered (d : State) (c : Nat) :
    let window := fun x : State => x.publish (min 3500 (x.hold.v10mV / 50 * 50)) 1
    (c < 500 → d.settleMeasure false c = window (d.bankFails .absent)) ∧
    (500 ≤ c → c < 2200 → d.settleMeasure false c = window (d.bankFails .belowRating)) ∧
    (2200 ≤ c → d.settleMeasure false c = window (d.bankState .charging)) := by
  unfold State.settleMeasure
  refine ⟨fun hlow => ?_, fun hmin hlow => ?_, fun hmin => ?_⟩
  · simp [hlow]
  · simp [hlow, show ¬ c < 500 by omega]
  · simp [show ¬ c < 500 by omega, show ¬ c < 2200 by omega]

/-- The end of a measurement that runs, or of a metering that has passed its window. -/
theorem exec_capacitanceMeasurementDone_of_due {uF t : Nat} {s : State} (hshut : s.shutting = false) (hmain : s.life.mainOn = true)
    (hdue : (s.hold.measuring || (s.hold.meters && decide (2500 ≤ s.hold.v10mV) && (s.grantFor .measurement).isSome)) = true) :
    exec (.capacitanceMeasurementDone uF t) s = .next (
      (s.measured (min 10000 (uF / 10 * 10)) t).settleMeasure s.hold.measuring (min 10000 (uF / 10 * 10))) := by
  have haged : ∀ c : Nat, (!s.hold.commissionDue && decide (100 * c < 80 * s.hold.commissionUf)) =
      decide (s.hold.commissionDue = false ∧ 100 * c < 80 * s.hold.commissionUf) := fun c => by
    cases s.hold.commissionDue
    · simp
    · simp
  simp only [exec, execCapacitanceMeasurementDone, hshut, hmain, hdue, haged, decide_eq_true_eq]
  rfl

/-- Settles O31. -/
theorem theBankIsWatchedAndMeasured : Obligations.TheBankIsWatchedAndMeasured := by
  refine ⟨⟨fun v s hmain hshut => exec_holdVoltageStep_cases hmain hshut, exec_holdVoltageFall_cases, fun rise s hch hdue hshut => ⟨fun hlow hfrom => ?_, fun hfar => ?_⟩,
    fun s hch hcap hdue hshut => ?_, fun s hbad hch hdue hrun => ?_⟩, fun s hcap hdue hmeas hasked hrun => ?_, fun s hmain hmeas => ?_,
    fun s hasked hch hdue hrun => ?_, fun s hshut hmeas => State.tryMeasure_cases hshut hmeas, fun uF t s hshut hmain => ?_⟩
  · simp [exec, execHoldAbsentTimeout, hch, hdue, hshut, hlow, hfrom]
  · refine congrArg Host.Outcome.next (if_neg ?_)
    simp only [hch, hdue, hshut, Bool.and_eq_true, decide_eq_true_eq]
    omega
  · simp [exec, execHoldupChargeTimeout, hch, hcap, hdue, hshut]
  · simp [exec, execBankRetry, hbad, hch, hdue, hrun]
  · simp [exec, execCapacitanceMeasurementDue, hcap, hdue, hmeas, hasked, hrun]
  · simp [exec, execPwrCtrlMeasure, hmain, hmeas]
  · simp [exec, execMeasurementRetry, hasked, hch, hdue, hrun]
  · intro c m d window
    have hd : s.measured c t = d := rfl
    refine ⟨fun hmeas => ?_, fun hmeas hmeters hvolt hgrant => ?_⟩
    · rw [exec_capacitanceMeasurementDone_of_due hshut hmain (by simp [hmeas]), hmeas]
      obtain ⟨habsent, hbelow, hhealthy, hother⟩ := State.settleMeasure_at35 d c
      exact ⟨fun h => congrArg _ (habsent h), fun h h' => congrArg _ (hbelow h h'), fun h h' => congrArg _ (hhealthy h h'),
        fun h h' => congrArg _ (hother h h')⟩
    · rw [exec_capacitanceMeasurementDone_of_due hshut hmain (by simp [hmeters, hvolt, hgrant]), hmeas]
      obtain ⟨habsent, hbelow, hother⟩ := State.settleMeasure_metered d c
      exact ⟨fun h => congrArg _ (habsent h), fun h h' => congrArg _ (hbelow h h'), fun h => congrArg _ (hother h)⟩

-- The hold-up sequence and temperature.

section
variable {straps : BitVec 4} {s : State} (hmain : s.life.mainOn = false) (hphase : s.life.phase = 0) (hlatch : s.life.latched = none)
include hmain hphase hlatch

/-- VIN is back and the module may start: at once, or once RESET# is released (R224, R436). -/
theorem exec_restartQualification_starts (hcool : s.life.thermalOff = false ∨ s.thm.t ≤ 125) :
    exec (.restartQualification straps) s = .next (
      let t := (s.setLife fun l => { l with straps := straps, pads := straps, aonOn := true, vinPresent := true, thermalOff := false }).resumeElapsed
      let cause := if !s.life.aonOn then 1 else if s.life.huEnded then 9 else 10
      if t.life.resetLow then t.setLife fun l => { l with latched := some { cause := cause } }
      else t.startInstant cause straps[3] none) := by
  have hgo : (s.life.thermalOff && decide (125 < s.thm.t)) = false := by
    rcases hcool with h | h
    · rw [h]
      rfl
    · rw [decide_eq_false (Int.not_lt.mpr h), Bool.and_false]
  simp only [exec, execRestartQualification, hmain, hphase, hlatch, hgo]
  rfl

/-- Off after a thermal trip and still hot it only notes that VIN is back (R229). -/
theorem exec_restartQualification_hot (hoff : s.life.thermalOff = true) (hhot : 125 < s.thm.t) :
    exec (.restartQualification straps) s = .next (s.setLife fun l => { l with vinPresent := true }) := by
  simp [exec, execRestartQualification, hmain, hphase, hlatch, hoff, hhot]

end

/-- HOLD is down to 12.0 V: the sequence ends, the AON island stops where VIN does not feed it (R224, R229). -/
theorem exec_holdAt12v_cases (s : State) :
    let t := s.setHold fun h => { h with v10mV := 1200 }
    let stop := fun x : State => if x.life.vinPresent then x else x.setLife fun l => { l with aonOn := false, latched := none }
    (s.life.holdup = true → exec .holdAt12v s = .next (
      stop ((t.setHold fun h => { h with shortPending := true, shortJseq := t.jrn.lastDurable }).powerOff false))) ∧
    (s.life.holdup = false → s.life.mainOn = false → exec .holdAt12v s = .next (stop t)) ∧
    (s.life.holdup = false → s.life.mainOn = true → exec .holdAt12v s = .next t) := by
  intro t stop
  have hexec : exec .holdAt12v s = .next (
      if s.life.holdup then stop ((t.setHold fun h => { h with shortPending := true, shortJseq := t.jrn.lastDurable }).powerOff false)
      else if !s.life.mainOn then stop t else t) := rfl
  rw [hexec]
  refine ⟨fun hseq => congrArg _ (if_pos hseq), fun hseq hmain => congrArg _ ?_, fun hseq hmain => congrArg _ ?_⟩
  · rw [if_neg (Bool.eq_false_iff.mp hseq), if_pos (by rw [hmain]; rfl)]
  · rw [if_neg (Bool.eq_false_iff.mp hseq), if_neg (by rw [hmain]; decide)]

/-- Settles O32. -/
theorem holdupAndTemperatureRun : Obligations.HoldupAndTemperatureRun := by
  refine ⟨⟨fun s => rfl, fun s hmain hseq => ?_, fun s hseq hended => ?_, exec_holdAt12v_cases, ?_, ?_⟩, fun c d s hmain => ?_, fun c d s hmain => ?_⟩
  · simp [exec, execThermalTrip, hmain, hseq]
  · simp [exec, execHoldupDrainEnd, hseq, hended]
  · intro straps s hmain hphase hcool hlatch t cause
    have hlow : t.life.resetLow = s.life.resetLow := by
      simp only [t, State.resumeElapsed_life]
      rfl
    rw [exec_restartQualification_starts hmain hphase hlatch hcool]
    refine ⟨fun hhigh => congrArg _ (if_neg ?_), fun hreset => congrArg _ (if_pos ?_)⟩
    · exact Bool.eq_false_iff.mp (hlow.trans hhigh)
    · exact hlow.trans hreset
  · exact fun straps s hmain hphase hlatch hoff hhot => exec_restartQualification_hot hmain hphase hlatch hoff hhot
  · simp [exec, execThermalSample, hmain]
  · simp only [exec, execThermalSample, hmain]
    rfl

end Sys2Proof.Machine
end

section
/-! DRAM errors, the channels of the data mover, resets and start-up (O33-O36). -/

namespace Sys2Proof.Machine

-- DRAM errors.

/-- What an error of a DRAM channel in use does (R442, R443). -/
theorem exec_dramError_of_used {ch : Fin 4} {s : State} (e : DramErr) (hmain : s.life.mainOn = true) (hch : ch.val < s.part.dramCh)
    (huse : (s.dram.chans.getD ch.val {}).retired = false) :
    exec (.dramError ch e) s = .next (match e with
      | .corrected bank row =>
        let t := s.logEv evDramCorrected uPrism (ch.val + 256 * bank) row
        let errs := ((bank, row), t.now) :: (s.dram.chans.getD ch.val {}).rowErrors.filter fun x => decide (t.now < x.2 + 86400 * oneSec)
        let t := t.setDramCh ch.val fun c => { c with rowErrors := errs }
        if 3 ≤ (errs.filter fun x => x.1 == (bank, row)).length then t.failRow ch.val bank row else t
      | .uncorrectable bank row landing =>
        (if landing then s.logEv evDramCorrected uPrism (ch.val + 256 * bank) row else s).failRow ch.val bank row
      | .retrain ok =>
        let n := (s.dram.chans.getD ch.val {}).retrains + 1
        let t := (s.logEv evDramRetrain uPrism ch.val n).setDramCh ch.val fun c => { c with retrains := if ok || 3 ≤ n then 0 else n }
        if !ok && 3 ≤ n then t.retireDram ch.val else t) := by
  have hin : ¬ s.part.dramCh ≤ ch.val := Nat.not_le.mpr hch
  simp only [exec, execDramError, hmain, hin, huse]
  cases e
  · rfl
  · rfl
  · rfl

/-- Settles O33. -/
theorem dramErrorsAreHandled : Obligations.DramErrorsAreHandled := by
  refine ⟨fun ch bank row s hmain hch huse => ⟨?_, ?_⟩, fun ch bank row s hmain hch huse => ?_, fun ch s hmain hch huse => ⟨?_, fun htwo => ?_⟩⟩
  · exact exec_dramError_of_used (.uncorrectable bank row false) hmain hch huse
  · exact exec_dramError_of_used (.uncorrectable bank row true) hmain hch huse
  · exact exec_dramError_of_used (.corrected bank row) hmain hch huse
  · exact exec_dramError_of_used (.retrain true) hmain hch huse
  · rw [exec_dramError_of_used (.retrain false) hmain hch huse]
    simp only [htwo]
    rfl

-- Channels of the data mover in maintenance mode.

/-- Two changes of a channel that agree on every channel are one. -/
theorem State.setDmaCh_congr (s : State) (ch : Fin 16) {f g : DmaCh → DmaCh} (h : ∀ c, f c = g c) : s.setDmaCh ch f = s.setDmaCh ch g :=
  congrArg (s.setDmaCh ch) (funext h)

/-- A pause begins (R288). -/
theorem exec_dmaPause_on {ch : Fin 16} {s : State} (hopen : s.dmaOpen = true) :
    exec (.dmaPause ch true) s = .next (s.setDmaCh ch fun c => match c.st with
      | .idle => { c with pause := true, st := .paused, intStatus := c.intStatus ||| 4 }
      | .running => { c with pause := true, draining := true }
      | _ => { c with pause := true }) := by
  simp only [exec, execDmaPause, hopen]
  refine congrArg Host.Outcome.next (State.setDmaCh_congr s ch fun c => ?_)
  cases hst : c.st
  · rfl
  · rfl
  · rfl
  · rfl

/-- A pause ends (R289). -/
theorem exec_dmaPause_off {ch : Fin 16} {s : State} (hopen : s.dmaOpen = true) :
    exec (.dmaPause ch false) s = .next (s.setDmaCh ch fun c => match c.st with
      | .running => { c with pause := false, draining := c.stopping }
      | .paused => { c with pause := false, st := if c.active.isSome then .running else .idle, since := s.now }
      | _ => { c with pause := false }) := by
  simp only [exec, execDmaPause, hopen]
  refine congrArg Host.Outcome.next (State.setDmaCh_congr s ch fun c => ?_)
  cases hst : c.st
  · rfl
  · rfl
  · rfl
  · rfl

/-- A halted channel goes on; what promotion refused is refused again (R292; log 36). -/
theorem exec_dmaRetry_of_halted {ch : Fin 16} {s : State} {d : Desc} (hopen : s.dmaOpen = true) (hst : (s.dmaCh ch).st = .halted)
    (hact : (s.dmaCh ch).active = some d) :
    let t := s.setDmaCh ch fun c => { c with
      st := if c.pause then .paused else .running, err := 0, since := s.now, intStatus := if c.pause then c.intStatus ||| 4 else c.intStatus }
    exec (.dmaRetry ch) s = .next (if (s.dmaCh ch).counted || d.fault = 0 then t else t.dmaHalt ch d.fault) := by
  simp only [exec, execDmaRetry, hopen, hst, hact]
  rfl

/-- A drain ends: the error that stopped it, a stop, or the pause (R288, R289, R291). -/
theorem exec_dmaPauseDrainEnd_of_draining {ch : Fin 16} {w : Nat} {s : State} {d : Desc} (hopen : s.dmaOpen = true) (hact : (s.dmaCh ch).active = some d)
    (hdrain : (s.dmaCh ch).draining = true) (hcount : (s.dmaCh ch).counted = false) :
    let m := s.dmaMove (min w (s.dmaCh ch).remain.toNat) ch d
    let t := m.1.setDmaCh ch fun c => if c.remain = 0 && !c.counted then c.complete d else c
    exec (.dmaPauseDrainEnd ch w) s = .next (
      if m.2 ≠ 0 then m.1.dmaHalt ch m.2
      else if (s.dmaCh ch).stopping then t.setDmaCh ch DmaCh.discard
      else t.setDmaCh ch fun c => { c with st := .paused, draining := false, intStatus := c.intStatus ||| 4 }) := by
  simp only [exec, execDmaPauseDrainEnd, hopen, hact, hdrain, hcount]
  rfl

/-- The hand-over point of a running channel (R291). -/
theorem exec_dmaHandOver_of_running {ch : Fin 16} {s : State} {d : Desc} (hopen : s.dmaOpen = true) (hdrain : (s.dmaCh ch).draining = false)
    (hpause : (s.dmaCh ch).pause = false) (hst : (s.dmaCh ch).st = .running) (hact : (s.dmaCh ch).active = some d)
    (hcount : (s.dmaCh ch).counted = false) :
    let m := s.dmaMove (s.dmaCh ch).remain.toNat ch d
    exec (.dmaHandOver ch) s = .next (if m.2 ≠ 0 then m.1.dmaHalt ch m.2 else (m.1.setDmaCh ch fun c => c.complete d).dmaPromote ch) := by
  simp only [exec, execDmaHandOver, hopen, hdrain, hpause, hst, hact, hcount]
  rfl

/-- An error that the memory or the bus reports on the way (R292). -/
theorem exec_dmaError_of_running {ch : Fin 16} {w : Nat} {s : State} {d : Desc} (err : Fin 8) (herr : err = 4 ∨ err = 5) (hopen : s.dmaOpen = true)
    (hact : (s.dmaCh ch).active = some d) (hst : (s.dmaCh ch).st = .running) (hcount : (s.dmaCh ch).counted = false) :
    let m := s.dmaMove (min w (s.dmaCh ch).remain.toNat) ch d
    exec (.dmaError ch err w) s = .next (m.1.dmaHalt ch (if m.2 = 0 then err.val else m.2)) := by
  have hkind : (decide (err = 4) || decide (err = 5)) = true := by simpa using herr
  simp only [exec, execDmaError, hopen, hact, hst, hcount, hkind]
  rfl

/-- Settles O34. -/
theorem dmaChannelsRun : Obligations.DmaChannelsRun := by
  refine ⟨⟨fun ch s hopen => ⟨exec_dmaPause_on hopen, exec_dmaPause_off hopen⟩, fun ch s hopen => ?_, fun ch s hopen => ?_, ?_, ?_⟩, ?_, ?_, ?_⟩
  · simp only [exec, execDmaStop, hopen]
    rfl
  · simp only [exec, execDmaShCommit, hopen]
    rfl
  · intro ch s d hopen hst hact t
    rw [exec_dmaRetry_of_halted hopen hst hact]
    refine ⟨fun hgo => congrArg _ (if_pos (by simpa using hgo)), fun hcount hfault => congrArg _ (if_neg (by simp [hcount, hfault]))⟩
  · intro ch w s d hopen hact hdrain hcount m t
    rw [exec_dmaPauseDrainEnd_of_draining hopen hact hdrain hcount]
    exact ⟨fun herr => congrArg _ (if_pos herr), fun hok hstop => congrArg _ ((if_neg (not_not_intro hok)).trans (if_pos hstop)),
      fun hok hstop => congrArg _ ((if_neg (not_not_intro hok)).trans (if_neg (Bool.eq_false_iff.mp hstop)))⟩
  · intro ch s d hopen hdrain hpause hst hact hcount m
    rw [exec_dmaHandOver_of_running hopen hdrain hpause hst hact hcount]
    exact ⟨fun hok => congrArg _ (if_neg (not_not_intro hok)), fun herr => congrArg _ (if_pos herr)⟩
  · intro ch s hopen hdrain hpause hst
    simp only [exec, execDmaHandOver, hopen, hdrain, hpause, hst]
    rfl
  · exact fun ch w s d hopen hact hst hcount =>
      ⟨exec_dmaError_of_running 4 (Or.inl rfl) hopen hact hst hcount, exec_dmaError_of_running 5 (Or.inr rfl) hopen hact hst hcount⟩

-- Resets.

/-- A watchdog with the main island on (R435). -/
theorem State.watchdog_of_on {s : State} (unit : Nat) (hmain : s.life.mainOn = true) (hphase : s.life.phase ≠ 15) :
    let recent := s.life.wdog.filter fun t => decide (s.now < t + 3600 * oneSec)
    let full := decide (2 ≤ recent.length) || s.life.svc.isSome || !s.canService
    let t := ((s.setLife fun l => { l with wdog := s.now :: recent }).seeFault).logEv evWatchdog uSup unit (b2n full)
    s.watchdog unit = if full then t.requestFull (t.fullOf 4) else t.startService { cause := 5, since := t.now } := by
  intro recent full t
  exact if_neg (by simp [hmain, hphase])

/-- The standby supervisor fails (R435, R442). -/
theorem exec_supLockstepFailure_of_standby {sup : Fin 2} {s : State} (hmain : s.life.mainOn = true) (hphase : s.life.phase ≠ 15)
    (hstandby : sup ≠ s.life.supActive) (huse : (s.life.sups.getD sup.val {}).retired = false) :
    exec (.supLockstepFailure sup) s = .next (
      let fails := s.now :: (s.life.sups.getD sup.val {}).fails.filter fun t => decide (s.now < t + 86400 * oneSec)
      let t := (s.setLife fun l => { l with sups := modAt l.sups sup.val fun p => { p with fails := fails } }).seeFault
      let t := t.logEv evWatchdog uAon 1 0
      (if 3 ≤ fails.length then
        (t.setLife fun l => { l with sups := modAt l.sups sup.val fun p => { p with retired := true } }).logEv evSupRetire uAon sup.val 0 else t).fallback 1) := by
  have hguard : ¬ (!s.life.mainOn || decide (s.life.phase = 15) || (s.life.sups.getD sup.val {}).retired) = true := by
    rw [hmain, huse, decide_eq_false hphase]
    decide
  exact congrArg Host.Outcome.next ((if_neg hguard).trans (if_pos hstandby))

/-- The fault of a ledger, once it is counted and logged (R38, R435). -/
def State.ledgerSeen (s : State) (l : LedgerId) : State :=
  ((s.setLife fun x => { x with ledgerFaults := satAdd 32 x.ledgerFaults 1 }).seeFault).logEv evLedgerFault (ledgerUnit l) l.ledger.val
    ((ledgerNamed l).number % 65536 + 65536 * l.kind)

/-- Counting and logging a fault starts and ends no shutdown. -/
theorem State.ledgerSeen_shutting (s : State) (l : LedgerId) : (s.ledgerSeen l).shutting = s.shutting := by
  simp only [State.ledgerSeen, State.shutting, State.logEv_life]
  rfl

/-- The reset that covers the owner of a ledger at fault (R38, R435, R441). -/
theorem exec_ledgerFault_of_on {l : LedgerId} {s : State} (hmain : s.life.mainOn = true) (hledger : l.ledger ≠ 0) :
    exec (.ledgerFault l) s = .next (
      let t := s.ledgerSeen l
      if l.kind = 3 ∧ l.number < 4 then (t.resetPort (Fin.ofNat 2 (l.number / 2))).fallback 1
      else if t.shutting then t
      else if t.faultAgain l = true ∨ t.life.svc.isSome = true then t.requestFull (t.fullOf 4)
      else t.startService { cause := 7, since := t.now, ledger := some l }) := by
  simp only [exec, execLedgerFault, hmain, decide_eq_false hledger, Bool.and_eq_true, Bool.or_eq_true, decide_eq_true_eq]
  rfl

/-- A service reset ends that nothing holds up (R434; R199). -/
theorem exec_serviceResetEnd_of_ready {s : State} {v : SvcReset} (hsvc : s.life.svc = some v) (hclosed : s.closingShort = false)
    (hready : v.compact = false ∨ (s.land.recs.isEmpty = true ∧ s.jrn.settled = true)) :
    exec .serviceResetEnd s = .next (
      let t := (((if v.compact then s.changeIndex else s).endSvc v).scanCells).resetEnds.glbInt 2
      (t.logEv evServiceReset uSup v.cause (min ((s.now - v.since) / ms) (2 ^ 32 - 1))).resumePosting) := by
  have hgo : (v.compact && !(s.land.recs.isEmpty && s.jrn.settled)) = false := by
    rcases hready with h | ⟨h, h'⟩
    · rw [h]
      rfl
    · rw [h, h']
      exact Bool.and_false _
  simp only [exec, execServiceResetEnd, hsvc, hclosed, hgo]
  rfl

/-- Settles O35. -/
theorem resetsStartAndEnd : Obligations.ResetsStartAndEnd := by
  refine ⟨⟨fun s => rfl, fun v s hkey hsoft => ?_, fun v s hkey => ?_, fun s hmain href => ?_, ?_, ?_, ?_⟩,
    fun s r hclose => ⟨fun hended => ?_, fun hdue => ?_⟩, fun straps s r hlow hlatch hphase haon => ?_, ?_, fun s v hsvc hdue => ?_⟩
  · exact congrArg Host.Outcome.next (if_pos (by simp [hkey, hsoft]))
  · exact congrArg Host.Outcome.next (if_neg (by simp [hkey]))
  · simp only [exec, execReferenceLoss, hmain, href]
    rfl
  · intro cp e s hmain hphase recent full end_
    exact ⟨congrArg _ (State.watchdog_of_on _ hmain hphase), congrArg _ (State.watchdog_of_on _ hmain hphase)⟩
  · exact fun sup s hmain hphase hstandby huse => exec_supLockstepFailure_of_standby hmain hphase hstandby huse
  · intro l s hmain hledger t
    have ht : s.ledgerSeen l = t := rfl
    rw [exec_ledgerFault_of_on hmain hledger, ht]
    refine ⟨fun hkind hport => congrArg _ (if_pos ⟨hkind, hport⟩), fun hother hshut => congrArg _ ((if_neg hother).trans (if_pos ?_)),
      fun hother hshut hagain => congrArg _ ((if_neg hother).trans ((if_neg (Bool.eq_false_iff.mp hshut)).trans (if_pos hagain))),
      fun hother hshut hfirst hsvc => congrArg _ ((if_neg hother).trans ((if_neg (Bool.eq_false_iff.mp hshut)).trans (if_neg ?_)))⟩
    · rw [← ht, State.ledgerSeen_shutting, hshut]
    · simp [hfirst, hsvc]
  · simp only [exec, execResetCloseDone, hclose, hended, if_true]
  · simp only [exec, execResetCloseDone, hclose, hdue]
    rfl
  · refine congrArg Host.Outcome.next ((if_neg (by simp [hlow])).trans ?_)
    have hkept : (s.setLife fun l => { l with resetLow := false, straps := straps, pads := straps }).life.latched = some r := hlatch
    simp only [hkept]
    exact if_pos (by simp [State.setLife, hphase, haon])
  · exact fun s v hsvc hclosed hready => exec_serviceResetEnd_of_ready hsvc hclosed hready
  · simp only [exec, execServiceResetTimeout, hsvc, hdue]
    rfl

-- Start-up.

/-- The end of a phase of start-up is that phase's (R436, R437). -/
theorem exec_startUpPhaseDone_of_running {v : List Bool} {s : State} (hmain : s.life.mainOn = true) (hended : s.life.phaseEnded = false) :
    exec (.startUpPhaseDone v) s = .next (
      match s.life.phase with
      | 1 => ((s.setLife fun l => { l with refOk := true, lockOk := true, refLost := false }).goPhase 2).startCharge
      | 2 => ((s.trainPort 0).trainPort 1).goPhase 3
      | 3 => s.bootRom v
      | 4 => s.supStart
      | 5 => (if !s.prism.compact && s.dram.chans.any (fun c => c.retired) then s.changeIndex else s).goPhase 6
      | 6 => (((s.logFromJournal).rebuildIndex).spillCompact).goPhase 7
      | 7 => ((((s.recount).returnFor .replay).closeAllShort).pumpErases).goPhase 8
      | 8 => if s.closingShort then s else s.setLife fun l => { l with phaseEnded := true }
      | _ => s) :=
  congrArg Host.Outcome.next (if_neg (by simp [hmain, hended]))

/-- The service instant (R436, R438, R439). -/
theorem exec_serviceInstant_of_ended {s : State} (hended : s.life.phaseEnded = true) :
    exec .serviceInstant s = .next (
      let t := ((s.setLife fun l => { l with phase := if s.life.recovery then 11 else 9, phaseEnded := false }).glbInt 3).servoStart
      if s.life.recovery || s.sec.san.state = 1 then t else t.openLink) := by
  have hrec : (((s.setLife fun l => { l with phase := if l.recovery then 11 else 9, phaseEnded := false }).glbInt 3).servoStart).life.recovery =
      s.life.recovery := by
    rw [State.servoStart_life]
    rfl
  have hsan : (((s.setLife fun l => { l with phase := if l.recovery then 11 else 9, phaseEnded := false }).glbInt 3).servoStart).sec = s.sec :=
    State.servoStart_sec _
  refine congrArg Host.Outcome.next ((if_neg (by rw [hended]; decide)).trans ?_)
  dsimp only
  rw [hrec, hsan]
  rfl

/-- Settles O36. -/
theorem startUpRuns : Obligations.StartUpRuns := by
  refine ⟨?_, fun s hended hrec => ?_, fun s hended hrec hsan => ?_⟩
  · intro v s hmain hended
    rw [exec_startUpPhaseDone_of_running hmain hended]
    refine ⟨fun h => ?_, fun h => ?_, fun h => ?_, fun h => ?_, fun h => ?_, fun h => ?_, fun h => ?_, fun h hclosed => ?_⟩
    all_goals simp only [h]
    exact congrArg _ (if_neg (Bool.eq_false_iff.mp hclosed))
  · simp [exec_serviceInstant_of_ended hended, hrec]
  · simp [exec_serviceInstant_of_ended hended, hrec, hsan]

end Sys2Proof.Machine
end

section
/-! The Ethernet ports: links and controls, frames and pauses, gates and transmission (O40-O42). -/

namespace Sys2Proof.Machine

-- Links and port controls.

/-- A port's link comes up (R210, R327, R333; log 51). -/
theorem exec_linkUp_of_ok {port : Fin 2} {l : LinkInfo} {s : State} (hok : s.linkOk port l = true) :
    exec (.linkUp port l) s = .next (
      let t := if (s.port port).ps4Nego then s else s.wake
      let t := t.setPort port fun q =>
        { q with link := true, rate := l.rate, eee := l.eee && (t.portCfg port).phy.getLsbD 4, training := false, partnerAdv := l.partnerAdv,
                 trainFails := [], upSince := some t.now, txIdleSince := t.now, ps4Nego := false, capRate := none, lastRate := some l.rate,
                 lastChange := if q.lastRate.all (fun r => r == l.rate) then q.lastChange else some t.now }
      let t := t.setPort port fun q => { q with stepped := (t.commonRates port).any fun r => decide (l.rate.val < r) }
      let t := ((t.macInt port 0).logEv evLink (uMac port) (port.val + 256) l.rate.val).setMir fun m =>
        if m.portInUse == some port then { m with linkLost := none } else m
      ((t.setPhyGrant port (phyTokens l.rate.val)).endNego port).resumePort port) := by
  simp only [exec, execLinkUp, hok]
  rfl

/-- A training failure, counted per rate (R327). -/
theorem exec_trainingFailure_of_training {port : Fin 2} {rate : Fin 4} {s : State} (huse : s.portUsable port = true) (hlink : (s.port port).link = false) :
    exec (.trainingFailure port rate) s = .next (
      let n := (((s.port port).trainFails.find? fun f => f.1 == rate.val).map fun f => f.2).getD 0 + 1
      if n < 3 then (s.setPort port fun q => { q with trainFails := [(rate.val, n)] }).train port
      else
        let t := (s.setPort port fun q => { q with trainFails := [], dropped := q.dropped ||| BitVec.ofNat 4 (2 ^ rate.val) }).train port
        t.logEv evPortDownshift (uMac port) (port.val + 256 * rate.val)
          (([3, 2, 1, 0].filter fun r => (t.portCfg port).phy.getLsbD r && !(t.port port).dropped.getLsbD r).headD 0)) := by
  simp only [exec, execTrainingFailure, huse, hlink]
  rfl

/-- A write of the flow-control register on a port in use: ignored, refused, or a port reset (R341, R358; log 30). -/
theorem exec_macnFcCfgWrite_of_used {port : Fin 2} {v : Word} {s : State} (huse : s.portUsable port = true) :
    exec (.macnFcCfgWrite port v) s = .next (
      if v.toNat % 4 = 3 ∨ v.toNat / 4096 % 128 < 1 ∨ 100 < v.toNat / 4096 % 128 then s
      else if v.toNat % 4 = 2 ∧ 2 < ((List.range 8).filter fun i => v.getLsbD (4 + i)).length then s.setPort port fun q => { q with cfgReject := true }
      else ((s.setStored fun c => { c with ports := modAt c.ports port.val fun x => { x with fc := v.setWidth 19 } }).portReset port).train port) := by
  simp only [exec, execMacnFcCfgWrite, huse, Bool.not_true, Bool.false_or, Bool.or_eq_true, Bool.and_eq_true, decide_eq_true_eq, or_assoc]

/-- At most one port renegotiates at a time: a step-up goes first, and P0 before P1 (R333, R334). -/
def State.stepPorts (t : State) : State :=
  if t.ports.any fun q => q.nego.isSome then t
  else match [0, 1].find? fun (p : Fin 2) => t.portUsable p && (t.upCause p).isSome with
  | some p => (t.startNego p ((t.upCause p).getD 2) none).setPort p fun q => { q with starved := 0 }
  | none =>
    if t.portUsable 0 && t.stepsDown 0 then t.startNego 0 1 (t.downTarget 0)
    else if t.portUsable 1 && t.stepsDown 1 then t.startNego 1 1 (t.downTarget 1)
    else t

theorem State.stepPorts_cases (t : State) :
    ((t.ports.any fun q => q.nego.isSome) = true → t.stepPorts = t) ∧
    (∀ p : Fin 2, (t.ports.any fun q => q.nego.isSome) = false → ([0, 1].find? fun (p : Fin 2) => t.portUsable p && (t.upCause p).isSome) = some p →
      t.stepPorts = (t.startNego p ((t.upCause p).getD 2) none).setPort p fun q => { q with starved := 0 }) ∧
    ((t.ports.any fun q => q.nego.isSome) = false → ([0, 1].find? fun (p : Fin 2) => t.portUsable p && (t.upCause p).isSome) = none →
      t.stepPorts =
        if t.portUsable 0 && t.stepsDown 0 then t.startNego 0 1 (t.downTarget 0)
        else if t.portUsable 1 && t.stepsDown 1 then t.startNego 1 1 (t.downTarget 1)
        else t) := by
  unfold State.stepPorts
  refine ⟨fun hbusy => if_pos hbusy, fun p hquiet hup => ?_, fun hquiet hnone => ?_⟩
  · rw [if_neg (Bool.eq_false_iff.mp hquiet)]
    simp only [hup]
  · rw [if_neg (Bool.eq_false_iff.mp hquiet)]
    simp only [hnone]

/-- One second of traffic is noted on both ports, then one of them may renegotiate (R332-R334). -/
theorem exec_trafficSample_of_due {s0 s1 : TrafficSample} {s : State} (hdue : ((s.port 0).sampledAt.all fun t => s.past t oneSec) = true) :
    exec (.trafficSample s0 s1) s = .next (State.stepPorts
      ((s.setPort 0 fun q => { q.sample s0 with sampledAt := some s.now }).setPort 1 fun q => { q.sample s1 with sampledAt := some s.now })) := by
  simp only [exec, execTrafficSample, hdue]
  rfl

/-- Settles O40. -/
theorem linksAndPortControls : Obligations.LinksAndPortControls := by
  refine ⟨⟨fun port l s hok => exec_linkUp_of_ok hok, fun port s => ⟨fun hlink => ?_, fun hlink => ?_⟩, ?_, fun port s hlink hrate => ?_,
    fun port ok s huse hmain => ?_⟩, fun port s => rfl, fun port v s huse hbad => ?_, fun port v s huse hmode hmin hmax hmany => ?_,
    fun port v s huse hmode hmin hmax => ?_, fun port s huse hlink hup => ?_, fun s0 s1 s hearly => ?_, ?_⟩
  · exact congrArg Host.Outcome.next (if_pos hlink)
  · exact congrArg Host.Outcome.next (if_neg (Bool.eq_false_iff.mp hlink))
  · intro port rate s huse hlink n
    rw [exec_trainingFailure_of_training huse hlink]
    exact ⟨fun hfew => congrArg _ (if_pos hfew), fun hthird => congrArg _ (if_neg (Nat.not_lt.mpr hthird))⟩
  · simp [exec, execFastRetrain, hlink, hrate]
  · simp only [exec, execPortReset, huse, hmain]
    rfl
  · rw [exec_macnFcCfgWrite_of_used huse, if_pos hbad]
  · rw [exec_macnFcCfgWrite_of_used huse, if_neg (by omega), if_pos ⟨hmode, hmany⟩]
  · rw [exec_macnFcCfgWrite_of_used huse, if_neg (by omega), if_neg (by omega)]
  · simp only [exec, execRenegotiate, huse, hlink, hup]
    rfl
  · simp only [exec, execTrafficSample, hearly]
    rfl
  · intro s0 s1 s hdue t
    rw [exec_trafficSample_of_due hdue]
    obtain ⟨hbusy, hup, hdown⟩ := t.stepPorts_cases
    exact ⟨fun h => congrArg _ (hbusy h), fun p h h' => congrArg _ (hup p h h'), fun h h' => congrArg _ (hdown h h')⟩

-- Frames.

section
variable {port : Fin 2} {f : RxFrame} {s : State} (huse : s.portUsable port = true) (hlink : (s.port port).link = true)
include huse hlink

/-- A received frame is activity; one that is not stored is counted, a symbol error beside its other count (R330, R336, R357). -/
theorem exec_frameReceived_counts :
    let a := s.activity port
    let b := if f.symbolErr then a.setPort port fun q => q.count 15 1 else a
    let max := (s.portCfg port).maxFrame.toNat
    (f.len < 64 → exec (.frameReceived port f) s = .next (b.setPort port fun q => q.count (if f.fcsOk then 16 else 17) 1)) ∧
    (64 ≤ f.len → max < f.len → exec (.frameReceived port f) s = .next (b.setPort port fun q => q.count (if f.fcsOk then 18 else 19) 1)) ∧
    (64 ≤ f.len → f.len ≤ max → f.fcsOk = false → exec (.frameReceived port f) s = .next (b.setPort port fun q => q.count 14 1)) ∧
    (64 ≤ f.len → f.len ≤ max → f.fcsOk = true → f.symbolErr = true → exec (.frameReceived port f) s = .next b) ∧
    (64 ≤ f.len → f.len ≤ max → f.fcsOk = true → f.symbolErr = false → b.acceptsDst port f.dst = false →
      exec (.frameReceived port f) s = .next (b.setPort port fun q => q.count 21 1)) := by
  intro a b max
  have hon : ¬ (!s.portUsable port || !(s.port port).link) = true := by
    rw [huse, hlink]
    decide
  refine ⟨fun hshort => ?_, fun hmin hlong => ?_, fun hmin hmax hbad => ?_, fun hmin hmax hok hsym => ?_, fun hmin hmax hok hsym hdst => ?_⟩
  all_goals refine congrArg Host.Outcome.next ((if_neg hon).trans ?_)
  · exact if_pos hshort
  all_goals refine (if_neg (Nat.not_lt.mpr hmin)).trans ?_
  · exact if_pos hlong
  all_goals refine (if_neg (Nat.not_lt.mpr hmax)).trans ?_
  · exact if_pos (by rw [hbad]; rfl)
  all_goals refine (if_neg (by rw [hok]; decide)).trans ?_
  · exact if_pos hsym
  · exact (if_neg (Bool.eq_false_iff.mp hsym)).trans (if_pos (by rw [show State.acceptsDst _ port f.dst = false from hdst]; rfl))

/-- Where a good frame for the module goes: MAC Control to its own rows, what no unit takes to its counter, the rest to the receive cells, before service
only what is answered there (R336-R339, R436). -/
def State.sortFrame (t : State) (c : PortCfg) (port : Fin 2) (f : RxFrame) : State :=
  if f.proto == .macControl then t
  else if !c.vlanOk f.tags then t.setPort port fun q => q.count 20 1
  else if f.ipErr then t.setPort port fun q => q.count 25 1
  else if !t.served f.proto then t.setPort port fun q => q.count 24 1
  else if !(t.life.phase == 9 || t.life.phase == 11) && !(f.proto == .arp || f.proto == .ndisc || f.proto == .echo) then
    t.setTr fun x => { x with counters := { x.counters with dgramDiscard := (x.counters.dgramDiscard + 1) % 2 ^ 32 } }
  else (t.storeRx port f).portTakes port f.proto

/-- A good frame for the module is counted as one, wakes the module where it is for the port's own address, and goes on. -/
theorem exec_frameReceived_good (hmin : 64 ≤ f.len) (hmax : f.len ≤ (s.portCfg port).maxFrame.toNat) (hsym : f.symbolErr = false) (hok : f.fcsOk = true)
    (hdst : (s.activity port).acceptsDst port f.dst = true) :
    let t := (s.activity port).setPort port fun q => q.goodRx f
    exec (.frameReceived port f) s = .next (State.sortFrame (if f.dst = t.macOf port then t.wake else t) (s.portCfg port) port f) := by
  simp only [exec, execFrameReceived, huse, hlink, Nat.not_lt.mpr hmin, Nat.not_lt.mpr hmax, hsym, hok, Bool.not_true, Bool.or_false, Bool.false_eq_true,
    if_false, hdst]
  rfl

end

/-- The ways of a good frame. -/
theorem State.sortFrame_cases (t : State) (c : PortCfg) (port : Fin 2) (f : RxFrame) :
    let served := t.life.phase = 9 ∨ t.life.phase = 11
    let answered := f.proto = .arp ∨ f.proto = .ndisc ∨ f.proto = .echo
    (f.proto = .macControl → t.sortFrame c port f = t) ∧
    (f.proto ≠ .macControl → c.vlanOk f.tags = false → t.sortFrame c port f = t.setPort port fun q => q.count 20 1) ∧
    (f.proto ≠ .macControl → c.vlanOk f.tags = true → f.ipErr = true → t.sortFrame c port f = t.setPort port fun q => q.count 25 1) ∧
    (f.proto ≠ .macControl → c.vlanOk f.tags = true → f.ipErr = false → t.served f.proto = false →
      t.sortFrame c port f = t.setPort port fun q => q.count 24 1) ∧
    (f.proto ≠ .macControl → c.vlanOk f.tags = true → f.ipErr = false → t.served f.proto = true →
      ((served ∨ answered) → t.sortFrame c port f = (t.storeRx port f).portTakes port f.proto) ∧
      (¬ served → ¬ answered → t.sortFrame c port f = t.setTr fun x =>
        { x with counters := { x.counters with dgramDiscard := (x.counters.dgramDiscard + 1) % 2 ^ 32 } })) := by
  intro served answered
  unfold State.sortFrame
  refine ⟨fun hctl => ?_, fun hctl hvlan => ?_, fun hctl hvlan hip => ?_, fun hctl hvlan hip hunit => ?_,
    fun hctl hvlan hip hunit => ⟨fun hgo => ?_, fun hearly hother => ?_⟩⟩
  · rw [if_pos (beq_iff_eq.mpr hctl)]
  all_goals rw [if_neg (fun e => hctl (beq_iff_eq.mp e))]
  · rw [if_pos (by rw [hvlan]; rfl)]
  all_goals rw [if_neg (by rw [hvlan]; decide)]
  · rw [if_pos hip]
  all_goals rw [if_neg (Bool.eq_false_iff.mp hip)]
  · rw [if_pos (by rw [hunit]; rfl)]
  all_goals rw [if_neg (by rw [hunit]; decide)]
  · refine if_neg ?_
    simp only [Bool.and_eq_true, Bool.not_eq_true', Bool.or_eq_false_iff, beq_eq_false_iff_ne]
    tauto
  · refine if_pos ?_
    simp only [Bool.and_eq_true, Bool.not_eq_true', Bool.or_eq_false_iff, beq_eq_false_iff_ne]
    tauto

-- Pauses.

/-- A link pause that is honoured pauses every class (R343, R344). -/
theorem exec_pauseFrameReceived_link {port : Fin 2} {v : BitVec 16} {s : State} (huse : s.portUsable port = true) (hlink : (s.port port).link = true)
    (hon : (s.portCfg port).fc.getLsbD 2 = true) (hmode : (s.portCfg port).fcMode = 1) (hbreak : ((s.port port).tx.any fun t => t.breakUntil.isSome) = false) :
    exec (.pauseFrameReceived port (.link v)) s = .next ((s.setPort port fun q => q.count 5 1).setPort port fun q =>
      { q with tx := q.tx.map fun t => t.pause (s.setPort port fun q => q.count 5 1).now (quantaNs v.toNat q.rate.val) }) := by
  simp only [exec, execPauseFrameReceived, huse, hlink, hon, hmode, hbreak]
  rfl

/-- One of the kind that is not in force is counted only. -/
theorem exec_pauseFrameReceived_link_ignored {port : Fin 2} {v : BitVec 16} {s : State} (huse : s.portUsable port = true)
    (hlink : (s.port port).link = true) (hoff : (s.portCfg port).fc.getLsbD 2 = false ∨ (s.portCfg port).fcMode ≠ 1) :
    exec (.pauseFrameReceived port (.link v)) s = .next ((s.setPort port fun q => q.count 5 1).setPort port fun q => q.count 27 1) := by
  have hno : (!(s.portCfg port).fc.getLsbD 2 || decide ((s.portCfg port).fcMode ≠ 1)) = true := by simpa using hoff
  simp only [exec, execPauseFrameReceived, huse, hlink, hno]
  rfl

/-- So is a priority pause outside mode 2. -/
theorem exec_pauseFrameReceived_pfc_ignored {port : Fin 2} {en : BitVec 8} {vs : List (BitVec 16)} {s : State} (huse : s.portUsable port = true)
    (hlink : (s.port port).link = true) (hoff : (s.portCfg port).fc.getLsbD 2 = false ∨ (s.portCfg port).fcMode ≠ 2) :
    exec (.pauseFrameReceived port (.pfc en vs)) s = .next ((s.setPort port fun q => q.count 6 1).setPort port fun q => q.count 27 1) := by
  have hno : (!(s.portCfg port).fc.getLsbD 2 || decide ((s.portCfg port).fcMode ≠ 2)) = true := by simpa using hoff
  simp only [exec, execPauseFrameReceived, huse, hlink, hno]
  rfl

/-- The pause watchdog breaks the pause of a class, in mode 1 of every class (R345). -/
theorem exec_pauseWdog_breaks {port : Fin 2} {tc : Fin 8} {s : State} {c : TxClass} (htx : (s.port port).tx[tc.val]? = some c)
    (hset : (s.portCfg port).pauseWdog.toNat ≠ 0) (hpaused : c.paused s.now = true)
    (hdue : s.past c.pausedSince ((s.portCfg port).pauseWdog.toNat * ms) = true) :
    exec (.pauseWdog port tc) s = .next (
      let brk := fun (x : TxClass) => { x with pausedUntil := none, breakUntil := some (s.now + (s.portCfg port).pauseWdog.toNat * ms) }
      let all := (s.portCfg port).fcMode == 1
      let t := s.setPort port fun q => { q with tx := if all then q.tx.map brk else modAt q.tx tc.val brk }.count 42 1
      (t.macInt port 2).logEv evPauseWdog (uMac port) (port.val + 256 * (if all then 0xFF else tc.val)) ((t.port port).stats.getD 42 0)) := by
  simp only [exec, execPauseWdog, htx, decide_eq_false hset, hpaused, hdue]
  rfl

/-- Settles O41. -/
theorem framesAndPausesRun : Obligations.FramesAndPausesRun := by
  refine ⟨⟨fun port f s huse hlink => exec_frameReceived_counts huse hlink, ?_⟩, fun port s hxoff hfree => ?_, fun port s hxoff hlink hdue => ?_,
    fun port v s huse hlink => ⟨?_, ?_, ?_⟩, fun port tc s => rfl, ?_, fun port tc s => rfl⟩
  · intro port f s huse hlink hmin hmax hsym hok hdst t0 t served answered
    rw [exec_frameReceived_good huse hlink hmin hmax hsym hok hdst]
    obtain ⟨hctl, hvlan, hip, hunit, hstore⟩ := t.sortFrame_cases (s.portCfg port) port f
    exact ⟨fun h => congrArg _ (hctl h), fun h h1 => congrArg _ (hvlan h h1), fun h h1 h2 => congrArg _ (hip h h1 h2),
      fun h h1 h2 h3 => congrArg _ (hunit h h1 h2 h3), fun h h1 h2 h3 => ⟨fun h4 => congrArg _ ((hstore h h1 h2 h3).1 h4),
        fun h4 h5 => congrArg _ ((hstore h h1 h2 h3).2 h4 h5)⟩⟩
  · simp [exec, execXon, hxoff, hfree]
  · simp only [exec, execPauseRefresh, hxoff, hlink, hdue]
    rfl
  · exact fun hon hmode hbreak => exec_pauseFrameReceived_link huse hlink hon hmode hbreak
  · exact fun hoff => exec_pauseFrameReceived_link_ignored huse hlink hoff
  · exact fun en vs hoff => exec_pauseFrameReceived_pfc_ignored huse hlink hoff
  · exact fun port tc s c htx hset hpaused hdue => exec_pauseWdog_breaks htx hset hpaused hdue

-- Gates and transmission.

/-- A change of the gate schedule: refused, or set to swap at a cycle's start (R348). -/
theorem exec_tasConfigChange_of_used {port : Fin 2} {s : State} (huse : s.portUsable port = true) :
    let q := s.port port
    let bad := q.tasPending = true ∨ q.gadmin.cycle.toNat < 400 ∨ q.gadmin.len.toNat < 1 ∨ 256 < q.gadmin.len.toNat ∨
      ((q.gadmin.entries.take q.gadmin.len.toNat).any fun e => e.2 == 0) = true
    (bad → exec (.tasConfigChange port) s = .next ((s.setPort port fun q => { q with tasCfgError := true }).macInt port 4)) ∧
    (¬ bad → exec (.tasConfigChange port) s = .next (
      let at_ := if q.tasRunning then nextCycle q.operAt q.goper.cycle.toNat (max q.gadmin.base s.ptp.time)
        else nextCycle q.gadmin.base q.gadmin.cycle.toNat s.ptp.time
      s.setPort port fun q => { q with tasPending := true, tasCfgError := false, swapAt := at_ })) := by
  intro q bad
  have hexec : exec (.tasConfigChange port) s = .next (
      if bad then (s.setPort port fun q => { q with tasCfgError := true }).macInt port 4
      else
        let at_ := if q.tasRunning then nextCycle q.operAt q.goper.cycle.toNat (max q.gadmin.base s.ptp.time)
          else nextCycle q.gadmin.base q.gadmin.cycle.toNat s.ptp.time
        s.setPort port fun q => { q with tasPending := true, tasCfgError := false, swapAt := at_ }) := by
    simp only [exec, execTasConfigChange, huse, Bool.not_true, Bool.false_eq_true, if_false, Bool.or_eq_true, decide_eq_true_eq, or_assoc]
    rfl
  rw [hexec]
  exact ⟨fun h => congrArg _ (if_pos h), fun h => congrArg _ (if_neg h)⟩

/-- The counter of a MAC Control frame sent (R357). -/
def sentCounter (f : PauseFrame) : Nat :=
  match f with
  | .link _ => 33
  | .pfc .. => 34

/-- A line that is free first takes a MAC Control frame (R340). -/
theorem exec_frameTransmitStart_control {port : Fin 2} {s : State} {f : PauseFrame} (hlink : ((s.endLine port).port port).link = true)
    (hline : ((s.endLine port).port port).line = none) (hctl : ((s.endLine port).port port).macCtl = some f) :
    exec (.frameTransmitStart port) s = .next (((s.endLine port).activity port).setPort port fun q =>
      { (q.sent 31 64).count (sentCounter f) 1 with macCtl := none, txLpi := false, txIdleSince := (s.endLine port).now }) := by
  simp only [exec, execFrameTransmitStart, hlink, hline, hctl]
  cases f
  · rfl
  · rfl

/-- The highest class that may start its head frame does (R340, R349). -/
def State.startHighest (u : State) (port : Fin 2) : State :=
  match [7, 6, 5, 4, 3, 2, 1, 0].find? fun tc => u.mayStart port tc with
  | some tc => u.startFrame port tc
  | none => u

theorem State.startHighest_of_find {u : State} {port : Fin 2} {tc : Nat}
    (h : ([7, 6, 5, 4, 3, 2, 1, 0].find? fun tc => u.mayStart port tc) = some tc) : u.startHighest port = u.startFrame port tc := by
  simp only [State.startHighest, h]

theorem State.startHighest_of_none {u : State} {port : Fin 2} (h : ([7, 6, 5, 4, 3, 2, 1, 0].find? fun tc => u.mayStart port tc) = none) :
    u.startHighest port = u := by
  simp only [State.startHighest, h]

/-- Without a MAC Control frame the classes have their turn, frames that no open time holds having left (R349). -/
theorem exec_frameTransmitStart_class {port : Fin 2} {s : State} (hlink : ((s.endLine port).port port).link = true)
    (hline : ((s.endLine port).port port).line = none) (hctl : ((s.endLine port).port port).macCtl = none) :
    exec (.frameTransmitStart port) s = .next (((List.range 8).foldl (fun s tc =>
      s.dropOversize ((((s.port port).tx[tc]?).map fun c => c.queue.length).getD 0) port tc) (s.endLine port)).startHighest port) := by
  simp only [exec, execFrameTransmitStart, hlink, hline, hctl, Option.isSome_none, Bool.not_true, Bool.or_self, Bool.false_eq_true, if_false]
  generalize List.foldl _ (s.endLine port) (List.range 8) = u
  cases h : [7, 6, 5, 4, 3, 2, 1, 0].find? fun tc => u.mayStart port tc with
  | none => exact congrArg _ (State.startHighest_of_none h).symm
  | some tc => exact congrArg _ (State.startHighest_of_find h).symm

/-- The transmit path of a port with EEE goes to low-power idle (R328). -/
theorem exec_lowPowerIdle_enters {port : Fin 2} {s : State} :
    let t := s.endLine port
    (t.port port).link = true → (t.port port).eee = true → (t.port port).txLpi = false →
    (t.port port).line = none → (t.port port).macCtl = none → (t.port port).txWait = [] → ((t.port port).tx.all fun c => c.queue.isEmpty) = true →
    (t.port port).tasRunning = false → t.past (t.port port).txIdleSince (1000 * ((t.portCfg port).phy.toNat / 65536)) = true →
    exec (.lowPowerIdle port) s = .next ((t.setPort port fun q => { q with txLpi := true }).logEv evLpi (uMac port) port.val 0) := by
  intro t hlink heee hlpi hline hctl hwait hqueues htas hdue
  have hidle : ((t.port port).line.isNone && (t.port port).macCtl.isNone && (t.port port).txWait.isEmpty && (t.port port).tx.all fun c => c.queue.isEmpty) = true := by
    rw [hline, hctl, hwait, hqueues]
    rfl
  simp only [exec, execLowPowerIdle]
  exact congrArg _ (if_pos (by rw [hlink, heee, hlpi, hidle, htas, hdue]; rfl))

/-- Settles O42. -/
theorem gatesAndTransmission : Obligations.GatesAndTransmission := by
  refine ⟨fun port s huse => exec_tasConfigChange_of_used huse, fun port s hpend hat => ?_, fun port s hrun => ?_, fun port v s huse => ?_,
    fun port s => ?_, fun port s => exec_lowPowerIdle_enters⟩
  · simp [exec, execTasSwap, hpend, hat]
  · exact congrArg Host.Outcome.next (if_pos hrun)
  · simp only [exec, execTasEnableWrite, huse]
    rfl
  · intro t hlink hline
    refine ⟨fun f hctl => (exec_frameTransmitStart_control hlink hline hctl).trans ?_, ?_⟩
    · cases f
      all_goals rfl
    · intro hctl u tc hfind
      exact (exec_frameTransmitStart_class hlink hline hctl).trans (congrArg _ (State.startHighest_of_find hfind))

end Sys2Proof.Machine
end

section
/-! The PTP unit, its latching reads and the event recorder (O43, O44, O46). -/

namespace Sys2Proof.Machine

/-- A message of the configured domain and transport: stamped, answered, and then taken as an Announce or as a sample (R351-R355). -/
theorem exec_ptpEventMessage_of_ours {m : PtpMsg} {s : State} (hdomain : m.domain.toNat = s.ptp.domain)
    (htransport : m.transport.val = s.ptp.transport m.port) (huse : s.portUsable m.port = true) (hps : s.pwr.ps ≠ 4) :
    exec (.ptpEventMessage m) s = .next (
      let t := ((s.ptpStamp m).1.ptpAnswer m).takeInterval m
      match m.announce with
      | some a => if m.sent then t else t.takeAnnounce m a
      | none => if (s.ptpStamp m).2 then t.ptpSample m else t) := by
  have hours : ¬ (decide (m.domain.toNat ≠ s.ptp.domain) || decide (m.transport.val ≠ s.ptp.transport m.port) || !s.portUsable m.port || decide (s.pwr.ps = 4)) =
      true := by
    simp [hdomain, htransport, huse, hps]
  refine congrArg Host.Outcome.next ((if_neg hours).trans ?_)
  cases m.announce
  · rfl
  · rfl

/-- An edge of PPS_IN: latched, and with source 4 a sample of the servo unless it pauses (R356, R376). -/
theorem exec_ppsInEdge_eq (s : State) :
    exec .ppsInEdge s = .next (
      let t := (s.setPtp fun x => { x with ppsInNs := BitVec.ofNat 30 (nsOf s.ptp.time), ppsInSec := BitVec.ofNat 48 (secOf s.ptp.time) }).ptpInt 0
      if s.ptp.source = 4 ∧ s.servoPaused = false then t.servo (((s.ptp.time : Int) - s.ptp.setSec.toNat * secUnits) * 5 / 2) else t) := by
  have hcond : ∀ a b : Bool, ((a && !b) = true) = (a = true ∧ b = false) := by decide
  simp only [exec, execPpsInEdge, hcond, decide_eq_true_eq]
  rfl

/-- Settles O43. -/
theorem theClockIsKept : Obligations.TheClockIsKept := by
  refine ⟨?_, fun s hmin hmax hsample hdue => ?_, ?_, fun s hon hvalid hat => ?_, fun s hout hdue => ?_, fun s => ⟨fun h => ?_, fun h => ?_⟩,
    fun port s hsamples hlink hdue => ?_, fun v s hsource h0 h1 => ?_⟩
  · intro m s hdomain htransport huse hps t
    rw [exec_ptpEventMessage_of_ours hdomain htransport huse hps]
    refine ⟨fun hann hkept => ?_, fun hann hlost => ?_, fun a hann hsent => ?_, fun a hann hsent => ?_⟩
    · simp only [hann]
      exact congrArg _ (if_pos hkept)
    · simp only [hann]
      exact congrArg _ (if_neg (Bool.eq_false_iff.mp hlost))
    · simp only [hann]
      exact congrArg _ (if_neg (Bool.eq_false_iff.mp hsent))
    · simp only [hann]
      exact congrArg _ (if_pos hsent)
  · simp only [exec, execPtpHoldover, decide_eq_true hmin, decide_eq_true hmax, decide_eq_true hsample, hdue]
    rfl
  · intro s t
    rw [exec_ppsInEdge_eq]
    refine ⟨fun hno => congrArg _ (if_neg ?_), fun hsource hruns => congrArg _ (if_pos ⟨hsource, hruns⟩)⟩
    rintro ⟨hsource, hruns⟩
    rcases hno with h | h
    · exact h hsource
    · exact absurd h (Bool.eq_false_iff.mp hruns)
  · simp only [exec, execPpsOutEdge, hon, (Bool.or_eq_true _ _).mpr hvalid, decide_eq_true hat]
    rfl
  · simp only [exec, execPpsOutFall, hout, hdue]
    rfl
  · exact congrArg Host.Outcome.next (if_pos h)
  · exact congrArg Host.Outcome.next (if_neg h)
  · exact congrArg Host.Outcome.next (if_pos (by simp [hsamples, hlink, hdue]))
  · exact congrArg Host.Outcome.next (if_neg (by simp [Nat.not_lt.mpr hsource, h0, h1]))

/-- A read of a timestamp queue pops its head with source 5 (R355). -/
theorem exec_ptpTsqData0Read_pops {q : Fin 4} {s : State} {e : TsEntry} (hsource : s.ptp.source = 5) (hhead : ((s.ptp.q.getD q.val {}).pop).2 = some e) :
    exec (.ptpTsqData0Read q) s = .next ((s.setPtp fun t => { t with q := modAt t.q q.val fun _ => ((s.ptp.q.getD q.val {}).pop).1 }).setSb fun b =>
      { b with data := [BitVec.ofNat 32 (fieldAt e.bytes 0 4)] }) := by
  simp only [exec, execPtpTsqData0Read]
  generalize (s.ptp.q.getD q.val {}).pop = x at hhead ⊢
  obtain ⟨rest, head⟩ := x
  dsimp only at hhead
  simp only [hhead]
  exact congrArg _ (if_neg (not_not_intro hsource))

/-- Settles O44. -/
theorem latchingReads : Obligations.LatchingReads :=
  ⟨fun _ => rfl, fun _ => rfl, fun _ _ _ hsource hhead => exec_ptpTsqData0Read_pops hsource hhead, fun _ => rfl, fun _ => rfl, fun _ => rfl⟩

/-- The Lens window is full (R420). -/
theorem exec_lensFillDone_of_filling {s : State} (hfill : s.evr.filling = true) :
    exec .lensFillDone s = .next (s.setEvr fun r =>
      { r with filling := false, ready := true, window := (List.range 128).map fun i => s.evr.at_ (s.evr.cursor + i) }) := by
  simp only [exec, execLensFillDone, State.setEvr, hfill, if_true]

/-- A bank of the on-die ring fails with what it alone held (R424). -/
theorem exec_evrMemFault_bank {bank : Nat} {s : State} (hok : s.evr.ondieOk = true) (hbank : bank < s.evr.banks) :
    exec (.evrMemFault false bank) s = .next (
      let inBank := fun (e : EvRec) => e.seq / 64 % s.evr.banks == bank
      let t := s.setEvr fun r =>
        { r with banks := r.banks - 1, ring := r.ring.filter (fun e => !inBank e), openRec := false, intStatus := r.intStatus ||| 2 }
      (if t.evr.banks < 4 then (t.copyEvents).setEvr fun r => { { r with ondieOk := false }.copy with ring := [] } else t).logEv evEvrMemFault uEvr 0
        (s.evr.uncopied.filter inBank).length) := by
  have hgo : ¬ (!s.evr.ondieOk || decide (s.evr.banks ≤ bank)) = true := by simp [hok, hbank]
  exact congrArg Host.Outcome.next ((if_neg Bool.false_ne_true).trans (if_neg hgo))

/-- Settles O46. -/
theorem theRecorderRuns : Obligations.TheRecorderRuns := by
  refine ⟨fun v s => rfl, fun s hfill => exec_lensFillDone_of_filling hfill, fun s hdue => ⟨fun hheld => ?_, fun hnone hquiet => ?_⟩, fun bank s hok => ?_,
    fun bank s hok hbank => exec_evrMemFault_bank hok hbank, fun addr s => rfl⟩
  · simp only [exec, execEvrFlashCopy, hdue, hheld]
    rfl
  · simp only [exec, execEvrFlashCopy, hdue, hnone, hquiet]
    rfl
  · simp only [exec, execEvrMemFault, hok]
    rfl

end Sys2Proof.Machine
end

section
/-! The side-band, its mailbox and register writes (O48, O49). -/

namespace Sys2Proof.Machine

/-- One posted write leaves the buffer and is written (R455). -/
theorem applyPosted_one {s : State} {a : Nat} {v : Word} {r : List (Nat × Word)} (hfifo : s.sb.fifo = (a, v) :: r) (hready : s.busReady = true) :
    s.applyPosted 1 = (s.setSb fun b => { b with fifo := r }).writeReg a v := by
  simp only [State.applyPosted, hfifo, hready, if_true]

/-- A word of four one-bit fields holds each at its bit. -/
theorem testBit_wordOf_four (a b c d : Bool) :
    let v := wordOf [(b2n a, 0), (b2n b, 1), (b2n c, 2), (b2n d, 3)]
    v.testBit 0 = a ∧ v.testBit 1 = b ∧ v.testBit 2 = c ∧ v.testBit 3 = d := by
  revert a b c d
  decide

/-- SPI is served while the AON island is on and its enable is set (R456). -/
theorem spiOpen {s : State} (hspi : s.life.spiEn = true) (haon : s.life.aonOn = true) : (s.life.spiEn && s.life.aonOn) = true := by
  rw [hspi, haon]
  rfl

/-- A side-band mailbox that takes a command is busy, with the command's tag, and its earlier cancel flags are clear (R460, R461). -/
def State.mbxTaken (s : State) (e : Entry) : State :=
  s.setMbx fun m => { m with mbxState := 1, cancelled := false, cancelLate := false, cancelPending := false, tag := e.tag, cmds := m.cmds.admitOne }

/-- Whether the length written fits the request buffer and its entry (R460). -/
def State.mbxFits (s : State) (e : Entry) : Bool := decide (s.mbx.reqLen.toNat ≤ 16384) && s.mbx.reqLen.toNat == 64 + e.reqLen

/-- The length fits exactly where it lies within the buffer and is the entry's own. -/
theorem mbxFits_iff {s : State} {e : Entry} : s.mbxFits e = true ↔ s.mbx.reqLen.toNat ≤ 16384 ∧ s.mbx.reqLen.toNat = 64 + e.reqLen := by
  rw [State.mbxFits, Bool.and_eq_true, decide_eq_true_eq, beq_iff_eq]

/-- The admission of the entry at the side-band mailbox, which fails where the length does not fit (R461, log 59). -/
def State.mbxAdmit (s : State) (e : Entry) (fits : Bool) : State :=
  let t := s.admitCmd (newCmd .mbx 1 false e (if fits then readCells s.mbx.reqBuf 64 e.reqLen else []) 16320)
  if fits then t
  else match t.cmd? s.mbx.admNext with
    | some c => t.fail c stInvalid
    | none => t

/-- A doorbell with the mailbox open and no command outstanding takes the entry in the request buffer (R460, R461). -/
theorem exec_mbx31Doorbell_of_free {s : State} {e : Entry} (hopen : s.mbxOpen = true) (hfree : s.mbx.mbxState ≠ 1)
    (he : e = parseEntry (readCells s.mbx.reqBuf 0 64)) : exec .mbx31Doorbell s = .next ((s.mbxTaken e).mbxAdmit e (s.mbxFits e)) := by
  subst he
  have hnot : ¬ (!s.mbxOpen) = true := by simp [hopen]
  exact congrArg Host.Outcome.next ((if_neg hnot).trans (if_neg hfree))

/-- A command whose length does not fit fails before every other check (log 59). -/
theorem mbxAdmit_of_not_fits {s : State} {e : Entry} {c : Cmd}
    (hcmd : (s.admitCmd (newCmd .mbx 1 false e [] 16320)).cmd? s.mbx.admNext = some c) :
    s.mbxAdmit e false = (s.admitCmd (newCmd .mbx 1 false e [] 16320)).fail c stInvalid := by
  simp only [State.mbxAdmit, Bool.false_eq_true, if_false, hcmd]

/-- MBX31_CANCEL of the outstanding command (R462). -/
theorem exec_mbx31Cancel_of_busy {s : State} {c : Cmd} (hcmd : (s.cmds.find? fun c => c.src == .mbx) = some c) (hbusy : s.mbx.mbxState = 1) :
    exec .mbx31Cancel s = .next (
      let t := s.setMbx fun m => { m with cancelPending := true }
      if c.cancellable then t.cancel c else t) := by
  simp only [exec, execMbx31Cancel, hcmd]
  exact congrArg Host.Outcome.next (if_neg (not_not_intro hbusy))

/-- MBX31_CANCEL in idle and done, or with no command of the mailbox, is ignored (R462). -/
theorem exec_mbx31Cancel_of_idle {s : State} (hidle : s.mbx.mbxState ≠ 1 ∨ (s.cmds.find? fun c => c.src == .mbx) = none) :
    exec .mbx31Cancel s = .next s := by
  simp only [exec, execMbx31Cancel]
  cases hcmd : s.cmds.find? fun c => c.src == .mbx with
  | none => rfl
  | some c => exact congrArg Host.Outcome.next (if_pos (hidle.resolve_right (by simp [hcmd])))

/-- Settles O48. -/
theorem theSideBandAndItsMailboxRun : Obligations.TheSideBandAndItsMailboxRun := by
  refine ⟨⟨fun s a v r hfifo hready => congrArg Host.Outcome.next (applyPosted_one hfifo hready),
    fun addr data s hspi haon => congrArg Host.Outcome.next (if_pos (spiOpen hspi haon)),
    fun addr words wait s hspi haon => congrArg Host.Outcome.next (if_pos (spiOpen hspi haon)),
    fun s hspi haon => ⟨_, congrArg Host.Outcome.next (if_pos (spiOpen hspi haon)), testBit_wordOf_four _ _ _ _⟩,
    fun dev addr data s hmine => congrArg Host.Outcome.next (if_pos hmine),
    fun dev addr words s hmine => congrArg Host.Outcome.next (if_pos hmine), fun s => rfl⟩,
    fun s hopen hbusy => ?_, fun s e hopen hfree he hmax hlen => ?_, fun s e c hopen hfree he hlen => ?_,
    fun s c hcmd hbusy => ?_, fun s hidle => exec_mbx31Cancel_of_idle hidle, fun s hclosed => ?_⟩
  · have hnot : ¬ (!s.mbxOpen) = true := by simp [hopen]
    exact congrArg Host.Outcome.next ((if_neg hnot).trans (if_pos hbusy))
  · rw [exec_mbx31Doorbell_of_free hopen hfree he, mbxFits_iff.mpr ⟨hmax, hlen⟩]
    rfl
  · intro t hcmd
    have hnofit : s.mbxFits e = false := Bool.eq_false_iff.mpr fun h => by
      have := mbxFits_iff.mp h
      omega
    rw [exec_mbx31Doorbell_of_free hopen hfree he, hnofit]
    exact congrArg Host.Outcome.next (mbxAdmit_of_not_fits hcmd)
  · rw [exec_mbx31Cancel_of_busy hcmd hbusy]
    exact ⟨fun hcan => congrArg _ (if_pos hcan), fun hcan => congrArg _ (if_neg (Bool.eq_false_iff.mp hcan))⟩
  · exact congrArg Host.Outcome.next (if_pos (by simp [hclosed]))

/-- A W1C register clears the bits written as 1 and no other (R16). -/
theorem getLsbD_w1c {n i : Nat} (x : BitVec n) (v : Word) (hi : i < n) : (w1c x v).getLsbD i = (x.getLsbD i && !v.getLsbD i) := by
  simp [w1c, hi]

/-- An aligned write to GLB with the AON island on (R465). -/
theorem writeReg_glb {s : State} {a : Nat} {v : Word} (haon : s.life.aonOn = true) (ha : a < 65536) (halign : a % 4 = 0) :
    s.writeReg a v = s.writeGlb a v := by
  simp [State.writeReg, haon, halign, Nat.div_eq_of_lt ha, Nat.mod_eq_of_lt ha]

/-- An unaligned write is ignored (R17). -/
theorem writeReg_of_unaligned {s : State} {a : Nat} {v : Word} (halign : a % 4 ≠ 0) : s.writeReg a v = s := by
  simp [State.writeReg, halign]

/-- An aligned write to MBX with the main island's blocks served (R465). -/
theorem writeReg_mbx {s : State} {a : Nat} {v : Word} (haon : s.life.aonOn = true) (hready : s.busReady = true) (ha : a < 65536) (halign : a % 4 = 0) :
    s.writeReg (65536 + a) v = s.writeMbx a v := by
  have hoff : (65536 + a) % 65536 = a := by omega
  have hblk : (65536 + a) / 65536 = 1 := by omega
  have hal : (65536 + a) % 4 = 0 := by omega
  simp [State.writeReg, haon, hready, hoff, hblk, hal]

/-- A write to the request buffer of a mailbox that is not busy (R461, R467). -/
theorem writeMbx_reqBuf {s : State} {off : Nat} {v : Word} (hoff : off < 0x4000) (hfree : s.mbx.mbxState ≠ 1) :
    s.writeMbx (0x8000 + off) v = s.setMbx fun m => { m with reqBuf := writeCells m.reqBuf off (le 4 v.toNat) } := by
  have hin : (decide (0x8000 ≤ 0x8000 + off) && decide (0x8000 + off < 0xC000)) = true := by
    rw [decide_eq_true (Nat.le_add_right _ _), decide_eq_true (by omega)]
    rfl
  simp only [State.writeMbx, Nat.add_sub_cancel_left]
  exact (if_pos hin).trans (if_neg hfree)

/-- Settles O49. -/
theorem registerWrites : Obligations.RegisterWrites := by
  refine ⟨fun v s haon => ⟨?_, ?_, ?_, ?_⟩, fun v s haon => ⟨?_, fun i hi => getLsbD_w1c _ _ hi⟩,
    fun addr v s halign => congrArg Host.Outcome.next (writeReg_of_unaligned halign), fun off v s hoff halign haon hready hfree => ?_,
    fun v s haon => ?_, fun kHz s hdue hruns => ?_, fun kHz s hdue hstops => ?_⟩
  · exact congrArg Host.Outcome.next (writeReg_glb haon (by decide) (by decide))
  · exact congrArg Host.Outcome.next (writeReg_glb haon (by decide) (by decide))
  · exact congrArg Host.Outcome.next (writeReg_glb haon (by decide) (by decide))
  · exact congrArg Host.Outcome.next (writeReg_glb haon (by decide) (by decide))
  · exact congrArg Host.Outcome.next (writeReg_glb haon (by decide) (by decide))
  · have haddr : 0x18000 + off = 65536 + (0x8000 + off) := by omega
    rw [haddr]
    exact congrArg Host.Outcome.next ((writeReg_mbx haon hready (by omega) (by omega)).trans (writeMbx_reqBuf hoff hfree))
  · have hnot : ¬ (!s.life.aonOn) = true := by simp [haon]
    exact congrArg Host.Outcome.next (if_neg hnot)
  · simp only [exec, execClkMeasDone, hdue, hruns]
    rfl
  · simp only [exec, execClkMeasDone, hdue, hstops]
    rfl

end Sys2Proof.Machine
end
